-- ==== Sys2Proof/Word.lean ====
section
/-!
DEFINITION. The word types of the model: bytes of memory, 64-bit registers, and the two numbers the manual counts
with everywhere (addresses and device time are plain naturals, R10, R284).
-/
namespace Sys2Proof

/-- One byte of memory. -/
abbrev Byte := BitVec 8

/-- One 64-bit register. -/
abbrev Word := BitVec 64

end Sys2Proof
end

