-- ==== Sys2Proof/Syntax.lean ====
section
/-!
DEFINITION. The commands that the device takes, as syntax: the operands that events carry, and the one inductive
`Instr` with a constructor for every row of spec/opcode_table.json. The table gives its rows no bits, so a command is
not a word: it is what the host, the network, a pin, a sensor or one of the device's own engines does.
-/
namespace Sys2Proof

/-- The PCIe function an access comes through: PF0, or the virtual function that drives context `k` (R569). -/
inductive Fn where
  | pf0
  | vf (k : Fin 16)
  deriving DecidableEq, Repr

/-- A command of a ring: the context, the ring and the record's count (R579). -/
structure CmdId where
  ctx : Fin 16
  ring : Fin 64
  count : BitVec 32
  deriving DecidableEq, Repr

/-- The header of a received GCT packet (R453, R454): the local connection, the sequence number and both epochs. -/
structure GctHdr where
  conn : Fin 4096
  seq : BitVec 32
  srcEpoch : BitVec 32
  dstEpoch : BitVec 32
  deriving DecidableEq, Repr

/-- Who writes CTX_CTRL: a PCIe function, or a job controller over its connection (R353, R484). -/
inductive CtxSrc where
  | fn (f : Fn)
  | controller (hdr : GctHdr)
  deriving DecidableEq, Repr

/-- Who sends an ACTIVATE request: the mailbox, or a job controller (R557). -/
inductive ActSrc where
  | mailbox
  | controller (hdr : GctHdr)
  deriving DecidableEq, Repr

/-- Why the watchdog restarts the device (R526). -/
inductive WatchdogCause where
  | secondCore
  | noHeartbeat
  | rollbackFailed
  deriving DecidableEq, Repr

/-- A lane that failed training: channel and lane (R299). -/
structure LaneFail where
  channel : Fin 128
  lane : Fin 18
  deriving DecidableEq, Repr

/-- What bring-up found (R477 steps 5 to 9): tiles that fail self-test with their codes, and lanes that fail
training, by stack. -/
structure BringupReport where
  tiles : List (Fin 48 × BitVec 8)
  lanes : List (Fin 20 × LaneFail)
  deriving DecidableEq, Repr

/-- A word of on-chip SRAM that the scrub finds in error (R295, R297, R311): in a tile store or in a shared cache,
with the granule it belongs to, whether it can be corrected, and for a cache whether its line is dirty. -/
inductive SramWord where
  | tile (t : Fin 48) (granule : BitVec 20) (correctable : Bool)
  | cache (stack : Fin 20) (granule : BitVec 32) (correctable : Bool)
  deriving DecidableEq, Repr

/-- How the swap of an activation goes (R561, R562): all well, a part type that fails to load, restart or check, or
a rollback that itself fails; and the time the pause takes. -/
structure SwapReport where
  failing : Option (Fin 8)
  rollbackFails : Bool
  ns : BitVec 32
  deriving DecidableEq, Repr

/-- A received CAPS message (R453, R457): the sender's connection, the connection it names, its epoch, the version
range of each interface (max in [7:4], min in [3:0]) and its addresses with their family (true = IPv6). -/
structure Caps where
  conn : BitVec 16
  peerConn : BitVec 16
  epoch : BitVec 32
  ranges : List (BitVec 8)
  addrs : List (Bool × BitVec 128)
  deriving DecidableEq, Repr

/-- What a reply to a remote bead request says (R379). -/
inductive BeadReply where
  | done
  | value
  | met
  | accepted
  | refused
  | broken
  | overflow
  | underflow
  deriving DecidableEq, Repr

/-- A step-commit message (R269): group, target, attempt, the sender's member index, the DECISION that it carries or
proposes, and the sender's READY bits. -/
structure StepMsg where
  group : BitVec 16
  target : Word
  attempt : BitVec 16
  member : BitVec 16
  decision : BitVec 2
  ready : BitVec 1024
  deriving DecidableEq, Repr

/-- The signature of a collective (R463): what is compared, the row of counts of ALL_TO_ALL, whether the member's result
fits its DST_BYTES, and DST_BYTES itself. -/
structure CollSig where
  op : BitVec 4
  red : BitVec 2
  fmt : BitVec 8
  count : Word
  root : BitVec 16
  crc : BitVec 32
  row : List (BitVec 40)
  fits : Bool
  space : Word
  deriving DecidableEq, Repr

/-- A LOAN_STEP request at the lender (R249). -/
structure LoanStepMsg where
  op : BitVec 2
  target : Word
  group : BitVec 16
  fields : List Word
  bytes : List Byte
  deriving DecidableEq, Repr

/-- A lender's reply for a group (R248). -/
structure LoanReplyMsg where
  op : BitVec 2
  target : Word
  group : BitVec 16
  status : BitVec 8
  fields : List Word
  bytes : List Byte
  deriving DecidableEq, Repr

/-- Why a frame lies outside the subsets of R450. -/
inductive FrameFault where
  | badFcs
  | doubleTag
  | fragment
  | options
  | extension
  | protocol
  | checksum
  | multicast
  deriving DecidableEq, Repr

/-- What the device sends on a GCT connection. -/
inductive GctMsg where
  | caps (epoch : Nat) (ranges : List Nat) (addrs : List Nat)
  | ack (upto : Nat) (ce : Bool)
  | keepalive
  | close
  | hold (ns : Nat)
  | beadReq (req op vid value : Nat)
  | beadReply (req : Nat) (kind : BeadReply) (value : Nat)
  | suspend (req : Nat) (starts : Bool) (value : Nat)
  | step (kind : Nat) (m : StepMsg)
  | join (group n index max : Nat)
  | leave (group : Nat)
  | sig (group seq : Nat) (sig : CollSig)
  | data (group seq : Nat) (bytes : List Byte) (lost : List Nat) (flags : Nat)
  | transfer (req addr vid add : Nat) (bytes : List Byte)
  | transferReply (req status : Nat)
  | loan (kind : Nat) (fields : List Nat) (bytes : List Byte)
  | report (bytes : List Byte)
  | answer (result detail : Nat)
  deriving DecidableEq, Repr


/-- The commands and events of the block: one constructor for each row of spec/opcode_table.json, in the table's
order. A command of a ring names the fetched command it runs (`CmdId`); an event carries what the world supplies. -/
inductive Instr where
  /-- POWER_ON (R476). 54 V and the 100 MHz reference come into range, PD00 powers up and the device enters AON. -/
  | powerOn
  /-- SUPPLY_LOSS (R604). J2 falls below 44.0 V, PD00 is lost and the device takes a cold reset. -/
  | supplyLoss
  /-- ROM_ENTRY (R476). The device moves from AON to ROM when the 10 ms AON wait expires. -/
  | romEntry
  /-- ROM_BOOT (R480). Once ROM has derived the PUF identity, it picks the first acceptable image and enters LOAD, or HALTED with NO_IMAGE if none passes. -/
  | romBoot (raw : List (BitVec 255))
  /-- LOAD_DONE (R476). All firmware parts are loaded and measured, the life log is restored, and the device enters CFG_CHECK. -/
  | loadDone
  /-- CONFIG_CHECK (R486). The device chooses the intact blob copy and runs the checks of R487 on it, then enters BRINGUP or CFG_HOLD. -/
  | configCheck
  /-- BRINGUP_DONE (R494). Bring-up ends, the register checks are run, and the device enters READY, DEGRADED, CFG_HOLD or HALTED. -/
  | bringupDone (r : BringupReport)
  /-- PTP_WAIT_EXPIRY (R477). PTP_WAIT expires before PTP locks, so the device goes ahead to READY or DEGRADED. -/
  | ptpWaitExpiry
  /-- PD01_LOSS (R476). PD01 is lost while PD00 is kept, which is a warm reset into ROM. -/
  | pd01Loss
  /-- WATCHDOG_RESTART (R526). The management watchdog orders a warm reset when a second core would be retired or when no heartbeat has arrived for 100 ms. -/
  | watchdogRestart (c : WatchdogCause)
  /-- PERST_ASSERT (R476). PERST# is asserted, which resets the PCIe functions only and leaves HUB_STATE unchanged. -/
  | perstAssert
  /-- HOT_RESET (R476). A PCIe hot reset resets the PCIe functions only. -/
  | hotReset
  /-- PF0_FLR (R349). A Function Level Reset of PF0 disables all 16 contexts and resets PF0's own registers. -/
  | pf0Flr
  /-- VF_FLR (R349). A Function Level Reset of VFk starts the disable of context k-1. -/
  | vfFlr (k : Fin 16)
  /-- VF_DISABLE (R349). Clearing VF Enable after it was set starts the disable of all 16 contexts. -/
  | vfDisable
  /-- DISABLE_UNIT_DEADLINE (R349). The 20 ms disable limit expires and the units still running are abandoned mid-unit. -/
  | disableUnitDeadline (ctx : Fin 16)
  /-- DISABLE_COMPLETE (R349). Once the disabled context has drained, its fetched commands complete ABORTED_DISABLE, its beads break, its connections close, and the context returns to IDLE. -/
  | disableComplete (ctx : Fin 16)
  /-- REFCLK_LOSS (R596). Loss of the J1 REFCLK takes the PCIe link down and affects nothing else. -/
  | refclkLoss
  /-- PCIE_LINK_STATE_CHANGE (R568). The PCIe link trains, retrains or changes rate or width, and HUB_LINK is updated. -/
  | pcieLinkStateChange (gen : BitVec 3) (width : BitVec 4) (corr : BitVec 16) (uncorr : BitVec 16)
  /-- PCIE_AER_EVENT (R593). An uncorrectable PCIe error is detected on a function. -/
  | pcieAerEvent (status : BitVec 32) (hdr : BitVec 32) (fn : BitVec 16)
  /-- BRACE_LATCH (R533). BRACE_N is qualified low for 50 µs, the device enters BRACED, fetch stops, and phase 1 begins. -/
  | braceLatch
  /-- BRACE_PHASE_END (R533). The current brace phase reaches its end condition and the next phase begins, up to PARKED. -/
  | bracePhaseEnd
  /-- BRACE_PHASE_TIMEOUT (R533). COMMIT_MS, DRAIN_MS or PUSH_MS expires and the current phase is cut short. -/
  | bracePhaseTimeout
  /-- BRACE_PIN_RELEASE (R536). BRACE_N has stayed high for 1 s, so MGT_BRACE_STATUS.PIN reads 0. -/
  | bracePinRelease
  /-- POWER_WARNING (R532). PWR_WARN_N is latched after 10 µs low, any NVM write in progress is abandoned, and a flush record is written to both NVM devices. -/
  | powerWarning
  /-- PPS_EDGE (R601). A qualified PPS_IN rising edge is time-stamped into MGT_PPS. -/
  | ppsEdge
  /-- NVM_WRITE_PROTECT_CHANGE (R600). NVM_WP_N is asserted or released, which blocks or allows NVM program and erase. -/
  | nvmWriteProtectChange (asserted : Bool)
  /-- POWER_SAMPLE (R510). The 10 µs input-power measurement updates P_1ms and P_1s, and the governor adjusts the issue throttling. -/
  | powerSample (mw : BitVec 32)
  /-- THERMAL_THROTTLE_STEP (R512). The die temperature timer lowers the issue rate by one step every 100 µs at or above THROTTLE_C, or raises it by one step every 1 ms once the reading is 3 °C below it. -/
  | thermalThrottleStep (die : Fin 5) (temp : BitVec 8)
  /-- THERMAL_TRIP (R512). A die junction at 110 °C or more for 1 ms asserts THERMTRIP_N, turns the domains OFF and enters HALTED. -/
  | thermalTrip (die : Fin 5) (temp : BitVec 8)
  /-- DOMAIN_IDLE_STEP (R505). An idle timer of PWR_IDLE expires and the domain steps down to GATED, RETAIN or OFF. -/
  | domainIdleStep (d : Fin 20)
  /-- DOMAIN_WAKE_DONE (R503). A domain wake completes, and the requests held for it proceed. -/
  | domainWakeDone (d : Fin 20)
  /-- WAKE_TIMEOUT (R507). A domain has not reached ON within ten times its wake time; the wake is retried once, and a second failure removes the domain's units. -/
  | wakeTimeout (d : Fin 20)
  /-- PARK_LEVEL_WRITE (R509). A write of PWR_PARK.LEVEL through PF0 starts a change of park level if its entry conditions hold. -/
  | parkLevelWrite (fn : Fn) (level : BitVec 2)
  /-- PARK_COMPLETE (R509). A park level change ends, BUSY clears and CURRENT is updated. -/
  | parkComplete
  /-- COOLANT_CHECK (R517). The coolant inlet timer sets the COOLANT cause after more than 60 s above 40 °C, or clears it after 600 s at or below 38 °C. -/
  | coolantCheck (inlet : BitVec 12) (outlet : BitVec 12)
  /-- CE_WINDOW_END (R517). An hourly corrected-error window ends and the CE_RATE cause is evaluated. -/
  | ceWindowEnd
  /-- SHOCK_END (R528). A shock event ends after 50 ms below 1.5 g, and it is recorded in the life log. -/
  | shockEnd
  /-- LIFE_SAMPLE (R528). The once-per-second sample updates the temperature and supply bins of the life log. -/
  | lifeSample (temps : List (BitVec 8)) (mv : BitVec 16)
  /-- LIFE_MIRROR (R529). The 10-minute timer writes a full signed mirror of the life log to the next NVM slot. -/
  | lifeMirror
  /-- CORE_HEARTBEAT_LAPSE (R524). A management core's heartbeat lapses for 50 ms, and the core is halted and restarted alone. -/
  | coreHeartbeatLapse (core : Fin 4)
  /-- CORE_MEMORY_ERROR (R524). An uncorrectable error in a core's memories makes that core restart alone. -/
  | coreMemoryError (core : Fin 4)
  /-- CORE_RESTART_DONE (R524). A single-core restart ends and the core's paused duties resume. -/
  | coreRestartDone (core : Fin 4)
  /-- TILE_IDLE_TEST (R521). An idle tile that is due for test wakes its group and starts a 30 ms in-service self-test. -/
  | tileIdleTest (tile : Fin 48)
  /-- TILE_TEST_END (R521). An in-service tile test ends; on failure the tile is retired under R7. -/
  | tileTestEnd (tile : Fin 48) (code : BitVec 8)
  /-- PHY_RECALIBRATION (R30). BARM holds a channel group for 2 µs of recalibration every 20 ms. -/
  | phyRecalibration (stack : Fin 20) (group : Fin 4)
  /-- PERIODIC_RETRAIN (R300). The 6 h retrain of a channel group holds the group for 50 µs and switches in spares for failing lanes. -/
  | periodicRetrain (stack : Fin 20) (group : Fin 4) (failing : List LaneFail)
  /-- EARLY_RETRAIN (R300). The early retrain scheduled after a failed-lane signature runs, and it may retire or lose the channel. -/
  | earlyRetrain (stack : Fin 20) (group : Fin 4) (failing : List LaneFail)
  /-- RETIRE_COPY_PIECE (R301). One 2 MiB piece of a retiring channel is copied into its slot, and lost granules are written poisoned. -/
  | retireCopyPiece (stack : Fin 20) (channel : Fin 128)
  /-- PATROL_SCRUB (R311). The stack patrol scrub reads and corrects granules on its own schedule. -/
  | patrolScrub (stack : Fin 20) (granule : BitVec 32) (symbols : BitVec 72)
  /-- SRAM_SCRUB (R311). The SRAM scrub corrects tile-store and shared-cache words and poisons uncorrectable ones. -/
  | sramScrub (w : SramWord)
  /-- INNER_COUNT_POLL (R292). Every 10 s a stack String reads the inner-code correction counts into MEM_ECC_COUNTn.INNER. -/
  | innerCountPoll (stack : Fin 20) (n : BitVec 16)
  /-- TELEMETRY_TICK (R396). The TELEMETRY_MS period of a String elapses and it puts one telemetry entry into the telemetry queue. -/
  | telemetryTick (unit : BitVec 16) (v : List (BitVec 32))
  /-- RING_DOORBELL (R580). A doorbell write, through PF0 BAR2 or a VF, carries a new TAIL and wakes the ring's domains. -/
  | ringDoorbell (fn : Fn) (ctx : Fin 16) (ring : Fin 64) (tail : BitVec 32)
  /-- GCT_DOORBELL (R580). A job controller's GCT DOORBELL message sets a ring's TAIL. -/
  | gctDoorbell (hdr : GctHdr) (ctx : Fin 16) (ring : Fin 64) (tail : BitVec 32)
  /-- RECORD_FETCH (R581). The dispatcher fetches one command record and checks it, which may complete it at once or stop the ring. -/
  | recordFetch (ctx : Fin 16) (ring : Fin 64)
  /-- COMMAND_COMPLETE (R372). After every tile's share has finished, the command's SIGNAL is checked and added, and its completion record and queue copy are written. -/
  | commandComplete (id : CmdId)
  /-- BEAD_WAIT_EXPIRY (R382). A bead wait's timeout expires and the waiting command completes BEAD_TIMEOUT. -/
  | beadWaitExpiry (id : CmdId)
  /-- PEG_WAIT_EXPIRY (R389). A peg wait's timeout expires and the waiting command completes BEAD_TIMEOUT. -/
  | pegWaitExpiry (id : CmdId)
  /-- RING_ENABLE (R579). Setting CTX_RING_CFGr.ENABLE zeroes HEAD and TAIL and fixes the ring's effective tile set. -/
  | ringEnable (fn : Fn) (ctx : Fin 16) (ring : Fin 64) (value : Word)
  /-- RING_DISABLE (R579). Clearing ENABLE takes an idle ring out of service. -/
  | ringDisable (fn : Fn) (ctx : Fin 16) (ring : Fin 64)
  /-- RING_STOP (R582). A write of CTX_RING_CTRLr.STOP stops fetch with cause HOST. -/
  | ringStop (fn : Fn) (ctx : Fin 16) (ring : Fin 64)
  /-- RING_RESTART (R582). A write of RESTART, optionally with SKIP, resumes fetch of a stopped ring. -/
  | ringRestart (fn : Fn) (ctx : Fin 16) (ring : Fin 64) (skip : Bool)
  /-- CTX_PREEMPT (R344). A write of CTX_CTRL.PREEMPT with MODE SAVE starts setting the context aside. -/
  | ctxPreempt (src : CtxSrc) (ctx : Fin 16)
  /-- CTX_EVICT (R345). A write of PREEMPT with MODE EVICT starts pre-emption in which fetched commands complete PREEMPTED. -/
  | ctxEvict (src : CtxSrc) (ctx : Fin 16)
  /-- PREEMPT_COMPLETE (R344). Every unit has reached its restart point, the state is saved, the beads are suspended, and the context is PREEMPTED. -/
  | preemptComplete (ctx : Fin 16)
  /-- CTX_RESUME (R348). A write of CTX_CTRL.RESUME starts restoring a PREEMPTED context. -/
  | ctxResume (src : CtxSrc) (ctx : Fin 16)
  /-- RESUME_COMPLETE (R348). The restore ends, pending faults are replayed, the beads are reactivated and fetch resumes. -/
  | resumeComplete (ctx : Fin 16)
  /-- CTX_INVALIDATE (R355). A write of CTX_INVAL.GO starts invalidating translations of a range or of the whole context. -/
  | ctxInvalidate (fn : Fn) (ctx : Fin 16) (vpn : BitVec 36) (count : BitVec 20)
  /-- INVALIDATION_COMPLETE (R334). A translation invalidation ends and INVAL_BUSY reads 0. -/
  | invalidationComplete (ctx : Fin 16)
  /-- HOST_BEAD_ADD (R374). A write of CTX_BEAD_ADD adds an amount to a mapped bead. -/
  | hostBeadAdd (fn : Fn) (ctx : Fin 16) (vid : BitVec 14) (amount : BitVec 48)
  /-- BEAD_ATTR_WRITE (R390). A write of BEAD_ATTRn moves a bead between FREE and ACTIVE and sets its pairing fields as their rules allow. -/
  | beadAttrWrite (n : BitVec 16) (value : Word)
  /-- BEAD_MAP_WRITE (R366). A write of CTX_BEAD_MAP installs the map and discards the cached map entries. -/
  | beadMapWrite (fn : Fn) (ctx : Fin 16) (value : Word)
  /-- QUEUE_ENTRY_READ (R403). A read of word 3 of QUE_ENTRYq returns the word and advances to the next entry, freeing the packet at its end. -/
  | queueEntryRead (fn : Fn) (q : Fin 256)
  /-- QUEUE_FLUSH (R411). A write of QUE_CTRLq.FLUSH discards all committed content without counting it as lost. -/
  | queueFlush (fn : Fn) (q : Fin 256)
  /-- QUEUE_SKIP (R403). A write of QUE_CTRLq.SKIP frees the head packet. -/
  | queueSkip (fn : Fn) (q : Fin 256)
  /-- CONN_OPEN (R453). NET_CONN_CTRL OPEN opens a RoCE queue pair, or starts a GCT opening with a new EPOCH. -/
  | connOpen (fn : Fn) (conn : Fin 4096)
  /-- CONN_CLOSE (R453). NET_CONN_CTRL CLOSE closes a connection, ending its commands as under a loss. -/
  | connClose (fn : Fn) (conn : Fin 4096)
  /-- CONN_TABLE_WRITE (R452). A write of NET_CONN_TABLE names a table and marks its open entries LOST. -/
  | connTableWrite (value : Word)
  /-- LOAN_BIND (R469). A write of NET_LOAN_WINw.BIND starts binding a loan window. -/
  | loanBind (w : Fin 16)
  /-- LOAN_UNBIND (R469). A write of UNBIND releases a window's grant and returns the window to UNBOUND. -/
  | loanUnbind (w : Fin 16)
  /-- WINDOW_READ (R575). A read through PF0 BAR4 reaches device memory, or returns all ones outside the reachable ranges. -/
  | windowRead (offset : BitVec 32) (len : Fin 4097)
  /-- WINDOW_WRITE (R575). A write through PF0 BAR4 reaches device memory, or is discarded outside the reachable ranges. -/
  | windowWrite (offset : BitVec 32) (bytes : List Byte)
  /-- REGISTER_WRITE (R12). A write to a register with no row of its own takes effect according to its access code. -/
  | registerWrite (fn : Fn) (offset : BitVec 24) (value : Word)
  /-- CTX_KV_COUNTS_READ (R211). A read of CTX_KV_COUNTS returns and clears its counts. -/
  | ctxKvCountsRead (fn : Fn) (ctx : Fin 16)
  /-- CTX_TRAIN_COUNTS_READ (R253). A read of CTX_TRAIN_COUNTS returns and clears its counts. -/
  | ctxTrainCountsRead (fn : Fn) (ctx : Fin 16)
  /-- CTX_FAULT_COUNTS_READ (R360). A read of CTX_FAULT_COUNTS returns and clears its counts. -/
  | ctxFaultCountsRead (fn : Fn) (ctx : Fin 16)
  /-- MEM_ECC_COUNT_READ (R321). A read of MEM_ECC_COUNTn returns and clears its counts. -/
  | memEccCountRead (stack : Fin 20)
  /-- QUE_LOST_READ (R411). A read of QUE_LOSTq returns and clears its loss counts. -/
  | queLostRead (fn : Fn) (q : Fin 256)
  /-- KFE_COUNTS_READ (R445). A read of KFE_COUNTSk returns and clears its counts. -/
  | kfeCountsRead (k : Fin 4)
  /-- KFE_LIVE_COUNT_READ (R445). A read of KFE_LIVE_COUNTn returns and clears its counts. -/
  | kfeLiveCountRead (n : Fin 64)
  /-- NET_PORT_STATUS_READ (R472). A read of NET_PORT_STATUSp returns and clears DOWN_EVENTS and DROPPED. -/
  | netPortStatusRead (p : Fin 12)
  /-- PWR_DOM_STATUS_READ (R515). A read of PWR_DOM_STATUSn returns and clears WAKES. -/
  | pwrDomStatusRead (d : Fin 20)
  /-- PWR_TEMP_READ (R515). A read of PWR_TEMP returns and clears PEAK. -/
  | pwrTempRead
  /-- MGT_CORES_READ (R540). A read of MGT_CORES returns and clears RESTARTS. -/
  | mgtCoresRead
  /-- MGT_SHOCK_READ (R540). A read of MGT_SHOCK returns and clears MAX_PEAK and EVENTS. -/
  | mgtShockRead
  /-- HUB_LINK_READ (R574). A read of HUB_LINK returns and clears the link error counts. -/
  | hubLinkRead
  /-- CFG_LOAD (R492). The mailbox command CFG_LOAD reads a blob from host memory, checks it and stages it. -/
  | cfgLoad (addr : Word) (len : Word)
  /-- CFG_COMMIT (R493). The mailbox command CFG_COMMIT writes the staged blob to NVM and/or starts BRINGUP from it. -/
  | cfgCommit (writeNvm : Bool)
  /-- ACTIVATE_STAGE (R558). ACTIVATE STAGE reads and checks a firmware image and writes it into the inactive NVM image. -/
  | activateStage (src : ActSrc) (addr : Word) (len : Word)
  /-- ACTIVATE_SCHEDULE (R560). ACTIVATE SCHEDULE checks the staged image and starts preparing a scheduled live activation. -/
  | activateSchedule (src : ActSrc) (time : Word) (windowMs : BitVec 16) (ctx : Fin 16) (fallback : Bool)
  /-- ACTIVATE_NOW (R563). ACTIVATE NOW pauses at once for activation, or restarts from HALTED. -/
  | activateNow (src : ActSrc)
  /-- ACTIVATE_CANCEL (R557). ACTIVATE CANCEL disarms a scheduled activation. -/
  | activateCancel (src : ActSrc)
  /-- MBOX_RESUME (R536). The mailbox command RESUME leaves BRACED, wakes the domains and resumes the braced contexts. -/
  | mboxResume
  /-- LIFE_READ (R531). The mailbox command LIFE_READ writes the live log, or a freshly written signed mirror, to host memory. -/
  | lifeRead (source : Bool) (offset : BitVec 32) (len : BitVec 32) (addr : Word)
  /-- MBOX_ATTEST (R551). The mailbox command ATTEST writes a signed attestation report for a nonce to host memory. -/
  | mboxAttest (addr : Word) (nonce : List Byte)
  /-- DOE_ATTEST_REQUEST (R551). A PCIe DOE request object with a nonce is answered with a signed attestation report. -/
  | doeAttestRequest (nonce : List Byte)
  /-- GCT_ATTEST (R551). A GCT ATTEST message from a job controller is answered with a signed attestation report. -/
  | gctAttest (hdr : GctHdr) (nonce : List Byte)
  /-- DIAG_FINDINGS (R490). The mailbox command DIAG FINDINGS writes the list of configuration findings to host memory. -/
  | diagFindings (addr : Word)
  /-- DIAG_RESTART (R490). The mailbox command DIAG RESTART orders a warm reset. -/
  | diagRestart
  /-- DIAG_NOTICES (R577). The mailbox command DIAG NOTICES writes the kept start notices to host memory. -/
  | diagNotices (addr : Word)
  /-- MAILBOX_DONE (R576). A mailbox command that took time ends, so DONE, RESULT and DETAIL are set and PF0 vector 0 is sent. -/
  | mailboxDone
  /-- ACTIVATION_PREPARED (R560). The staged parts are loaded and checked, and the activation becomes ARMED. -/
  | activationPrepared (ok : Bool)
  /-- ACTIVATION_TIME (R560). The armed activation TIME is reached and the state becomes WAITING. -/
  | activationTime
  /-- ACTIVATION_PAUSE (R561). A step-commit boundary, or FALLBACK at the window end, starts the activation pause: HOLD is sent, units drain, parts are swapped and checked, and a rollback follows on any failure. -/
  | activationPause (r : SwapReport)
  /-- ACTIVATION_DRAIN_TIMEOUT (R561). Some unit is not at a restart point 10 ms (1 s for NOW) into the pause, so the activation is abandoned. -/
  | activationDrainTimeout (units : BitVec 32)
  /-- ACTIVATION_WINDOW_EXPIRY (R560). TIME + WINDOW_MS passes without a boundary; the activation is dropped, or with FALLBACK = 1 the pause begins. -/
  | activationWindowExpiry
  /-- LINK_LOSS (R449). A logical port's link is lost, sending on it stops, and its unacknowledged GCT packets are resent on the other up ports. -/
  | linkLoss (lp : Fin 24)
  /-- LINK_UP (R449). A logical port's link is up with FEC locked for 10 ms. -/
  | linkUp (lp : Fin 24)
  /-- PTP_MESSAGE (R451). A received PTP message is time-stamped and device time is slewed. -/
  | ptpMessage (lp : Fin 24) (offset : BitVec 32)
  /-- PTP_LOCK (R451). At the first PTP lock after a cold reset, device time steps once, forward, to PTP time. -/
  | ptpLock (lp : Fin 24) (time : Word)
  /-- PTP_SOURCE_LOSS (R451). The time source is lost and PTP enters HOLDOVER. -/
  | ptpSourceLoss
  /-- ARP_FRAME (R450). A received ARP frame is answered or used. -/
  | arpFrame (lp : Fin 24) (request : Bool) (target : BitVec 32) (senderIp : BitVec 32) (senderMac : BitVec 48)
  /-- ND_MESSAGE (R450). A received IPv6 Neighbour Discovery solicitation or advertisement is answered or used. -/
  | ndMessage (lp : Fin 24) (solicit : Bool) (target : BitVec 128) (senderIp : BitVec 128) (senderMac : BitVec 48)
  /-- ICMP_ECHO (R450). A received ICMP or ICMPv6 echo request is answered. -/
  | icmpEcho (lp : Fin 24) (v6 : Bool) (dst : BitVec 128) (src : BitVec 128) (payload : List Byte)
  /-- PFC_PAUSE_FRAME (R450). A received PFC pause frame pauses transmission on its priority. -/
  | pfcPauseFrame (lp : Fin 24) (prio : Fin 8) (quanta : BitVec 16)
  /-- ROCE_SEND (R452). An incoming RoCE SEND is written into the window ring and announced by an entry in RX_QUEUE. -/
  | roceSend (conn : Fin 4096) (bytes : List Byte)
  /-- ROCE_RDMA_WRITE (R452). An incoming RDMA WRITE is checked against the connection's window and written. -/
  | roceRdmaWrite (conn : Fin 4096) (rkey : BitVec 32) (va : Word) (bytes : List Byte)
  /-- ROCE_RDMA_READ (R452). An incoming RDMA READ is checked against the connection's window and answered. -/
  | roceRdmaRead (conn : Fin 4096) (rkey : BitVec 32) (va : Word) (len : BitVec 32)
  /-- ROCE_ATOMIC (R450). An incoming RoCE atomic is answered with an invalid-request NAK. -/
  | roceAtomic (conn : Fin 4096)
  /-- ROCE_RETRY_EXHAUSTED (R455). A RoCE connection's retry count runs out and the connection is lost. -/
  | roceRetryExhausted (conn : Fin 4096)
  /-- GCT_CAPS (R453). A received CAPS message is accepted, making the connection OPEN at the negotiated versions, or it shows that no wire format is common. -/
  | gctCaps (conn : Fin 4096) (caps : Caps)
  /-- CAPS_TIMER (R453). The 1 ms CAPS timer of an OPENING connection resends CAPS. -/
  | capsTimer (conn : Fin 4096)
  /-- OPEN_TIMEOUT (R453). A GCT connection is not OPEN within 1 s and becomes FAILED. -/
  | openTimeout (conn : Fin 4096)
  /-- GCT_ACK (R454). A received GCT acknowledgement retires acknowledged packets and feeds back ECN marks. -/
  | gctAck (conn : Fin 4096) (upto : BitVec 32) (sel : List (BitVec 32)) (ce : Bool)
  /-- GCT_RESEND_TIMER (R454). A GCT packet's retransmit timer expires and the packet is resent with a doubled interval. -/
  | gctResendTimer (conn : Fin 4096) (seq : BitVec 32)
  /-- ECN_RECOVERY_TIMER (R450). Every 50 µs a connection's send rate is cut for CE feedback or recovers by 1 % of the port rate. -/
  | ecnRecoveryTimer (conn : Fin 4096)
  /-- KEEPALIVE_TIMER (R455). After 1 ms of idleness a GCT keepalive is sent. -/
  | keepaliveTimer (conn : Fin 4096)
  /-- CONNECTION_LOSS_TIMEOUT (R455). Silence or an unacknowledged packet for LOSS_TIMEOUT declares a GCT connection lost. -/
  | connectionLossTimeout (conn : Fin 4096)
  /-- GCT_CLOSE (R455). A received CLOSE, or an opening with a new epoch, declares the connection lost. -/
  | gctClose (conn : Fin 4096) (newEpoch : Option (BitVec 32))
  /-- GCT_HOLD (R456). A received HOLD extends the connection's loss clocks by the pause duration. -/
  | gctHold (hdr : GctHdr) (ns : Word)
  /-- CONN_WAIT_TIMEOUT (R620). A command held on an OPENING connection reaches TIMEOUT_US and ends as for a CLOSED connection. -/
  | connWaitTimeout (id : CmdId)
  /-- REMOTE_BEAD_REQUEST (R379). The responder applies a received remote bead ADD, WAIT_GE or READ against its bead map. -/
  | remoteBeadRequest (hdr : GctHdr) (req : BitVec 32) (op : BitVec 2) (vid : BitVec 16) (value : Word)
  /-- REMOTE_BEAD_REPLY (R379). An acknowledgement, value or met notification for a remote bead operation arrives and completes the command. -/
  | remoteBeadReply (hdr : GctHdr) (req : BitVec 32) (kind : BeadReply) (value : Word)
  /-- REMOTE_SUSPEND_MESSAGE (R380). A message that starts or ends a remote bead suspension pauses or restarts the waiter's clock. -/
  | remoteSuspendMessage (hdr : GctHdr) (req : BitVec 32) (starts : Bool) (value : Word)
  /-- GCT_READY (R269). A received READY sets its member's bit, adds to the READY bead, or makes a later round current. -/
  | gctReady (hdr : GctHdr) (m : StepMsg)
  /-- GCT_QUERY (R269). A received step-commit query is answered with this member's DECISION and READY bits. -/
  | gctQuery (hdr : GctHdr) (m : StepMsg)
  /-- GCT_PROPOSE (R269). A received proposal is kept in DECISION if it is the first for the round, and is answered. -/
  | gctPropose (hdr : GctHdr) (m : StepMsg)
  /-- GCT_COMMIT_REPLY (R270). Replies to a query or proposal arrive, and a decision held by a quorum is applied. -/
  | gctCommitReply (hdr : GctHdr) (m : StepMsg)
  /-- COMMIT_READY_TIMEOUT (R270). The TIMEOUT_US of a STEP_COMMIT's bitmap wait expires and the query begins. -/
  | commitReadyTimeout (ctx : Fin 16)
  /-- COMMIT_QUERY_TIMEOUT (R270). The 1 ms query or proposal window ends; the member proposes, applies a decision or enters IN_DOUBT. -/
  | commitQueryTimeout (ctx : Fin 16)
  /-- GCT_JOIN (R460). A received JOIN is checked against the local member table for group formation. -/
  | gctJoin (hdr : GctHdr) (group : BitVec 16) (n : BitVec 16) (index : BitVec 16) (max : BitVec 4)
  /-- GCT_LEAVE (R460). A received LEAVE makes the collective group BROKEN. -/
  | gctLeave (hdr : GctHdr) (group : BitVec 16)
  /-- GCT_COLL_SIGNATURE (R463). A member's collective signature arrives and is compared with the local one. -/
  | gctCollSignature (hdr : GctHdr) (group : BitVec 16) (seq : BitVec 32) (sig : CollSig)
  /-- GCT_COLLECTIVE_DATA (R465). Collective data arrives and is combined in the fixed tree or written. -/
  | gctCollectiveData (hdr : GctHdr) (group : BitVec 16) (seq : BitVec 32) (bytes : List Byte) (lost : List Nat) (flags : Byte)
  /-- GCT_TRANSFER_DATA (R467). A received stage transfer is checked, written to the window, and followed by its bead addition. -/
  | gctTransferData (hdr : GctHdr) (req : BitVec 32) (addr : Word) (vid : BitVec 16) (add : BitVec 16) (bytes : List Byte)
  /-- LOAN_GRANT_REQUEST (R468). The lender grants and zeroes a requested loan range, or refuses it. -/
  | loanGrantRequest (hdr : GctHdr) (offsetGib : BitVec 16) (sizeGib : BitVec 16)
  /-- LOAN_GRANT_REPLY (R469). A grant or refusal arrives and the borrower's window becomes BOUND or returns to UNBOUND. -/
  | loanGrantReply (hdr : GctHdr) (w : Fin 16) (granted : Bool) (cause : BitVec 2)
  /-- LOAN_ACCESS_REQUEST (R469). The lender serves a granule access through a bound loan window. -/
  | loanAccessRequest (hdr : GctHdr) (offset : Word) (write : Option (List Byte))
  /-- LENDER_LOAN_STEP (R249). The lender acts on a STEP, COMMIT or FETCH request according to its committed and pending versions. -/
  | lenderLoanStep (hdr : GctHdr) (m : LoanStepMsg)
  /-- LOAN_REPLY (R248). A lender's reply for a group arrives, and the new head and telemetry are written. -/
  | loanReply (hdr : GctHdr) (m : LoanReplyMsg)
  /-- LOAN_STEP_TIMEOUT (R250). TIMEOUT_US of a LOAN_STEP expires before every reply, and the command completes LOAN_LOST. -/
  | loanStepTimeout (id : CmdId)
  /-- COLLECTIVE_TIMEOUT (R466). TIMEOUT_US of a COLLECTIVE, FORM included, expires, and the command completes PEER_LOST with the group broken. -/
  | collectiveTimeout (id : CmdId)
  /-- LIVE_DATAGRAM (R471). A live-frame datagram is accepted into its frame, which is committed to the live queue once complete. -/
  | liveDatagram (lp : Fin 24) (bytes : List Byte)
  /-- LIVE_FRAME_TIMEOUT (R471). A frame still incomplete 10 ms after its first datagram is dropped and counted. -/
  | liveFrameTimeout (stream : Fin 64) (frame : BitVec 32)
  /-- NOP (R588). The NOP command does nothing and completes. -/
  | nop (id : CmdId)
  /-- DMA_COPY (R309). DMA_COPY copies bytes, optionally reducing or compare-swapping into the destination. -/
  | dmaCopy (id : CmdId)
  /-- DMA_SCATTER (R309). DMA_SCATTER writes contiguous source elements to indexed destinations, optionally reducing. -/
  | dmaScatter (id : CmdId)
  /-- DMA_GATHER (R309). DMA_GATHER reads indexed source elements into a contiguous destination. -/
  | dmaGather (id : CmdId)
  /-- GEMM (R95). GEMM runs a matrix product divided over tiles and cores, with its epilogue and block-scaled output. -/
  | gemm (id : CmdId)
  /-- GEMM_GROUPED (R101). GEMM_GROUPED multiplies row ranges of A by per-group B tensors read from the group table. -/
  | gemmGrouped (id : CmdId)
  /-- CONV (R158). CONV runs a forward, input-gradient or weight-gradient convolution through the window streamer. -/
  | conv (id : CmdId)
  /-- POOL (R169). POOL runs MAX, MIN, SUM or AVG pooling on the vector engine. -/
  | pool (id : CmdId)
  /-- VEC (R123). VEC runs element-wise steps, or LSE_MERGE, on the vector engine. -/
  | vec (id : CmdId)
  /-- SCAN (R132). SCAN computes inclusive or exclusive segmented prefix operations. -/
  | scan (id : CmdId)
  /-- REDUCE (R133). REDUCE computes reductions, including DISTILL and TOPK, over rows, columns or segments. -/
  | reduce (id : CmdId)
  /-- CONVERT (R143). CONVERT converts a tensor from one format to another. -/
  | convert (id : CmdId)
  /-- ATTN_FWD (R202). ATTN_FWD computes ragged attention over KV pages found by page-table walks. -/
  | attnFwd (id : CmdId)
  /-- ATTN_BWD (R207). ATTN_BWD recomputes scores and writes dQ, dK and dV by pass. -/
  | attnBwd (id : CmdId)
  /-- KV_WALK_RESTART (R183). The 2 µs or 8 µs delay of a KV walk restart expires and the walk begins again. -/
  | kvWalkRestart (id : CmdId) (seq : BitVec 16)
  /-- KV_APPEND_SCATTER (R190). KV_APPEND_SCATTER moves source rows into KV page slots. -/
  | kvAppendScatter (id : CmdId)
  /-- KV_ALLOC (R198). KV_PAGE_OP ALLOC pops pages from the free stack and maps them. -/
  | kvAlloc (id : CmdId)
  /-- KV_RELEASE (R198). KV_PAGE_OP RELEASE unmaps entries and pushes pages whose count reaches 0. -/
  | kvRelease (id : CmdId)
  /-- KV_SHARE (R198). KV_PAGE_OP SHARE copies entries from a source page table and counts the references. -/
  | kvShare (id : CmdId)
  /-- KV_TREE_LOOKUP (R198). KV_PAGE_OP TREE_LOOKUP maps hashed prefix pages until the first miss. -/
  | kvTreeLookup (id : CmdId)
  /-- KV_TREE_INSERT (R198). KV_PAGE_OP TREE_INSERT enters full pages into the hash buckets. -/
  | kvTreeInsert (id : CmdId)
  /-- KV_TREE_REMOVE (R198). KV_PAGE_OP TREE_REMOVE empties bucket slots and decrements the counts. -/
  | kvTreeRemove (id : CmdId)
  /-- KV_COW_RESOLVE (R194). The pool's owner die bar resolves a KV copy-on-write fault by copying the page. -/
  | kvCowResolve (id : CmdId) (unit : BitVec 32)
  /-- OPT_STEP (R230). OPT_STEP writes version T of head, tail and moments for a range of groups. -/
  | optStep (id : CmdId)
  /-- LOAN_STEP_STEP (R248). LOAN_STEP STEP sends gradients to the lender for it to compute version T. -/
  | loanStepStep (id : CmdId)
  /-- LOAN_STEP_COMMIT (R248). LOAN_STEP COMMIT tells the lender that version T is committed. -/
  | loanStepCommit (id : CmdId)
  /-- LOAN_STEP_FETCH (R248). LOAN_STEP FETCH has the lender write its committed tail and moments back to the borrower. -/
  | loanStepFetch (id : CmdId)
  /-- DIGEST (R241). DIGEST computes group digests and may compare them across COLL_GROUP. -/
  | digest (id : CmdId)
  /-- STATE_EXPORT (R243). STATE_EXPORT writes a working-format stream of group state, with the header written last. -/
  | stateExport (id : CmdId)
  /-- STEP_COMMIT (R270). STEP_COMMIT with OP COMMIT sends READY and waits for the bitmap to run the commit round. -/
  | stepCommit (id : CmdId)
  /-- STEP_COMMIT_RESOLVE (R273). STEP_COMMIT RESOLVE repeats the query and proposal for an IN_DOUBT round. -/
  | stepCommitResolve (id : CmdId)
  /-- STEP_COMMIT_FORCE (R274). STEP_COMMIT FORCE applies a decision without a quorum. -/
  | stepCommitForce (id : CmdId)
  /-- STEP_COMMIT_ABSTAIN (R275). STEP_COMMIT ABSTAIN proposes ABORT without sending READY. -/
  | stepCommitAbstain (id : CmdId)
  /-- COLLECTIVE_ALL_REDUCE (R464). COLLECTIVE ALL_REDUCE reduces a vector across the group. -/
  | collectiveAllReduce (id : CmdId)
  /-- COLLECTIVE_REDUCE_SCATTER (R464). COLLECTIVE REDUCE_SCATTER reduces and leaves each member its share. -/
  | collectiveReduceScatter (id : CmdId)
  /-- COLLECTIVE_ALL_GATHER (R464). COLLECTIVE ALL_GATHER gathers every member's share in member order. -/
  | collectiveAllGather (id : CmdId)
  /-- COLLECTIVE_ALL_TO_ALL (R464). COLLECTIVE ALL_TO_ALL exchanges blocks between all members. -/
  | collectiveAllToAll (id : CmdId)
  /-- COLLECTIVE_BROADCAST (R464). COLLECTIVE BROADCAST copies the root's bytes to every member. -/
  | collectiveBroadcast (id : CmdId)
  /-- COLLECTIVE_TRANSFER (R467). COLLECTIVE TRANSFER sends bytes into a peer's window and then adds to the peer's bead. -/
  | collectiveTransfer (id : CmdId)
  /-- COLLECTIVE_FORM (R460). COLLECTIVE FORM sends JOIN to the members and forms a group with a fixed dialect. -/
  | collectiveForm (id : CmdId)
  /-- COLLECTIVE_DISSOLVE (R460). COLLECTIVE DISSOLVE removes the group locally and sends LEAVE. -/
  | collectiveDissolve (id : CmdId)
  /-- REMOTE_BEAD_ADD (R379). REMOTE_BEAD ADD adds to a bead of another module. -/
  | remoteBeadAdd (id : CmdId)
  /-- REMOTE_BEAD_WAIT_GE (R379). REMOTE_BEAD WAIT_GE waits until a remote bead meets VALUE. -/
  | remoteBeadWaitGe (id : CmdId)
  /-- REMOTE_BEAD_READ (R379). REMOTE_BEAD READ reads a remote bead's value. -/
  | remoteBeadRead (id : CmdId)
  /-- MEDIA_BATCH (R422). MEDIA_BATCH decodes samples from memory into padded batches with masks, voiding or refilling corrupt slots. -/
  | mediaBatch (id : CmdId)
  /-- MEDIA_BATCH_LIVE (R441). MEDIA_BATCH with SOURCE LIVE fills its slots from the live frame queue, with an age check. -/
  | mediaBatchLive (id : CmdId)
  /-- LIVE_WAIT_EXPIRY (R441). LIVE_WAIT expires with the queue empty, and the slot becomes VOID with reason NO_FRAME. -/
  | liveWaitExpiry (id : CmdId)
  /-- SAMPLE_TIMEOUT (R432). A sample runs longer than SAMPLE_TIME_MAX and is corrupt with reason TIMEOUT. -/
  | sampleTimeout (id : CmdId) (slot : BitVec 16)
  /-- KFE_WATCHDOG (R444). A front end fails its watchdog or meets an SRAM error and is reset by the Port Bar. -/
  | kfeWatchdog (k : Fin 4)
  /-- KFE_RESET_DONE (R444). A front-end reset ends and the samples that were in progress run again. -/
  | kfeResetDone (k : Fin 4)
  /-- BEAD_OP_ADD (R373). BEAD_OP ADD adds an amount to a bead. -/
  | beadOpAdd (id : CmdId)
  /-- BEAD_OP_WAIT_GE (R373). BEAD_OP WAIT_GE waits in its own lane until the bead reaches VALUE. -/
  | beadOpWaitGe (id : CmdId)
  /-- BEAD_OP_READ (R373). BEAD_OP READ writes the bead's value to RESULT_ADDR. -/
  | beadOpRead (id : CmdId)
  /-- PEG_SET (R389). PEG_OP SET sets a peg and releases its armed waiters. -/
  | pegSet (id : CmdId)
  /-- PEG_CLEAR (R389). PEG_OP CLEAR clears a peg and releases its armed waiters. -/
  | pegClear (id : CmdId)
  /-- PEG_WAIT_SET (R389). PEG_OP WAIT_SET waits until the peg is set. -/
  | pegWaitSet (id : CmdId)
  /-- PEG_WAIT_CLEAR (R389). PEG_OP WAIT_CLEAR waits until the peg is clear. -/
  | pegWaitClear (id : CmdId)
  /-- BRANCH (R113). BRANCH compares a summary with CONST and redirects fetch when the comparison is true. -/
  | branch (id : CmdId)
  /-- REMAP (R261). REMAP stops fetch on the affected rings and waits for them to drain before rebinding. -/
  | remap (id : CmdId)
  /-- REMAP_DRAIN_END (R261). The affected rings have drained, so caches are invalidated, bindings and view take effect, moves run and fetch resumes. -/
  | remapDrainEnd (id : CmdId)
  /-- QUEUE_PUT (R400). QUEUE_PUT puts one packet from memory into a yo-yo queue. -/
  | queuePut (id : CmdId)
  /-- BRACE_SET (R537). BRACE_SET replaces the issuing context's brace set. -/
  | braceSet (id : CmdId)
  /-- COW_RESOLVE (R337). The die bar resolves a COW fault by copying the page to a new frame, and the unit replays. -/
  | cowResolve (id : CmdId) (unit : BitVec 32)
  /-- LOAN_RESOLVE (R338). A confirmed loan binding validates the entry and the faulting unit replays; a refusal makes the fault fatal. -/
  | loanResolve (id : CmdId) (unit : BitVec 32) (granted : Bool)
  /-- MIGRATE_POLL (R339). Every 10 µs the die bar re-reads a MIGRATING entry, and the unit replays once the entry is valid. -/
  | migratePoll (id : CmdId) (unit : BitVec 32)
  /-- MIGRATE_TIMEOUT (R339). MIGRATE_WAIT expires and the migrate fault becomes fatal. -/
  | migrateTimeout (id : CmdId) (unit : BitVec 32)
  /-- PERST_RELEASE (R478). PERST# is released, and from the later of this and ROM entry PCIe link training begins and configuration space answers within 100 ms. -/
  | perstRelease
  /-- MCTP_MESSAGE (R602). A management-bus MCTP message over SMBus or I3C is taken, the binding is chosen by the first transaction, and a register read is answered or a write refused with an error completion. -/
  | mctpMessage (i3c : Bool) (offset : BitVec 32) (write : Bool)
  /-- SHOCK_BEGIN (R528). An accelerometer sample exceeds 2 g, and a shock event begins whose peak and duration are then tracked. -/
  | shockBegin (magnitude : BitVec 16) (axis : Fin 3)
  /-- DOMAIN_STEP_DOWN_DONE (R503). A domain finishes entering GATED, RETAIN or OFF, for PD(6+4d) after its write-back, and any wake request held for it is then served from the state reached. -/
  | domainStepDownDone (d : Fin 20)
  /-- LOAN_ACCESS_REPLY (R469). The lender's reply to a granule read or write through a bound loan window arrives at the borrower, and the waiting access completes. -/
  | loanAccessReply (hdr : GctHdr) (offset : Word) (data : Option (List Byte))
  /-- LOAN_GRANT_RELEASE (R469). The lender receives the release sent by a borrower's UNBIND, and frees the grant. -/
  | loanGrantRelease (hdr : GctHdr) (offsetGib : BitVec 16)
  /-- FRAME_OUTSIDE_SUBSET (R450). A received frame or packet outside the supported subsets, such as a bad FCS, a fragment or an unsupported protocol, is dropped and counted in DROPPED. -/
  | frameOutsideSubset (lp : Fin 24) (why : FrameFault)
  deriving DecidableEq, Repr

end Sys2Proof
end

