-- ==== Sys2Proof/Config.lean ====
section
/-!
DEFINITION. What the spec leaves open and the model leaves free: opaque constants, so that no proof can see a value.
Each is named in a log entry of notes/assumptions.
-/
namespace Sys2Proof.Config

/-- The free values: the step reads the next one at the counter `State.nfree` (log entry 1). -/
opaque freeValue : Nat → BitVec 64

/-- What the decoder makes of a pattern of symbol errors too heavy to be reported with certainty, by the number of the
free choice and the correction radius (R293): none when it reports the granule, else the bytes that it takes for the
data (log entry 5). -/
opaque heavyPattern : Nat → Nat → Option (List Byte)

/-- The set of a shared cache that holds a line, by the line's number: the index function is the device's own (R304, log
entry 107). -/
opaque cacheSet : Nat → Nat

/-- The size of an erase sector of the NVM devices, which the spec does not state (log entry 7). -/
opaque nvmSectorBytes : Nat

/-- The die whose bar fetches a ring, by context, ring and tile set: the spec does not state it (log entry 8). -/
opaque fetchDie : Nat → Nat → Nat → Fin 4

/-- The X36 code that the lanes give for an operation with an error bound, by operation and operand codes: any value
within the bound (R121, log entry 12). -/
opaque laneResult : Nat → Nat → Nat → BitVec 36

/-- What the header of a coded sample declares, by its codec's own standard (R415, R431): the decoded frames, their
size and components, the channels and the declared length of sound. -/
structure MediaHead where
  parses : Bool
  supported : Bool
  width : Nat
  height : Nat
  comps : Nat
  frames : Nat
  bits : Nat
  channels : Nat
  /-- Sample frames that the header declares. -/
  declared : Option Nat
  /-- Sample frames that the stream decodes to. -/
  length : Nat
  deriving DecidableEq, Repr, Inhabited

/-- The header of a sample by its codec and its bytes (log entry 13: the codecs are standards outside the spec). -/
opaque mediaHead : Nat → List Byte → MediaHead

/-- The reason code for which decoding up to a frame fails: 3, 6 or 7; any other number is none (log entry 13). -/
opaque mediaFault : Nat → List Byte → Nat → Nat

/-- How long a sample takes to decode, in nanoseconds (log entry 13). -/
opaque mediaNs : Nat → List Byte → Nat → Nat

/-- The input byte offset at which a failure is found, by reason (log entry 13). -/
opaque mediaOffset : Nat → Nat → List Byte → BitVec 32

/-- A decoded pixel after colour conversion, as an FP32 code: codec, bytes, CHANNELS, frame, channel, row and column
(log entry 13). -/
opaque mediaPixel : Nat → List Byte → Nat → Nat → Nat → Nat → Nat → BitVec 32

/-- A decoded and resampled sound sample, as an FP32 code: codec, bytes, first and last source sample, rate, channel,
sample; and the number of samples (log entry 13: the filter is not stated). -/
opaque mediaSound : Nat → List Byte → Nat → Nat → Nat → Nat → Nat → BitVec 32
opaque mediaSoundLen : Nat → List Byte → Nat → Nat → Nat → Nat

/-- Which of the front ends that may run a command takes a slot: ring, record count, slot (log entry 14). -/
opaque sampleKfe : Nat → Nat → Nat → Nat

/-- A draw of a front end for a stochastic destination: ring, record count, slot, position (log entry 14). -/
opaque mediaDraw : Nat → Nat → Nat → Nat → BitVec 16

/-- The ML-DSA-44 public key of a seed, a signature by the key of a seed, and the check of a signature under a public key
(FIPS 204, a standard outside the spec; log entry 15). -/
opaque mldsaKey : List Byte → List Byte
opaque mldsaSign : List Byte → List Byte → List Byte
opaque mldsaVerify : List Byte → List Byte → List Byte → Bool

/-- The BCH(255,131) codeword nearest to a word, and the number of bits in which they differ (R542: the code's polynomial
is not stated; log entry 16). -/
opaque bchWord : BitVec 255 → BitVec 255
opaque bchErrors : BitVec 255 → Nat

/-- The SHA3-256 of the root key that the boot ROM mask holds (R548; log entry 17). -/
opaque romRoot : List Byte

/-- The section versions that the firmware knows for a minor schema version: section, version (R487 check 7 states none;
log entry 18). -/
opaque sectionKnown : Nat → Nat → Nat → Bool

/-- A cross-check that fails twice: the free choice of that number (R525 states no occasion; log entry 19). -/
opaque crossFails : Nat → Bool

/-- A mismatch of the two copies of a queue's pointers: the free choice of that number (R407 states no occasion; log
entry 20). -/
opaque ptrMismatch : Nat → Bool

end Sys2Proof.Config
end

