-- ==== Sys2Proof/Machine/Table.lean ====
section
/-!
DEFINITION. Sparse tables: a list of pairs of a key and a value, the keys strictly rising. Every store of the
device that software reaches by a number (memory, registers, rings, queues) is one of these.
-/
namespace Sys2Proof.Machine

/-- A sparse table. An entry that is not listed reads as the default its user names. -/
abbrev Tbl (β : Type) := List (Nat × β)

/-- The value listed for a key. -/
def look {β : Type} : Tbl β → Nat → Option β
  | [], _ => none
  | (a, b) :: t, k => if k = a then some b else look t k

/-- The value for a key, with a default. -/
def lookD {β : Type} (t : Tbl β) (k : Nat) (d : β) : β := (look t k).getD d

/-- The table with a key set; the keys stay in rising order. -/
def put {β : Type} : Tbl β → Nat → β → Tbl β
  | [], k, v => [(k, v)]
  | (a, b) :: t, k, v =>
    if k = a then (k, v) :: t
    else if k < a then (k, v) :: (a, b) :: t
    else (a, b) :: put t k v

/-- The table without a key. -/
def del {β : Type} (t : Tbl β) (k : Nat) : Tbl β := t.filter (fun e => e.1 != k)

/-- The keys are strictly rising. -/
def rising {β : Type} : Tbl β → Bool
  | [] => true
  | [_] => true
  | (a, _) :: (b, y) :: t => decide (a < b) && rising ((b, y) :: t)

/-- Memory: bytes by address; an unlisted byte reads as zero (R313: a cold start fills the memory with zeros). -/
abbrev Mem := List Host.Cell

/-- One byte of memory. -/
def Mem.read (m : Mem) (a : Nat) : Byte := lookD m a 0

/-- Memory with one byte written. Writing zero removes the entry, so equal memories are equal lists. -/
def Mem.write (m : Mem) (a : Nat) (b : Byte) : Mem := if b = 0 then del m a else put m a b

/-- The canonical form: rising addresses and no listed zero. -/
def Mem.wf (m : Mem) : Bool := rising m && m.all (fun e => e.2 != 0)

/-- The `n` bytes from address `a`. -/
def Mem.readN (m : Mem) (a : Nat) : Nat → List Byte
  | 0 => []
  | n + 1 => m.read a :: m.readN (a + 1) n

/-- Memory with consecutive bytes written from address `a`. -/
def Mem.writeN (m : Mem) (a : Nat) : List Byte → Mem
  | [] => m
  | b :: bs => (m.write a b).writeN (a + 1) bs

end Sys2Proof.Machine
end

