-- ==== Sys2Proof/Machine/Bits.lean ====
section
/-!
DEFINITION. Bit fields, byte order (R10: little-endian) and the two cyclic redundancy codes the manual names
(CRC-32C of R581, CRC-64/XZ of R240).
-/
namespace Sys2Proof.Machine

/-- The `w` bits of `x` from bit `lo` up. -/
def bitsOf (x lo w : Nat) : Nat := (x >>> lo) % 2 ^ w

/-- `x` with the `w` bits from bit `lo` replaced by the low bits of `v`. -/
def setBits (x lo w v : Nat) : Nat := x - (bitsOf x lo w) <<< lo + (v % 2 ^ w) <<< lo

/-- One bit as a truth value. -/
def bit (x i : Nat) : Bool := x.testBit i

/-- A truth value as a bit. -/
def b2n (b : Bool) : Nat := if b then 1 else 0

/-- The number that a run of bytes holds, the first byte least significant (R10). -/
def leNat : List Byte → Nat
  | [] => 0
  | b :: bs => b.toNat + 256 * leNat bs

/-- `k` bytes of a number, least significant first (R10). -/
def natLE : Nat → Nat → List Byte
  | 0, _ => []
  | k + 1, x => BitVec.ofNat 8 x :: natLE k (x / 256)

/-- The bytes from offset `off`, `n` of them; bytes past the end read as zero. -/
def slice (bs : List Byte) (off n : Nat) : List Byte :=
  let t := (bs.drop off).take n
  t ++ List.replicate (n - t.length) 0

/-- A field of a descriptor or record: `w` bits from bit `lo` of the bytes at offset `off`. -/
def fieldAt (bs : List Byte) (off lo w : Nat) : Nat := bitsOf (leNat ((bs.drop off).take ((lo + w + 7) / 8))) lo w

/-- A number read as two's complement of `w` bits. -/
def signed (w x : Nat) : Int := (BitVec.ofNat w x).toInt

/-- `⌈a / b⌉`. -/
def ceilDiv (a b : Nat) : Nat := (a + b - 1) / b

/-- `x` rounded up to a multiple of `m`. -/
def roundUp (x m : Nat) : Nat := ceilDiv x m * m

/-- One bit of a reflected cyclic redundancy code. -/
def crcBit (poly c : Nat) : Nat := if c % 2 = 1 then (c / 2) ^^^ poly else c / 2

/-- One byte of a reflected cyclic redundancy code. -/
def crcByte (poly c : Nat) (b : Byte) : Nat :=
  let p := crcBit poly
  p (p (p (p (p (p (p (p (c ^^^ b.toNat))))))))

/-- CRC-32C (Castagnoli, reflected, initial value and final XOR all ones), R581. -/
def crc32c (bs : List Byte) : Nat := bs.foldl (crcByte 0x82F63B78) 0xFFFFFFFF ^^^ 0xFFFFFFFF

/-- CRC-64/XZ (reflected, initial value and final XOR all ones), R240. -/
def crc64xz (bs : List Byte) : Nat :=
  bs.foldl (crcByte 0xC96C5795D7870F42) 0xFFFFFFFFFFFFFFFF ^^^ 0xFFFFFFFFFFFFFFFF

/-- The largest value a field of `w` bits holds. -/
def maxOf (w : Nat) : Nat := 2 ^ w - 1

/-- Addition that stops at the largest value of `w` bits. -/
def satAdd (w a b : Nat) : Nat := min (a + b) (maxOf w)

/-- The positions of the set bits of `x` below `n`, in ascending order. -/
def bitList (x n : Nat) : List Nat := (List.range n).filter (fun i => x.testBit i)

end Sys2Proof.Machine
end

