-- ==== Sys2Proof/Machine/Regs.lean ====
section
/-!
DEFINITION. The device's registers, transcribed from the register tables of the spec's chapters: one number per
register (an indexed register has one number and an index), one `Fld` per field with its place, its access code
(R12) and its reset value. A field whose table gives no number for reset ("per variant", "from configuration",
"per start", "from repair records") stands at 0 here, or at the table's default; the start sequence loads it
(log entry 3). Reserved bits are not fields: they read as zero (R11).
-/
namespace Sys2Proof.Machine

/-- The access codes of R12. -/
inductive Access where
  | ro | rw | rw1c | rwl | wo | rc | rs
  deriving DecidableEq, Repr

/-- One field of a register: the register's number, the lowest bit, the width, the access code of R12 and the
value at reset. -/
structure Fld where
  reg : Nat
  lo : Nat
  width : Nat
  acc : Access
  reset : Nat
  deriving DecidableEq, Repr

/-! The registers' numbers. -/

/-- HUB_CAP_UNITS (R3). -/
abbrev Reg.hubCapUnits : Nat := 0
/-- HUB_CAP_TILES (R5). -/
abbrev Reg.hubCapTiles : Nat := 1
/-- CTX_FLAGS (R72). -/
abbrev Reg.ctxFlags : Nat := 2
/-- CTX_FLAG_NOTICE (R73). -/
abbrev Reg.ctxFlagNotice : Nat := 3
/-- TIL_SRNG_SEED (R75). -/
abbrev Reg.tilSrngSeed : Nat := 4
/-- CTX_KV_CFG (R210). -/
abbrev Reg.ctxKvCfg : Nat := 5
/-- CTX_KV_COUNTS (R211). -/
abbrev Reg.ctxKvCounts : Nat := 6
/-- CTX_PGROUP (R214). -/
abbrev Reg.ctxPgroup : Nat := 7
/-- CTX_VERSION (R221). -/
abbrev Reg.ctxVersion : Nat := 8
/-- CTX_TRAIN_COUNTS (R253). -/
abbrev Reg.ctxTrainCounts : Nat := 9
/-- CTX_STEP_CFG (R277). -/
abbrev Reg.ctxStepCfg : Nat := 10
/-- CTX_STEP_REC (R278). -/
abbrev Reg.ctxStepRec : Nat := 11
/-- CTX_STEP_STATE (R279). -/
abbrev Reg.ctxStepState : Nat := 12
/-- MEM_REGION_CFG (R316). -/
abbrev Reg.memRegionCfg : Nat := 13
/-- MEM_RESERVE (R317). -/
abbrev Reg.memReserve : Nat := 14
/-- MEM_HOST_BASE (R318). -/
abbrev Reg.memHostBase : Nat := 15
/-- MEM_STACK_STATUS (R319). -/
abbrev Reg.memStackStatus : Nat := 16
/-- MEM_CH_RETIRED_LO (R320). -/
abbrev Reg.memChRetiredLo : Nat := 17
/-- MEM_CH_RETIRED_HI (R320). -/
abbrev Reg.memChRetiredHi : Nat := 18
/-- MEM_ECC_COUNT (R321). -/
abbrev Reg.memEccCount : Nat := 19
/-- MEM_ERR_LOG (R322). -/
abbrev Reg.memErrLog : Nat := 20
/-- CTX_MMU_ROOT (R351). -/
abbrev Reg.ctxMmuRoot : Nat := 21
/-- CTX_SCHED (R352). -/
abbrev Reg.ctxSched : Nat := 22
/-- CTX_CTRL (R353). -/
abbrev Reg.ctxCtrl : Nat := 23
/-- CTX_STATE (R354). -/
abbrev Reg.ctxState : Nat := 24
/-- CTX_INVAL (R355). -/
abbrev Reg.ctxInval : Nat := 25
/-- CTX_SAVE (R356). -/
abbrev Reg.ctxSave : Nat := 26
/-- CTX_FRAME_POOL (R357). -/
abbrev Reg.ctxFramePool : Nat := 27
/-- CTX_FAULT_CFG (R358). -/
abbrev Reg.ctxFaultCfg : Nat := 28
/-- CTX_FAULT_LOG (R359). -/
abbrev Reg.ctxFaultLog : Nat := 29
/-- CTX_FAULT_COUNTS (R360). -/
abbrev Reg.ctxFaultCounts : Nat := 30
/-- BEAD_ATTR (R390). -/
abbrev Reg.beadAttr : Nat := 31
/-- BEAD_VALUE (R390). -/
abbrev Reg.beadValue : Nat := 32
/-- CTX_BEAD_MAP (R391). -/
abbrev Reg.ctxBeadMap : Nat := 33
/-- CTX_BEAD_CFG (R391). -/
abbrev Reg.ctxBeadCfg : Nat := 34
/-- CTX_BEAD_ADD (R391). -/
abbrev Reg.ctxBeadAdd : Nat := 35
/-- CTX_BEAD_LOG (R391). -/
abbrev Reg.ctxBeadLog : Nat := 36
/-- CTX_BEAD_SEEN (R391). -/
abbrev Reg.ctxBeadSeen : Nat := 37
/-- CTX_PEG (R391). -/
abbrev Reg.ctxPeg : Nat := 38
/-- QUE_CFG (R411). -/
abbrev Reg.queCfg : Nat := 39
/-- QUE_NOTIFY (R411). -/
abbrev Reg.queNotify : Nat := 40
/-- QUE_STATUS (R411). -/
abbrev Reg.queStatus : Nat := 41
/-- QUE_HEAD_PKT (R411). -/
abbrev Reg.queHeadPkt : Nat := 42
/-- QUE_ENTRY (R411). -/
abbrev Reg.queEntry : Nat := 43
/-- QUE_LOST (R411). -/
abbrev Reg.queLost : Nat := 44
/-- QUE_CTRL (R411). -/
abbrev Reg.queCtrl : Nat := 45
/-- KFE_STATUS (R445). -/
abbrev Reg.kfeStatus : Nat := 46
/-- KFE_LIMITS (R445). -/
abbrev Reg.kfeLimits : Nat := 47
/-- KFE_COUNTS (R445). -/
abbrev Reg.kfeCounts : Nat := 48
/-- KFE_LIVE_CFG (R445). -/
abbrev Reg.kfeLiveCfg : Nat := 49
/-- KFE_LIVE_BUF (R445). -/
abbrev Reg.kfeLiveBuf : Nat := 50
/-- KFE_LIVE_COUNT (R445). -/
abbrev Reg.kfeLiveCount : Nat := 51
/-- NET_PORT_CFG (R472). -/
abbrev Reg.netPortCfg : Nat := 52
/-- NET_PORT_STATUS (R472). -/
abbrev Reg.netPortStatus : Nat := 53
/-- NET_FABRIC_CFG (R472). -/
abbrev Reg.netFabricCfg : Nat := 54
/-- NET_CONN_TABLE (R472). -/
abbrev Reg.netConnTable : Nat := 55
/-- NET_CONN_CTRL (R472). -/
abbrev Reg.netConnCtrl : Nat := 56
/-- NET_VER_CEILING (R472). -/
abbrev Reg.netVerCeiling : Nat := 57
/-- NET_LOAN_WIN (R472). -/
abbrev Reg.netLoanWin : Nat := 58
/-- NET_LEND_CFG (R472). -/
abbrev Reg.netLendCfg : Nat := 59
/-- NET_PTP_STATUS (R472). -/
abbrev Reg.netPtpStatus : Nat := 60
/-- HUB_STATE (R474). -/
abbrev Reg.hubState : Nat := 61
/-- HUB_CFG_DIAG (R489). -/
abbrev Reg.hubCfgDiag : Nat := 62
/-- PWR_DOM_STATUS (R515). -/
abbrev Reg.pwrDomStatus : Nat := 63
/-- PWR_IDLE (R515). -/
abbrev Reg.pwrIdle : Nat := 64
/-- PWR_CAP (R515). -/
abbrev Reg.pwrCap : Nat := 65
/-- PWR_PARK (R515). -/
abbrev Reg.pwrPark : Nat := 66
/-- PWR_READING (R515). -/
abbrev Reg.pwrReading : Nat := 67
/-- PWR_ENERGY (R515). -/
abbrev Reg.pwrEnergy : Nat := 68
/-- PWR_TEMP (R515). -/
abbrev Reg.pwrTemp : Nat := 69
/-- MGT_DEGRADED (R540). -/
abbrev Reg.mgtDegraded : Nat := 70
/-- MGT_CORES (R540). -/
abbrev Reg.mgtCores : Nat := 71
/-- MGT_BRACE_CFG (R540). -/
abbrev Reg.mgtBraceCfg : Nat := 72
/-- MGT_BRACE_STATUS (R540). -/
abbrev Reg.mgtBraceStatus : Nat := 73
/-- MGT_LIFE_STATUS (R540). -/
abbrev Reg.mgtLifeStatus : Nat := 74
/-- MGT_SHOCK (R540). -/
abbrev Reg.mgtShock : Nat := 75
/-- MGT_AVAIL (R540). -/
abbrev Reg.mgtAvail : Nat := 76
/-- SEC_ID_STATUS (R566). -/
abbrev Reg.secIdStatus : Nat := 77
/-- SEC_DEVICE_ID (R566). -/
abbrev Reg.secDeviceId : Nat := 78
/-- SEC_FW_RUNNING (R566). -/
abbrev Reg.secFwRunning : Nat := 79
/-- SEC_FW_STAGED (R566). -/
abbrev Reg.secFwStaged : Nat := 80
/-- SEC_ACT_TIME (R566). -/
abbrev Reg.secActTime : Nat := 81
/-- SEC_ACT_STATUS (R566). -/
abbrev Reg.secActStatus : Nat := 82
/-- HUB_HEALTH (R574). -/
abbrev Reg.hubHealth : Nat := 83
/-- HUB_TIME (R574). -/
abbrev Reg.hubTime : Nat := 84
/-- HUB_WINDOW (R574). -/
abbrev Reg.hubWindow : Nat := 85
/-- HUB_LINK (R574). -/
abbrev Reg.hubLink : Nat := 86
/-- HUB_MBOX_CMD (R576). -/
abbrev Reg.hubMboxCmd : Nat := 87
/-- HUB_MBOX_STATUS (R576). -/
abbrev Reg.hubMboxStatus : Nat := 88
/-- HUB_MBOX_ARG (R576). -/
abbrev Reg.hubMboxArg : Nat := 89
/-- CTX_RING_BASE (R579). -/
abbrev Reg.ctxRingBase : Nat := 90
/-- CTX_RING_CFG (R579). -/
abbrev Reg.ctxRingCfg : Nat := 91
/-- CTX_RING_TILES (R579). -/
abbrev Reg.ctxRingTiles : Nat := 92
/-- CTX_RING_STATUS (R579). -/
abbrev Reg.ctxRingStatus : Nat := 93
/-- CTX_RING_CTRL (R579). -/
abbrev Reg.ctxRingCtrl : Nat := 94
/-- MGT_MODULE (R616). -/
abbrev Reg.mgtModule : Nat := 95
/-- MGT_PPS (R616). -/
abbrev Reg.mgtPps : Nat := 96

/-! Fields of HUB_CAP_UNITS (R3). -/
abbrev F.hubCapUnits_DIES : Fld := ⟨0, 0, 4, .ro, 0⟩
abbrev F.hubCapUnits_STACKS : Fld := ⟨0, 4, 20, .ro, 0⟩
abbrev F.hubCapUnits_KFE : Fld := ⟨0, 24, 4, .ro, 0⟩
abbrev F.hubCapUnits_PORTS : Fld := ⟨0, 28, 12, .ro, 0⟩
abbrev F.hubCapUnits_VARIANT : Fld := ⟨0, 40, 8, .ro, 0⟩
/-! Fields of HUB_CAP_TILES (R5). -/
abbrev F.hubCapTiles_PRESENT : Fld := ⟨1, 0, 48, .ro, 281474976710655⟩
/-! Fields of CTX_FLAGS (R72). -/
abbrev F.ctxFlags_FLAGS : Fld := ⟨2, 0, 8, .rw1c, 0⟩
/-! Fields of CTX_FLAG_NOTICE (R73). -/
abbrev F.ctxFlagNotice_ENABLE : Fld := ⟨3, 0, 8, .rw, 0⟩
/-! Fields of TIL_SRNG_SEED (R75). -/
abbrev F.tilSrngSeed_STATE : Fld := ⟨4, 0, 64, .rw, 0⟩
/-! Fields of CTX_KV_CFG (R210). -/
abbrev F.ctxKvCfg_MODE : Fld := ⟨5, 0, 2, .ro, 0⟩
/-! Fields of CTX_KV_COUNTS (R211). -/
abbrev F.ctxKvCounts_WALK_RESTARTS : Fld := ⟨6, 0, 16, .rc, 0⟩
abbrev F.ctxKvCounts_UNSTABLE : Fld := ⟨6, 16, 16, .rc, 0⟩
abbrev F.ctxKvCounts_COW : Fld := ⟨6, 32, 16, .rc, 0⟩
abbrev F.ctxKvCounts_COLLISIONS : Fld := ⟨6, 48, 16, .rc, 0⟩
/-! Fields of CTX_PGROUP (R214). -/
abbrev F.ctxPgroup_TABLE_ADDR : Fld := ⟨7, 0, 52, .rw, 0⟩
abbrev F.ctxPgroup_LAST : Fld := ⟨7, 52, 12, .rw, 0⟩
/-! Fields of CTX_VERSION (R221). -/
abbrev F.ctxVersion_CURRENT : Fld := ⟨8, 0, 64, .rs, 0⟩
/-! Fields of CTX_TRAIN_COUNTS (R253). -/
abbrev F.ctxTrainCounts_TAIL_SAT : Fld := ⟨9, 0, 16, .rc, 0⟩
abbrev F.ctxTrainCounts_NONFINITE : Fld := ⟨9, 16, 16, .rc, 0⟩
abbrev F.ctxTrainCounts_RATIO : Fld := ⟨9, 32, 16, .rc, 0⟩
abbrev F.ctxTrainCounts_DIGEST : Fld := ⟨9, 48, 16, .rc, 0⟩
/-! Fields of CTX_STEP_CFG (R277). -/
abbrev F.ctxStepCfg_READY_BEAD : Fld := ⟨10, 0, 14, .rw, 0⟩
abbrev F.ctxStepCfg_COLL_GROUP : Fld := ⟨10, 16, 16, .rw, 0⟩
abbrev F.ctxStepCfg_MEMBER : Fld := ⟨10, 32, 10, .ro, 0⟩
/-! Fields of CTX_STEP_REC (R278). -/
abbrev F.ctxStepRec_RECORD_ADDR : Fld := ⟨11, 0, 52, .rw, 0⟩
/-! Fields of CTX_STEP_STATE (R279). -/
abbrev F.ctxStepState_STATE : Fld := ⟨12, 0, 2, .ro, 0⟩
abbrev F.ctxStepState_ATTEMPT : Fld := ⟨12, 16, 16, .ro, 0⟩
abbrev F.ctxStepState_TARGET : Fld := ⟨12, 32, 32, .ro, 0⟩
/-! Fields of MEM_REGION_CFG (R316). -/
abbrev F.memRegionCfg_VALID : Fld := ⟨13, 0, 1, .rwl, 0⟩
abbrev F.memRegionCfg_MODE : Fld := ⟨13, 1, 3, .rwl, 0⟩
abbrev F.memRegionCfg_RADIUS : Fld := ⟨13, 4, 3, .rwl, 0⟩
abbrev F.memRegionCfg_BASE : Fld := ⟨13, 16, 16, .rwl, 0⟩
abbrev F.memRegionCfg_SHARE : Fld := ⟨13, 32, 16, .rwl, 0⟩
abbrev F.memRegionCfg_STACK_BASE : Fld := ⟨13, 48, 16, .rwl, 0⟩
/-! Fields of MEM_RESERVE (R317). -/
abbrev F.memReserve_PER_STACK : Fld := ⟨14, 0, 16, .rwl, 2⟩
abbrev F.memReserve_SLOTS_D0 : Fld := ⟨14, 16, 8, .ro, 0⟩
abbrev F.memReserve_SLOTS_D1 : Fld := ⟨14, 24, 8, .ro, 0⟩
abbrev F.memReserve_SLOTS_D2 : Fld := ⟨14, 32, 8, .ro, 0⟩
abbrev F.memReserve_SLOTS_D3 : Fld := ⟨14, 40, 8, .ro, 0⟩
/-! Fields of MEM_HOST_BASE (R318). -/
abbrev F.memHostBase_BASE : Fld := ⟨15, 12, 52, .rw, 0⟩
/-! Fields of MEM_STACK_STATUS (R319). -/
abbrev F.memStackStatus_POPULATED : Fld := ⟨16, 0, 1, .ro, 0⟩
abbrev F.memStackStatus_IN_SERVICE : Fld := ⟨16, 1, 1, .ro, 0⟩
abbrev F.memStackStatus_SELF_REFRESH : Fld := ⟨16, 2, 1, .ro, 0⟩
abbrev F.memStackStatus_SPARES_G0 : Fld := ⟨16, 4, 3, .ro, 0⟩
abbrev F.memStackStatus_SPARES_G1 : Fld := ⟨16, 7, 3, .ro, 0⟩
abbrev F.memStackStatus_SPARES_G2 : Fld := ⟨16, 10, 3, .ro, 0⟩
abbrev F.memStackStatus_SPARES_G3 : Fld := ⟨16, 13, 3, .ro, 0⟩
abbrev F.memStackStatus_RETIRED : Fld := ⟨16, 16, 8, .ro, 0⟩
abbrev F.memStackStatus_LOST : Fld := ⟨16, 24, 8, .ro, 0⟩
/-! Fields of MEM_CH_RETIRED_LO (R320). -/
abbrev F.memChRetiredLo_OUT : Fld := ⟨17, 0, 64, .ro, 0⟩
/-! Fields of MEM_CH_RETIRED_HI (R320). -/
abbrev F.memChRetiredHi_OUT : Fld := ⟨18, 0, 64, .ro, 0⟩
/-! Fields of MEM_ECC_COUNT (R321). -/
abbrev F.memEccCount_CORRECTED : Fld := ⟨19, 0, 32, .rc, 0⟩
abbrev F.memEccCount_INNER : Fld := ⟨19, 32, 16, .rc, 0⟩
abbrev F.memEccCount_UNCORRECTABLE : Fld := ⟨19, 48, 16, .rc, 0⟩
/-! Fields of MEM_ERR_LOG (R322). -/
abbrev F.memErrLog_PHYS_ADDR : Fld := ⟨20, 0, 48, .ro, 0⟩
abbrev F.memErrLog_STACK : Fld := ⟨20, 48, 5, .ro, 0⟩
abbrev F.memErrLog_CHANNEL : Fld := ⟨20, 53, 7, .ro, 0⟩
abbrev F.memErrLog_POISON : Fld := ⟨20, 60, 1, .ro, 0⟩
abbrev F.memErrLog_SRAM : Fld := ⟨20, 61, 1, .ro, 0⟩
abbrev F.memErrLog_VALID : Fld := ⟨20, 63, 1, .rw1c, 0⟩
/-! Fields of CTX_MMU_ROOT (R351). -/
abbrev F.ctxMmuRoot_VALID : Fld := ⟨21, 0, 1, .rw, 0⟩
abbrev F.ctxMmuRoot_TABLE : Fld := ⟨21, 12, 36, .rw, 0⟩
/-! Fields of CTX_SCHED (R352). -/
abbrev F.ctxSched_PRIO : Fld := ⟨22, 0, 3, .rw, 0⟩
abbrev F.ctxSched_PREEMPTIBLE : Fld := ⟨22, 3, 1, .rw, 1⟩
/-! Fields of CTX_CTRL (R353). -/
abbrev F.ctxCtrl_PREEMPT : Fld := ⟨23, 0, 1, .wo, 0⟩
abbrev F.ctxCtrl_MODE : Fld := ⟨23, 1, 1, .wo, 0⟩
abbrev F.ctxCtrl_RESUME : Fld := ⟨23, 2, 1, .wo, 0⟩
/-! Fields of CTX_STATE (R354). -/
abbrev F.ctxState_STATE : Fld := ⟨24, 0, 3, .ro, 0⟩
abbrev F.ctxState_INVAL_BUSY : Fld := ⟨24, 3, 1, .ro, 0⟩
abbrev F.ctxState_STALLED : Fld := ⟨24, 16, 16, .ro, 0⟩
/-! Fields of CTX_INVAL (R355). -/
abbrev F.ctxInval_VPN : Fld := ⟨25, 0, 36, .wo, 0⟩
abbrev F.ctxInval_COUNT : Fld := ⟨25, 36, 20, .wo, 0⟩
abbrev F.ctxInval_GO : Fld := ⟨25, 63, 1, .wo, 0⟩
/-! Fields of CTX_SAVE (R356). -/
abbrev F.ctxSave_BASE : Fld := ⟨26, 16, 32, .rw, 0⟩
abbrev F.ctxSave_SIZE : Fld := ⟨26, 48, 8, .rw, 16⟩
/-! Fields of CTX_FRAME_POOL (R357). -/
abbrev F.ctxFramePool_ADDR : Fld := ⟨27, 0, 52, .rw, 0⟩
/-! Fields of CTX_FAULT_CFG (R358). -/
abbrev F.ctxFaultCfg_MIGRATE_WAIT : Fld := ⟨28, 0, 16, .rw, 10⟩
/-! Fields of CTX_FAULT_LOG (R359). -/
abbrev F.ctxFaultLog_VA : Fld := ⟨29, 0, 52, .ro, 0⟩
abbrev F.ctxFaultLog_WRITE : Fld := ⟨29, 52, 1, .ro, 0⟩
abbrev F.ctxFaultLog_CAUSE : Fld := ⟨29, 53, 5, .ro, 0⟩
abbrev F.ctxFaultLog_VALID : Fld := ⟨29, 63, 1, .rw1c, 0⟩
/-! Fields of CTX_FAULT_COUNTS (R360). -/
abbrev F.ctxFaultCounts_COW : Fld := ⟨30, 0, 16, .rc, 0⟩
abbrev F.ctxFaultCounts_LOAN : Fld := ⟨30, 16, 16, .rc, 0⟩
abbrev F.ctxFaultCounts_MIGRATE : Fld := ⟨30, 32, 16, .rc, 0⟩
abbrev F.ctxFaultCounts_FATAL : Fld := ⟨30, 48, 16, .rc, 0⟩
/-! Fields of BEAD_ATTR (R390). -/
abbrev F.beadAttr_STATE : Fld := ⟨31, 0, 2, .rw, 0⟩
abbrev F.beadAttr_OWNER : Fld := ⟨31, 2, 4, .rw, 0⟩
abbrev F.beadAttr_PAIRED : Fld := ⟨31, 6, 1, .rw, 0⟩
abbrev F.beadAttr_SIDE : Fld := ⟨31, 7, 1, .rw, 0⟩
abbrev F.beadAttr_PARTNER : Fld := ⟨31, 8, 16, .rw, 0⟩
abbrev F.beadAttr_CAPACITY : Fld := ⟨31, 24, 24, .rw, 0⟩
abbrev F.beadAttr_PAIR_OK : Fld := ⟨31, 48, 1, .ro, 0⟩
abbrev F.beadAttr_WAITERS : Fld := ⟨31, 56, 8, .ro, 0⟩
/-! Fields of BEAD_VALUE (R390). -/
abbrev F.beadValue_VALUE : Fld := ⟨32, 0, 64, .rw, 0⟩
/-! Fields of CTX_BEAD_MAP (R391). -/
abbrev F.ctxBeadMap_VALID : Fld := ⟨33, 0, 1, .rw, 0⟩
abbrev F.ctxBeadMap_ADDR : Fld := ⟨33, 12, 36, .rw, 0⟩
/-! Fields of CTX_BEAD_CFG (R391). -/
abbrev F.ctxBeadCfg_DEFAULT_TIMEOUT : Fld := ⟨34, 0, 32, .rw, 2000000⟩
abbrev F.ctxBeadCfg_STOP_ON_TIMEOUT : Fld := ⟨34, 32, 1, .rw, 1⟩
/-! Fields of CTX_BEAD_ADD (R391). -/
abbrev F.ctxBeadAdd_VID : Fld := ⟨35, 0, 14, .wo, 0⟩
abbrev F.ctxBeadAdd_AMOUNT : Fld := ⟨35, 16, 48, .wo, 0⟩
/-! Fields of CTX_BEAD_LOG (R391). -/
abbrev F.ctxBeadLog_VID : Fld := ⟨36, 0, 14, .ro, 0⟩
abbrev F.ctxBeadLog_WAIT : Fld := ⟨36, 14, 2, .ro, 0⟩
abbrev F.ctxBeadLog_PHYS : Fld := ⟨36, 16, 16, .ro, 0⟩
abbrev F.ctxBeadLog_RING : Fld := ⟨36, 32, 6, .ro, 0⟩
abbrev F.ctxBeadLog_INDEX : Fld := ⟨36, 38, 16, .ro, 0⟩
abbrev F.ctxBeadLog_VALID : Fld := ⟨36, 63, 1, .rw1c, 0⟩
/-! Fields of CTX_BEAD_SEEN (R391). -/
abbrev F.ctxBeadSeen_VALUE : Fld := ⟨37, 0, 64, .ro, 0⟩
/-! Fields of CTX_PEG (R391). -/
abbrev F.ctxPeg_PEGS : Fld := ⟨38, 0, 64, .ro, 0⟩
/-! Fields of QUE_CFG (R411). -/
abbrev F.queCfg_ENABLE : Fld := ⟨39, 0, 1, .rw, 0⟩
abbrev F.queCfg_VF_VISIBLE : Fld := ⟨39, 1, 1, .rw, 0⟩
abbrev F.queCfg_CTX : Fld := ⟨39, 2, 4, .rw, 0⟩
abbrev F.queCfg_PUT_EN : Fld := ⟨39, 6, 1, .rw, 0⟩
abbrev F.queCfg_RING_LOG2 : Fld := ⟨39, 7, 5, .rw, 16⟩
abbrev F.queCfg_RING_BASE : Fld := ⟨39, 16, 32, .rw, 0⟩
/-! Fields of QUE_NOTIFY (R411). -/
abbrev F.queNotify_MODE : Fld := ⟨40, 0, 2, .rw, 0⟩
abbrev F.queNotify_VECTOR : Fld := ⟨40, 2, 11, .rw, 0⟩
abbrev F.queNotify_DB_ADDR : Fld := ⟨40, 16, 48, .rw, 0⟩
/-! Fields of QUE_STATUS (R411). -/
abbrev F.queStatus_ENTRIES : Fld := ⟨41, 0, 24, .ro, 0⟩
abbrev F.queStatus_PACKETS : Fld := ⟨41, 24, 24, .ro, 0⟩
abbrev F.queStatus_LEVELS : Fld := ⟨41, 48, 4, .ro, 0⟩
abbrev F.queStatus_READING : Fld := ⟨41, 52, 1, .ro, 0⟩
abbrev F.queStatus_TAIL_HELD : Fld := ⟨41, 53, 1, .ro, 0⟩
/-! Fields of QUE_HEAD_PKT (R411). -/
abbrev F.queHeadPkt_LENGTH : Fld := ⟨42, 0, 7, .ro, 0⟩
abbrev F.queHeadPkt_PRIO : Fld := ⟨42, 7, 2, .ro, 0⟩
abbrev F.queHeadPkt_NEXT : Fld := ⟨42, 9, 7, .ro, 0⟩
abbrev F.queHeadPkt_SEQ : Fld := ⟨42, 16, 32, .ro, 0⟩
/-! Fields of QUE_ENTRY (R411). -/
/-! Fields of QUE_LOST (R411). -/
abbrev F.queLost_ENTRIES : Fld := ⟨44, 0, 32, .rc, 0⟩
abbrev F.queLost_PACKETS : Fld := ⟨44, 32, 16, .rc, 0⟩
abbrev F.queLost_RESETS : Fld := ⟨44, 48, 8, .rc, 0⟩
abbrev F.queLost_REWOUND : Fld := ⟨44, 56, 8, .rc, 0⟩
/-! Fields of QUE_CTRL (R411). -/
abbrev F.queCtrl_FLUSH : Fld := ⟨45, 0, 1, .wo, 0⟩
abbrev F.queCtrl_SKIP : Fld := ⟨45, 1, 1, .wo, 0⟩
/-! Fields of KFE_STATUS (R445). -/
abbrev F.kfeStatus_PRESENT : Fld := ⟨46, 0, 1, .ro, 0⟩
abbrev F.kfeStatus_UP : Fld := ⟨46, 1, 1, .ro, 0⟩
abbrev F.kfeStatus_BUSY : Fld := ⟨46, 2, 1, .ro, 0⟩
abbrev F.kfeStatus_TABLE_VALID : Fld := ⟨46, 3, 1, .ro, 0⟩
abbrev F.kfeStatus_UCODE_VER : Fld := ⟨46, 16, 16, .ro, 0⟩
abbrev F.kfeStatus_RESETS : Fld := ⟨46, 32, 16, .ro, 0⟩
/-! Fields of KFE_LIMITS (R445). -/
abbrev F.kfeLimits_EXPANSION_MAX : Fld := ⟨47, 0, 16, .rwl, 2000⟩
abbrev F.kfeLimits_PIXEL_BUDGET : Fld := ⟨47, 16, 16, .rwl, 256⟩
abbrev F.kfeLimits_SAMPLE_TIME_MAX : Fld := ⟨47, 32, 16, .rwl, 200⟩
/-! Fields of KFE_COUNTS (R445). -/
abbrev F.kfeCounts_SAMPLES : Fld := ⟨48, 0, 32, .rc, 0⟩
abbrev F.kfeCounts_CORRUPT : Fld := ⟨48, 32, 16, .rc, 0⟩
abbrev F.kfeCounts_STALE : Fld := ⟨48, 48, 16, .rc, 0⟩
/-! Fields of KFE_LIVE_CFG (R445). -/
abbrev F.kfeLiveCfg_ENABLE : Fld := ⟨49, 0, 1, .rwl, 0⟩
abbrev F.kfeLiveCfg_CTX : Fld := ⟨49, 1, 4, .rwl, 0⟩
abbrev F.kfeLiveCfg_QUEUE : Fld := ⟨49, 5, 8, .rwl, 0⟩
abbrev F.kfeLiveCfg_PRIO : Fld := ⟨49, 13, 2, .rwl, 0⟩
abbrev F.kfeLiveCfg_FRAME_MAX_KIB : Fld := ⟨49, 16, 16, .rwl, 0⟩
abbrev F.kfeLiveCfg_FRAME_SLOTS : Fld := ⟨49, 32, 16, .rwl, 0⟩
abbrev F.kfeLiveCfg_STREAM_ID : Fld := ⟨49, 48, 16, .rwl, 0⟩
/-! Fields of KFE_LIVE_BUF (R445). -/
abbrev F.kfeLiveBuf_BASE : Fld := ⟨50, 16, 32, .rwl, 0⟩
/-! Fields of KFE_LIVE_COUNT (R445). -/
abbrev F.kfeLiveCount_RECEIVED : Fld := ⟨51, 0, 32, .rc, 0⟩
abbrev F.kfeLiveCount_OVERRUN : Fld := ⟨51, 32, 16, .rc, 0⟩
abbrev F.kfeLiveCount_STALE : Fld := ⟨51, 48, 16, .rc, 0⟩
/-! Fields of NET_PORT_CFG (R472). -/
abbrev F.netPortCfg_MODE : Fld := ⟨52, 0, 2, .rwl, 0⟩
abbrev F.netPortCfg_MTU : Fld := ⟨52, 2, 14, .rwl, 0⟩
abbrev F.netPortCfg_PFC_EN : Fld := ⟨52, 16, 8, .rwl, 0⟩
abbrev F.netPortCfg_PTP_EN : Fld := ⟨52, 24, 1, .rwl, 0⟩
/-! Fields of NET_PORT_STATUS (R472). -/
abbrev F.netPortStatus_UP0 : Fld := ⟨53, 0, 1, .ro, 0⟩
abbrev F.netPortStatus_UP1 : Fld := ⟨53, 1, 1, .ro, 0⟩
abbrev F.netPortStatus_DOWN_EVENTS : Fld := ⟨53, 16, 16, .rc, 0⟩
abbrev F.netPortStatus_DROPPED : Fld := ⟨53, 32, 32, .rc, 0⟩
/-! Fields of NET_FABRIC_CFG (R472). -/
abbrev F.netFabricCfg_GCT_PORT : Fld := ⟨54, 0, 16, .rwl, 4920⟩
abbrev F.netFabricCfg_LIVE_PORT : Fld := ⟨54, 16, 16, .rwl, 4921⟩
abbrev F.netFabricCfg_LOSS_TIMEOUT : Fld := ⟨54, 32, 16, .rwl, 20⟩
/-! Fields of NET_CONN_TABLE (R472). -/
abbrev F.netConnTable_ADDR : Fld := ⟨55, 12, 36, .rw, 0⟩
/-! Fields of NET_CONN_CTRL (R472). -/
abbrev F.netConnCtrl_CONN : Fld := ⟨56, 0, 12, .wo, 0⟩
abbrev F.netConnCtrl_OP : Fld := ⟨56, 12, 2, .wo, 0⟩
/-! Fields of NET_VER_CEILING (R472). -/
abbrev F.netVerCeiling_WIRE : Fld := ⟨57, 0, 4, .rwl, 0⟩
abbrev F.netVerCeiling_DIALECT : Fld := ⟨57, 4, 4, .rwl, 0⟩
abbrev F.netVerCeiling_BEAD : Fld := ⟨57, 8, 4, .rwl, 0⟩
abbrev F.netVerCeiling_LOAN : Fld := ⟨57, 12, 4, .rwl, 0⟩
abbrev F.netVerCeiling_DIGEST : Fld := ⟨57, 16, 4, .rwl, 0⟩
abbrev F.netVerCeiling_FORMATS : Fld := ⟨57, 20, 4, .rwl, 0⟩
/-! Fields of NET_LOAN_WIN (R472). -/
abbrev F.netLoanWin_CONN : Fld := ⟨58, 0, 12, .rw, 0⟩
abbrev F.netLoanWin_STATE : Fld := ⟨58, 12, 2, .ro, 0⟩
abbrev F.netLoanWin_BIND : Fld := ⟨58, 14, 1, .wo, 0⟩
abbrev F.netLoanWin_UNBIND : Fld := ⟨58, 15, 1, .wo, 0⟩
abbrev F.netLoanWin_SIZE_GIB : Fld := ⟨58, 32, 16, .rw, 0⟩
abbrev F.netLoanWin_OFFSET_GIB : Fld := ⟨58, 48, 16, .rw, 0⟩
/-! Fields of NET_LEND_CFG (R472). -/
abbrev F.netLendCfg_CTX : Fld := ⟨59, 0, 4, .rwl, 0⟩
abbrev F.netLendCfg_ENABLE : Fld := ⟨59, 4, 1, .rwl, 0⟩
abbrev F.netLendCfg_BASE_GIB : Fld := ⟨59, 16, 16, .rwl, 0⟩
abbrev F.netLendCfg_SIZE_GIB : Fld := ⟨59, 32, 16, .rwl, 0⟩
abbrev F.netLendCfg_GRANTS : Fld := ⟨59, 48, 8, .ro, 0⟩
/-! Fields of NET_PTP_STATUS (R472). -/
abbrev F.netPtpStatus_STATE : Fld := ⟨60, 0, 2, .ro, 0⟩
abbrev F.netPtpStatus_SOURCE : Fld := ⟨60, 8, 5, .ro, 0⟩
abbrev F.netPtpStatus_OFFSET_NS : Fld := ⟨60, 16, 32, .ro, 0⟩
/-! Fields of HUB_STATE (R474). -/
abbrev F.hubState_STATE : Fld := ⟨61, 0, 4, .ro, 0⟩
abbrev F.hubState_PREV : Fld := ⟨61, 4, 4, .ro, 0⟩
abbrev F.hubState_BOOT_IMAGE : Fld := ⟨61, 8, 1, .ro, 0⟩
abbrev F.hubState_CFG_IMAGE : Fld := ⟨61, 9, 1, .ro, 0⟩
abbrev F.hubState_CFG_HOST : Fld := ⟨61, 10, 1, .ro, 0⟩
abbrev F.hubState_STAGED : Fld := ⟨61, 11, 1, .ro, 0⟩
abbrev F.hubState_HALT_CAUSE : Fld := ⟨61, 12, 4, .ro, 0⟩
abbrev F.hubState_CFG_SEQ : Fld := ⟨61, 32, 32, .ro, 0⟩
/-! Fields of HUB_CFG_DIAG (R489). -/
abbrev F.hubCfgDiag_REASON : Fld := ⟨62, 0, 8, .ro, 0⟩
abbrev F.hubCfgDiag_COPY : Fld := ⟨62, 8, 2, .ro, 0⟩
abbrev F.hubCfgDiag_FINDINGS : Fld := ⟨62, 10, 6, .ro, 0⟩
abbrev F.hubCfgDiag_SECTION : Fld := ⟨62, 16, 16, .ro, 0⟩
abbrev F.hubCfgDiag_OFFSET : Fld := ⟨62, 32, 32, .ro, 0⟩
/-! Fields of PWR_DOM_STATUS (R515). -/
abbrev F.pwrDomStatus_STATE : Fld := ⟨63, 0, 2, .ro, 0⟩
abbrev F.pwrDomStatus_PRESENT : Fld := ⟨63, 2, 1, .ro, 0⟩
abbrev F.pwrDomStatus_WAKING : Fld := ⟨63, 3, 1, .ro, 0⟩
abbrev F.pwrDomStatus_WAKES : Fld := ⟨63, 16, 32, .rc, 0⟩
/-! Fields of PWR_IDLE (R515). -/
abbrev F.pwrIdle_GATE_AFTER_US : Fld := ⟨64, 0, 16, .rwl, 2⟩
abbrev F.pwrIdle_RETAIN_AFTER_US : Fld := ⟨64, 16, 16, .rwl, 1000⟩
abbrev F.pwrIdle_OFF_AFTER_MS : Fld := ⟨64, 32, 16, .rwl, 0⟩
abbrev F.pwrIdle_KFE_OFF_AFTER_MS : Fld := ⟨64, 48, 8, .rwl, 100⟩
/-! Fields of PWR_CAP (R515). -/
abbrev F.pwrCap_SUSTAINED_W : Fld := ⟨65, 0, 12, .rwl, 3200⟩
abbrev F.pwrCap_PEAK_W : Fld := ⟨65, 12, 12, .rwl, 3600⟩
abbrev F.pwrCap_LIMIT_W : Fld := ⟨65, 24, 12, .rw, 0⟩
abbrev F.pwrCap_THROTTLE_C : Fld := ⟨65, 36, 7, .rwl, 100⟩
/-! Fields of PWR_PARK (R515). -/
abbrev F.pwrPark_LEVEL : Fld := ⟨66, 0, 2, .rw, 0⟩
abbrev F.pwrPark_CURRENT : Fld := ⟨66, 2, 2, .ro, 0⟩
abbrev F.pwrPark_BUSY : Fld := ⟨66, 4, 1, .ro, 0⟩
/-! Fields of PWR_READING (R515). -/
abbrev F.pwrReading_P_1MS : Fld := ⟨67, 0, 16, .ro, 0⟩
abbrev F.pwrReading_P_1S : Fld := ⟨67, 16, 16, .ro, 0⟩
abbrev F.pwrReading_DUTY : Fld := ⟨67, 32, 5, .ro, 16⟩
abbrev F.pwrReading_EXCURSION : Fld := ⟨67, 37, 1, .ro, 0⟩
abbrev F.pwrReading_THERMAL : Fld := ⟨67, 38, 1, .ro, 0⟩
/-! Fields of PWR_ENERGY (R515). -/
abbrev F.pwrEnergy_MJ : Fld := ⟨68, 0, 64, .rs, 0⟩
/-! Fields of PWR_TEMP (R515). -/
abbrev F.pwrTemp_D0 : Fld := ⟨69, 0, 8, .ro, 0⟩
abbrev F.pwrTemp_D1 : Fld := ⟨69, 8, 8, .ro, 0⟩
abbrev F.pwrTemp_D2 : Fld := ⟨69, 16, 8, .ro, 0⟩
abbrev F.pwrTemp_D3 : Fld := ⟨69, 24, 8, .ro, 0⟩
abbrev F.pwrTemp_H : Fld := ⟨69, 32, 8, .ro, 0⟩
abbrev F.pwrTemp_PEAK : Fld := ⟨69, 40, 8, .rc, 0⟩
/-! Fields of MGT_DEGRADED (R540). -/
abbrev F.mgtDegraded_CAUSES : Fld := ⟨70, 0, 8, .ro, 0⟩
abbrev F.mgtDegraded_SEEN : Fld := ⟨70, 16, 8, .rw1c, 0⟩
/-! Fields of MGT_CORES (R540). -/
abbrev F.mgtCores_UP : Fld := ⟨71, 0, 4, .ro, 0⟩
abbrev F.mgtCores_RETIRED : Fld := ⟨71, 4, 4, .ro, 0⟩
abbrev F.mgtCores_RESTARTS : Fld := ⟨71, 8, 16, .rc, 0⟩
abbrev F.mgtCores_LAST_CORE : Fld := ⟨71, 24, 2, .ro, 0⟩
abbrev F.mgtCores_LAST_CAUSE : Fld := ⟨71, 26, 2, .ro, 0⟩
/-! Fields of MGT_BRACE_CFG (R540). -/
abbrev F.mgtBraceCfg_COMMIT_MS : Fld := ⟨72, 0, 16, .rw, 250⟩
abbrev F.mgtBraceCfg_DRAIN_MS : Fld := ⟨72, 16, 16, .rw, 50⟩
abbrev F.mgtBraceCfg_PUSH_MS : Fld := ⟨72, 32, 32, .rw, 10000⟩
/-! Fields of MGT_BRACE_STATUS (R540). -/
abbrev F.mgtBraceStatus_PHASE : Fld := ⟨73, 0, 3, .ro, 0⟩
abbrev F.mgtBraceStatus_PIN : Fld := ⟨73, 3, 1, .ro, 0⟩
abbrev F.mgtBraceStatus_PWR_WARN : Fld := ⟨73, 4, 1, .ro, 0⟩
abbrev F.mgtBraceStatus_DONE : Fld := ⟨73, 16, 10, .ro, 0⟩
abbrev F.mgtBraceStatus_FAILED : Fld := ⟨73, 26, 10, .ro, 0⟩
abbrev F.mgtBraceStatus_PUSHED_MIB : Fld := ⟨73, 36, 28, .ro, 0⟩
/-! Fields of MGT_LIFE_STATUS (R540). -/
abbrev F.mgtLifeStatus_MIRROR_SEQ : Fld := ⟨74, 0, 32, .ro, 0⟩
abbrev F.mgtLifeStatus_BUSY : Fld := ⟨74, 32, 1, .ro, 0⟩
abbrev F.mgtLifeStatus_RESTORED : Fld := ⟨74, 33, 1, .ro, 0⟩
abbrev F.mgtLifeStatus_FLUSHES : Fld := ⟨74, 48, 8, .ro, 0⟩
/-! Fields of MGT_SHOCK (R540). -/
abbrev F.mgtShock_LAST_PEAK : Fld := ⟨75, 0, 16, .ro, 0⟩
abbrev F.mgtShock_MAX_PEAK : Fld := ⟨75, 16, 16, .rc, 0⟩
abbrev F.mgtShock_EVENTS : Fld := ⟨75, 32, 16, .rc, 0⟩
/-! Fields of MGT_AVAIL (R540). -/
abbrev F.mgtAvail_IN_SERVICE_S : Fld := ⟨76, 0, 40, .ro, 0⟩
abbrev F.mgtAvail_LOST_MS : Fld := ⟨76, 40, 24, .ro, 0⟩
/-! Fields of SEC_ID_STATUS (R566). -/
abbrev F.secIdStatus_STATE : Fld := ⟨77, 0, 2, .ro, 0⟩
abbrev F.secIdStatus_WORST : Fld := ⟨77, 2, 8, .ro, 0⟩
/-! Fields of SEC_DEVICE_ID (R566). -/
abbrev F.secDeviceId_ID : Fld := ⟨78, 0, 64, .ro, 0⟩
/-! Fields of SEC_FW_RUNNING (R566). -/
abbrev F.secFwRunning_RELEASE : Fld := ⟨79, 0, 32, .ro, 0⟩
abbrev F.secFwRunning_SECURITY_VERSION : Fld := ⟨79, 32, 16, .ro, 0⟩
abbrev F.secFwRunning_COUNTERSIGNED : Fld := ⟨79, 48, 1, .ro, 0⟩
abbrev F.secFwRunning_LIVE : Fld := ⟨79, 49, 1, .ro, 0⟩
/-! Fields of SEC_FW_STAGED (R566). -/
abbrev F.secFwStaged_RELEASE : Fld := ⟨80, 0, 32, .ro, 0⟩
abbrev F.secFwStaged_SECURITY_VERSION : Fld := ⟨80, 32, 16, .ro, 0⟩
abbrev F.secFwStaged_VALID : Fld := ⟨80, 48, 1, .ro, 0⟩
abbrev F.secFwStaged_COUNTERSIGNED : Fld := ⟨80, 49, 1, .ro, 0⟩
abbrev F.secFwStaged_LIVE_OK : Fld := ⟨80, 50, 1, .ro, 0⟩
/-! Fields of SEC_ACT_TIME (R566). -/
abbrev F.secActTime_TIME : Fld := ⟨81, 0, 64, .ro, 0⟩
/-! Fields of SEC_ACT_STATUS (R566). -/
abbrev F.secActStatus_STATE : Fld := ⟨82, 0, 3, .ro, 0⟩
abbrev F.secActStatus_FALLBACK : Fld := ⟨82, 3, 1, .ro, 0⟩
abbrev F.secActStatus_CTX : Fld := ⟨82, 4, 4, .ro, 0⟩
abbrev F.secActStatus_WINDOW_MS : Fld := ⟨82, 8, 16, .ro, 0⟩
abbrev F.secActStatus_LAST_RESULT : Fld := ⟨82, 24, 4, .ro, 0⟩
abbrev F.secActStatus_LAST_PAUSE_US : Fld := ⟨82, 28, 21, .ro, 0⟩
/-! Fields of HUB_HEALTH (R574). -/
abbrev F.hubHealth_REPLACE : Fld := ⟨83, 0, 1, .ro, 0⟩
abbrev F.hubHealth_ERRQ_RESET : Fld := ⟨83, 1, 1, .rw1c, 0⟩
abbrev F.hubHealth_FATAL_SEEN : Fld := ⟨83, 2, 1, .rw1c, 0⟩
/-! Fields of HUB_TIME (R574). -/
abbrev F.hubTime_TIME : Fld := ⟨84, 0, 64, .ro, 0⟩
/-! Fields of HUB_WINDOW (R574). -/
abbrev F.hubWindow_BASE : Fld := ⟨85, 32, 16, .rw, 0⟩
/-! Fields of HUB_LINK (R574). -/
abbrev F.hubLink_GEN : Fld := ⟨86, 0, 3, .ro, 0⟩
abbrev F.hubLink_WIDTH : Fld := ⟨86, 3, 4, .ro, 0⟩
abbrev F.hubLink_CORRECTABLE : Fld := ⟨86, 32, 16, .rc, 0⟩
abbrev F.hubLink_UNCORRECTABLE : Fld := ⟨86, 48, 16, .rc, 0⟩
/-! Fields of HUB_MBOX_CMD (R576). -/
abbrev F.hubMboxCmd_CMD : Fld := ⟨87, 0, 8, .rw, 0⟩
abbrev F.hubMboxCmd_GO : Fld := ⟨87, 8, 1, .wo, 0⟩
/-! Fields of HUB_MBOX_STATUS (R576). -/
abbrev F.hubMboxStatus_BUSY : Fld := ⟨88, 0, 1, .ro, 0⟩
abbrev F.hubMboxStatus_DONE : Fld := ⟨88, 1, 1, .rw1c, 0⟩
abbrev F.hubMboxStatus_RESULT : Fld := ⟨88, 8, 8, .ro, 0⟩
abbrev F.hubMboxStatus_DETAIL : Fld := ⟨88, 32, 32, .ro, 0⟩
/-! Fields of HUB_MBOX_ARG (R576). -/
abbrev F.hubMboxArg_VALUE : Fld := ⟨89, 0, 64, .rw, 0⟩
/-! Fields of CTX_RING_BASE (R579). -/
abbrev F.ctxRingBase_ADDR : Fld := ⟨90, 12, 40, .rw, 0⟩
/-! Fields of CTX_RING_CFG (R579). -/
abbrev F.ctxRingCfg_ENABLE : Fld := ⟨91, 0, 1, .rw, 0⟩
abbrev F.ctxRingCfg_FMT : Fld := ⟨91, 1, 1, .rw, 0⟩
abbrev F.ctxRingCfg_LOG2 : Fld := ⟨91, 2, 5, .rw, 6⟩
abbrev F.ctxRingCfg_COMPL_QUEUE : Fld := ⟨91, 8, 8, .rw, 0⟩
abbrev F.ctxRingCfg_VECTOR : Fld := ⟨91, 16, 6, .rw, 0⟩
/-! Fields of CTX_RING_TILES (R579). -/
abbrev F.ctxRingTiles_MASK : Fld := ⟨92, 0, 48, .rw, 0⟩
/-! Fields of CTX_RING_STATUS (R579). -/
abbrev F.ctxRingStatus_HEAD : Fld := ⟨93, 0, 32, .ro, 0⟩
abbrev F.ctxRingStatus_TAIL : Fld := ⟨93, 32, 32, .ro, 0⟩
/-! Fields of CTX_RING_CTRL (R579). -/
abbrev F.ctxRingCtrl_STOP : Fld := ⟨94, 0, 1, .wo, 0⟩
abbrev F.ctxRingCtrl_RESTART : Fld := ⟨94, 1, 1, .wo, 0⟩
abbrev F.ctxRingCtrl_SKIP : Fld := ⟨94, 2, 1, .wo, 0⟩
abbrev F.ctxRingCtrl_STOPPED : Fld := ⟨94, 8, 1, .ro, 0⟩
abbrev F.ctxRingCtrl_CAUSE : Fld := ⟨94, 9, 3, .ro, 0⟩
abbrev F.ctxRingCtrl_IDLE : Fld := ⟨94, 12, 1, .ro, 1⟩
/-! Fields of MGT_MODULE (R616). -/
abbrev F.mgtModule_BRACE_IN : Fld := ⟨95, 0, 1, .ro, 0⟩
abbrev F.mgtModule_PWR_WARN_IN : Fld := ⟨95, 1, 1, .ro, 0⟩
abbrev F.mgtModule_WP_IN : Fld := ⟨95, 2, 1, .ro, 0⟩
abbrev F.mgtModule_THERMTRIP_OUT : Fld := ⟨95, 3, 1, .ro, 0⟩
abbrev F.mgtModule_REPLACE_OUT : Fld := ⟨95, 4, 1, .ro, 0⟩
abbrev F.mgtModule_ALERT_OUT : Fld := ⟨95, 5, 1, .ro, 0⟩
abbrev F.mgtModule_MGMT_ADDR : Fld := ⟨95, 6, 2, .ro, 0⟩
abbrev F.mgtModule_PPS_SEEN : Fld := ⟨95, 8, 1, .ro, 0⟩
abbrev F.mgtModule_COOLANT_IN : Fld := ⟨95, 16, 12, .ro, 0⟩
abbrev F.mgtModule_COOLANT_OUT : Fld := ⟨95, 28, 12, .ro, 0⟩
abbrev F.mgtModule_SUPPLY_MV : Fld := ⟨95, 40, 16, .ro, 0⟩
/-! Fields of MGT_PPS (R616). -/
abbrev F.mgtPps_EDGE_TIME : Fld := ⟨96, 0, 64, .ro, 0⟩

/-- The fields of each register, in the order of its table. -/
def regFields : Nat → List Fld
  | 0 => [F.hubCapUnits_DIES, F.hubCapUnits_STACKS, F.hubCapUnits_KFE, F.hubCapUnits_PORTS, F.hubCapUnits_VARIANT]
  | 1 => [F.hubCapTiles_PRESENT]
  | 2 => [F.ctxFlags_FLAGS]
  | 3 => [F.ctxFlagNotice_ENABLE]
  | 4 => [F.tilSrngSeed_STATE]
  | 5 => [F.ctxKvCfg_MODE]
  | 6 => [F.ctxKvCounts_WALK_RESTARTS, F.ctxKvCounts_UNSTABLE, F.ctxKvCounts_COW, F.ctxKvCounts_COLLISIONS]
  | 7 => [F.ctxPgroup_TABLE_ADDR, F.ctxPgroup_LAST]
  | 8 => [F.ctxVersion_CURRENT]
  | 9 => [F.ctxTrainCounts_TAIL_SAT, F.ctxTrainCounts_NONFINITE, F.ctxTrainCounts_RATIO, F.ctxTrainCounts_DIGEST]
  | 10 => [F.ctxStepCfg_READY_BEAD, F.ctxStepCfg_COLL_GROUP, F.ctxStepCfg_MEMBER]
  | 11 => [F.ctxStepRec_RECORD_ADDR]
  | 12 => [F.ctxStepState_STATE, F.ctxStepState_ATTEMPT, F.ctxStepState_TARGET]
  | 13 => [F.memRegionCfg_VALID, F.memRegionCfg_MODE, F.memRegionCfg_RADIUS, F.memRegionCfg_BASE, F.memRegionCfg_SHARE, F.memRegionCfg_STACK_BASE]
  | 14 => [F.memReserve_PER_STACK, F.memReserve_SLOTS_D0, F.memReserve_SLOTS_D1, F.memReserve_SLOTS_D2, F.memReserve_SLOTS_D3]
  | 15 => [F.memHostBase_BASE]
  | 16 => [F.memStackStatus_POPULATED, F.memStackStatus_IN_SERVICE, F.memStackStatus_SELF_REFRESH, F.memStackStatus_SPARES_G0, F.memStackStatus_SPARES_G1, F.memStackStatus_SPARES_G2, F.memStackStatus_SPARES_G3, F.memStackStatus_RETIRED, F.memStackStatus_LOST]
  | 17 => [F.memChRetiredLo_OUT]
  | 18 => [F.memChRetiredHi_OUT]
  | 19 => [F.memEccCount_CORRECTED, F.memEccCount_INNER, F.memEccCount_UNCORRECTABLE]
  | 20 => [F.memErrLog_PHYS_ADDR, F.memErrLog_STACK, F.memErrLog_CHANNEL, F.memErrLog_POISON, F.memErrLog_SRAM, F.memErrLog_VALID]
  | 21 => [F.ctxMmuRoot_VALID, F.ctxMmuRoot_TABLE]
  | 22 => [F.ctxSched_PRIO, F.ctxSched_PREEMPTIBLE]
  | 23 => [F.ctxCtrl_PREEMPT, F.ctxCtrl_MODE, F.ctxCtrl_RESUME]
  | 24 => [F.ctxState_STATE, F.ctxState_INVAL_BUSY, F.ctxState_STALLED]
  | 25 => [F.ctxInval_VPN, F.ctxInval_COUNT, F.ctxInval_GO]
  | 26 => [F.ctxSave_BASE, F.ctxSave_SIZE]
  | 27 => [F.ctxFramePool_ADDR]
  | 28 => [F.ctxFaultCfg_MIGRATE_WAIT]
  | 29 => [F.ctxFaultLog_VA, F.ctxFaultLog_WRITE, F.ctxFaultLog_CAUSE, F.ctxFaultLog_VALID]
  | 30 => [F.ctxFaultCounts_COW, F.ctxFaultCounts_LOAN, F.ctxFaultCounts_MIGRATE, F.ctxFaultCounts_FATAL]
  | 31 => [F.beadAttr_STATE, F.beadAttr_OWNER, F.beadAttr_PAIRED, F.beadAttr_SIDE, F.beadAttr_PARTNER, F.beadAttr_CAPACITY, F.beadAttr_PAIR_OK, F.beadAttr_WAITERS]
  | 32 => [F.beadValue_VALUE]
  | 33 => [F.ctxBeadMap_VALID, F.ctxBeadMap_ADDR]
  | 34 => [F.ctxBeadCfg_DEFAULT_TIMEOUT, F.ctxBeadCfg_STOP_ON_TIMEOUT]
  | 35 => [F.ctxBeadAdd_VID, F.ctxBeadAdd_AMOUNT]
  | 36 => [F.ctxBeadLog_VID, F.ctxBeadLog_WAIT, F.ctxBeadLog_PHYS, F.ctxBeadLog_RING, F.ctxBeadLog_INDEX, F.ctxBeadLog_VALID]
  | 37 => [F.ctxBeadSeen_VALUE]
  | 38 => [F.ctxPeg_PEGS]
  | 39 => [F.queCfg_ENABLE, F.queCfg_VF_VISIBLE, F.queCfg_CTX, F.queCfg_PUT_EN, F.queCfg_RING_LOG2, F.queCfg_RING_BASE]
  | 40 => [F.queNotify_MODE, F.queNotify_VECTOR, F.queNotify_DB_ADDR]
  | 41 => [F.queStatus_ENTRIES, F.queStatus_PACKETS, F.queStatus_LEVELS, F.queStatus_READING, F.queStatus_TAIL_HELD]
  | 42 => [F.queHeadPkt_LENGTH, F.queHeadPkt_PRIO, F.queHeadPkt_NEXT, F.queHeadPkt_SEQ]
  | 43 => []
  | 44 => [F.queLost_ENTRIES, F.queLost_PACKETS, F.queLost_RESETS, F.queLost_REWOUND]
  | 45 => [F.queCtrl_FLUSH, F.queCtrl_SKIP]
  | 46 => [F.kfeStatus_PRESENT, F.kfeStatus_UP, F.kfeStatus_BUSY, F.kfeStatus_TABLE_VALID, F.kfeStatus_UCODE_VER, F.kfeStatus_RESETS]
  | 47 => [F.kfeLimits_EXPANSION_MAX, F.kfeLimits_PIXEL_BUDGET, F.kfeLimits_SAMPLE_TIME_MAX]
  | 48 => [F.kfeCounts_SAMPLES, F.kfeCounts_CORRUPT, F.kfeCounts_STALE]
  | 49 => [F.kfeLiveCfg_ENABLE, F.kfeLiveCfg_CTX, F.kfeLiveCfg_QUEUE, F.kfeLiveCfg_PRIO, F.kfeLiveCfg_FRAME_MAX_KIB, F.kfeLiveCfg_FRAME_SLOTS, F.kfeLiveCfg_STREAM_ID]
  | 50 => [F.kfeLiveBuf_BASE]
  | 51 => [F.kfeLiveCount_RECEIVED, F.kfeLiveCount_OVERRUN, F.kfeLiveCount_STALE]
  | 52 => [F.netPortCfg_MODE, F.netPortCfg_MTU, F.netPortCfg_PFC_EN, F.netPortCfg_PTP_EN]
  | 53 => [F.netPortStatus_UP0, F.netPortStatus_UP1, F.netPortStatus_DOWN_EVENTS, F.netPortStatus_DROPPED]
  | 54 => [F.netFabricCfg_GCT_PORT, F.netFabricCfg_LIVE_PORT, F.netFabricCfg_LOSS_TIMEOUT]
  | 55 => [F.netConnTable_ADDR]
  | 56 => [F.netConnCtrl_CONN, F.netConnCtrl_OP]
  | 57 => [F.netVerCeiling_WIRE, F.netVerCeiling_DIALECT, F.netVerCeiling_BEAD, F.netVerCeiling_LOAN, F.netVerCeiling_DIGEST, F.netVerCeiling_FORMATS]
  | 58 => [F.netLoanWin_CONN, F.netLoanWin_STATE, F.netLoanWin_BIND, F.netLoanWin_UNBIND, F.netLoanWin_SIZE_GIB, F.netLoanWin_OFFSET_GIB]
  | 59 => [F.netLendCfg_CTX, F.netLendCfg_ENABLE, F.netLendCfg_BASE_GIB, F.netLendCfg_SIZE_GIB, F.netLendCfg_GRANTS]
  | 60 => [F.netPtpStatus_STATE, F.netPtpStatus_SOURCE, F.netPtpStatus_OFFSET_NS]
  | 61 => [F.hubState_STATE, F.hubState_PREV, F.hubState_BOOT_IMAGE, F.hubState_CFG_IMAGE, F.hubState_CFG_HOST, F.hubState_STAGED, F.hubState_HALT_CAUSE, F.hubState_CFG_SEQ]
  | 62 => [F.hubCfgDiag_REASON, F.hubCfgDiag_COPY, F.hubCfgDiag_FINDINGS, F.hubCfgDiag_SECTION, F.hubCfgDiag_OFFSET]
  | 63 => [F.pwrDomStatus_STATE, F.pwrDomStatus_PRESENT, F.pwrDomStatus_WAKING, F.pwrDomStatus_WAKES]
  | 64 => [F.pwrIdle_GATE_AFTER_US, F.pwrIdle_RETAIN_AFTER_US, F.pwrIdle_OFF_AFTER_MS, F.pwrIdle_KFE_OFF_AFTER_MS]
  | 65 => [F.pwrCap_SUSTAINED_W, F.pwrCap_PEAK_W, F.pwrCap_LIMIT_W, F.pwrCap_THROTTLE_C]
  | 66 => [F.pwrPark_LEVEL, F.pwrPark_CURRENT, F.pwrPark_BUSY]
  | 67 => [F.pwrReading_P_1MS, F.pwrReading_P_1S, F.pwrReading_DUTY, F.pwrReading_EXCURSION, F.pwrReading_THERMAL]
  | 68 => [F.pwrEnergy_MJ]
  | 69 => [F.pwrTemp_D0, F.pwrTemp_D1, F.pwrTemp_D2, F.pwrTemp_D3, F.pwrTemp_H, F.pwrTemp_PEAK]
  | 70 => [F.mgtDegraded_CAUSES, F.mgtDegraded_SEEN]
  | 71 => [F.mgtCores_UP, F.mgtCores_RETIRED, F.mgtCores_RESTARTS, F.mgtCores_LAST_CORE, F.mgtCores_LAST_CAUSE]
  | 72 => [F.mgtBraceCfg_COMMIT_MS, F.mgtBraceCfg_DRAIN_MS, F.mgtBraceCfg_PUSH_MS]
  | 73 => [F.mgtBraceStatus_PHASE, F.mgtBraceStatus_PIN, F.mgtBraceStatus_PWR_WARN, F.mgtBraceStatus_DONE, F.mgtBraceStatus_FAILED, F.mgtBraceStatus_PUSHED_MIB]
  | 74 => [F.mgtLifeStatus_MIRROR_SEQ, F.mgtLifeStatus_BUSY, F.mgtLifeStatus_RESTORED, F.mgtLifeStatus_FLUSHES]
  | 75 => [F.mgtShock_LAST_PEAK, F.mgtShock_MAX_PEAK, F.mgtShock_EVENTS]
  | 76 => [F.mgtAvail_IN_SERVICE_S, F.mgtAvail_LOST_MS]
  | 77 => [F.secIdStatus_STATE, F.secIdStatus_WORST]
  | 78 => [F.secDeviceId_ID]
  | 79 => [F.secFwRunning_RELEASE, F.secFwRunning_SECURITY_VERSION, F.secFwRunning_COUNTERSIGNED, F.secFwRunning_LIVE]
  | 80 => [F.secFwStaged_RELEASE, F.secFwStaged_SECURITY_VERSION, F.secFwStaged_VALID, F.secFwStaged_COUNTERSIGNED, F.secFwStaged_LIVE_OK]
  | 81 => [F.secActTime_TIME]
  | 82 => [F.secActStatus_STATE, F.secActStatus_FALLBACK, F.secActStatus_CTX, F.secActStatus_WINDOW_MS, F.secActStatus_LAST_RESULT, F.secActStatus_LAST_PAUSE_US]
  | 83 => [F.hubHealth_REPLACE, F.hubHealth_ERRQ_RESET, F.hubHealth_FATAL_SEEN]
  | 84 => [F.hubTime_TIME]
  | 85 => [F.hubWindow_BASE]
  | 86 => [F.hubLink_GEN, F.hubLink_WIDTH, F.hubLink_CORRECTABLE, F.hubLink_UNCORRECTABLE]
  | 87 => [F.hubMboxCmd_CMD, F.hubMboxCmd_GO]
  | 88 => [F.hubMboxStatus_BUSY, F.hubMboxStatus_DONE, F.hubMboxStatus_RESULT, F.hubMboxStatus_DETAIL]
  | 89 => [F.hubMboxArg_VALUE]
  | 90 => [F.ctxRingBase_ADDR]
  | 91 => [F.ctxRingCfg_ENABLE, F.ctxRingCfg_FMT, F.ctxRingCfg_LOG2, F.ctxRingCfg_COMPL_QUEUE, F.ctxRingCfg_VECTOR]
  | 92 => [F.ctxRingTiles_MASK]
  | 93 => [F.ctxRingStatus_HEAD, F.ctxRingStatus_TAIL]
  | 94 => [F.ctxRingCtrl_STOP, F.ctxRingCtrl_RESTART, F.ctxRingCtrl_SKIP, F.ctxRingCtrl_STOPPED, F.ctxRingCtrl_CAUSE, F.ctxRingCtrl_IDLE]
  | 95 => [F.mgtModule_BRACE_IN, F.mgtModule_PWR_WARN_IN, F.mgtModule_WP_IN, F.mgtModule_THERMTRIP_OUT, F.mgtModule_REPLACE_OUT, F.mgtModule_ALERT_OUT, F.mgtModule_MGMT_ADDR, F.mgtModule_PPS_SEEN, F.mgtModule_COOLANT_IN, F.mgtModule_COOLANT_OUT, F.mgtModule_SUPPLY_MV]
  | 96 => [F.mgtPps_EDGE_TIME]
  | _ => []

end Sys2Proof.Machine
end

