-- ==== Sys2Proof/Machine/State.lean ====
section
/-!
DEFINITION. The state of the device, as plain data: its registers, its memories, its queues, the work it holds, the
unfinished activity of its engines and controllers, its pins, the commands that wait to be taken, and the machine
right after a cold reset (`State.reset`).
-/
namespace Sys2Proof.Machine

/-- The ordering variants of R1. -/
inductive Variant where
  | a | b | c
  deriving DecidableEq, Repr

/-- Why the machine would stop with a fault. The block stops on no command: whatever the manual calls a failure
ends in a status, a notice or a state of the device. -/
inductive Fault where
  /-- Never raised by this model. Safe: it could only stop a run. -/
  | unreachable
  deriving DecidableEq, Repr

/-- Why a command is refused. -/
inductive Refusal where
  /-- A command whose arm has no meaning yet. Safe: the run stops. Raised by `exec` alone. -/
  | notModelled (mnemonic : String)
  deriving DecidableEq, Repr

/-- What a granule of 64 data bytes carries beside its data (R290, R293, R297): which of its 72 symbols are in error
(symbol 4l + b is the part of lane l in beats 8b to 8b + 7), the number of the free choice that a pattern too heavy for
the decoder stands on, and whether it is poisoned. -/
structure Gran where
  bad : BitVec 72 := 0
  stamp : Nat := 0
  poison : Bool := false
  deriving DecidableEq, Repr

/-- A line of a shared cache (R304): which of its four sectors are valid, and which of these are dirty. -/
structure CLine where
  valid : BitVec 4 := 0
  dirty : BitVec 4 := 0
  deriving DecidableEq, Repr

/-- A cached translation (R333): the cache that holds it (0 to 47 a tile's, 48 + d that of the bar of die d), the context,
the first address of the page, and the leaf with the place it was read from. -/
structure TlbLeaf where
  who : Nat
  ctx : Nat
  base : Nat
  pte : Nat
  entry : Nat
  deriving DecidableEq, Repr

/-- An upper-level entry that a die holds for its walkers (R333): context, level (0 to 2), the index bits of the address
down to that level, and the table that it names. -/
structure TlbTop where
  die : Nat
  ctx : Nat
  level : Nat
  index : Nat
  table : Nat
  deriving DecidableEq, Repr

/-- The translation caches (R333), oldest first. -/
structure Tlb where
  leaves : List TlbLeaf := []
  tops : List TlbTop := []
  deriving DecidableEq, Repr

/-- One NVM device (R479): bytes that are not listed are erased (0xFF); the erase counts are per sector (R522). -/
structure Nvm where
  bytes : Tbl Byte := []
  erases : Tbl Nat := []
  /-- What the flush records of the flush area hold (R532): the MIRROR_SEQ that each extends, and the log. -/
  flushes : List (Nat × Mem) := []
  deriving DecidableEq, Repr

/-- Device time and the interval count (R451), both in nanoseconds. -/
structure Clk where
  /-- Device time. -/
  dev : Nat := 0
  /-- The interval count, which the one step of device time does not move. -/
  ivl : Nat := 0
  /-- The one step has been taken since the last cold reset. -/
  stepped : Bool := false
  /-- The interval count at supply good or at the last warm reset (argument of START_READY). -/
  startAt : Nat := 0
  /-- The slew in force, in parts per billion, and what of it has not yet made a whole nanosecond (R451). -/
  slew : Int := 0
  frac : Int := 0
  deriving DecidableEq, Repr

/-- The pins of the module (R595, R598, R599, R616). -/
structure Pins where
  braceLow : Bool := false
  pwrWarnLow : Bool := false
  nvmWp : Bool := false
  mgmtAddr : Fin 4 := 0
  /-- The interval count of the last qualified PPS_IN edge. -/
  ppsAt : Option Nat := none
  /-- PERST# is asserted. -/
  perst : Bool := false
  refclk : Bool := true
  /-- THERMTRIP_N is driven low. -/
  thermtrip : Bool := false
  /-- The levels that ALERT_N and REPLACE_N keep across a warm reset until they are evaluated again (R599): low. -/
  alert : Bool := false
  replace : Bool := false
  /-- The last coolant readings, in tenths of a degree. -/
  coolantIn : Nat := 0
  coolantOut : Nat := 0
  /-- The J2 voltage in millivolts. -/
  supplyMv : Nat := 0
  /-- The binding of the management bus, chosen by the bus master's first transaction (R602). -/
  mgmtBinding : Option Bool := none
  deriving DecidableEq, Repr

/-- A finding of the configuration checks (R490). -/
structure Finding where
  reason : Nat
  copy : Nat
  section_ : Nat
  offset : Nat
  key : Nat := 0
  index : Nat := 0
  detail : Nat := 0
  deriving DecidableEq, Repr

/-- The running start and the configuration (R474 to R499). -/
structure Start where
  /-- The running blob: its named items as (section, key, index, value), from the blob last applied. -/
  items : List (Nat × Nat × Nat × Nat) := []
  /-- SEQUENCE of the running blob, and its DIGEST. -/
  seq : Nat := 0
  digest : List Byte := []
  /-- SCHEMA_MAJOR and SCHEMA_MINOR of the running blob. -/
  schemaMajor : Nat := 0
  schemaMinor : Nat := 0
  /-- The blob that the next BRINGUP applies, or that BRINGUP has applied. -/
  blob : List Byte := []
  /-- The image whose copy R486 chose. -/
  chosen : Option Bool := none
  /-- The blob staged by CFG_LOAD. -/
  staged : Option (List Byte) := none
  /-- The findings of the last check (R490). -/
  findings : List Finding := []
  /-- Start notices kept until queue 0 is first enabled (R499), oldest first, and whether keeping is still on. -/
  kept : List (List Byte) := []
  keeping : Bool := true
  /-- The stacks have been trained in this start (R319). -/
  trained : Bool := false
  /-- BRINGUP has ended but for the wait for PTP (R477). -/
  ptpWaiting : Bool := false
  /-- The start state that a brace interrupted (R498). -/
  held : Option Nat := none
  /-- Warm resets ordered by the watchdog within the last hour: their interval counts (R526). -/
  watchdogs : List Nat := []
  /-- The last reset was a cold one. -/
  cold : Bool := true
  /-- The device is BRACED, or in a state that it entered from a brace (R539). -/
  fromBrace : Bool := false
  /-- READY has been entered since the last cold reset (R539). -/
  inService : Bool := false
  /-- The last warm reset was ordered by DIAG RESTART, or this is its start. -/
  ordered : Bool := false
  /-- Training and self-test alone give the repairs of this start: records existed and none verified (R496). -/
  recordsBad : Bool := false
  deriving DecidableEq, Repr

/-- A mailbox command that has been started (R576): its code, its arguments and what it has worked out. -/
structure MboxJob where
  cmd : Nat
  args : List Nat
  result : Nat := 0
  detail : Nat := 0
  /-- Its work has begun; it waits while core 0's duties pause (R524). -/
  begun : Bool := false
  /-- An NVM write is under way: the image, and the bytes that it writes. -/
  writes : Option (Bool × List Byte) := none
  /-- A PF0 reset fell into the command: its result is lost (R498, R576). -/
  lost : Bool := false
  deriving DecidableEq, Repr

/-- Identity, running and staged firmware, and the activation in progress (R542 to R565). -/
structure Sec where
  /-- The identity's seed; `none` without an identity. The keys derive from it (R544). -/
  xi : Option (List Byte) := none
  pubKey : List Byte := []
  /-- The public key of the device certificate of the image whose helper data was used. -/
  certKey : List Byte := []
  /-- Hash and version of each running part, types 1 to 7 (R550). -/
  parts : List (Nat × List Byte) := []
  /-- Manifest measurement, and the manifest's schema fields, of the running image. -/
  manifest : List Byte := []
  fwMajor : Nat := 0
  fwMinor : Nat := 0
  /-- Measurement of the staged image's manifest, its parts and its live limits. -/
  stagedManifest : List Byte := []
  stagedParts : List (Nat × List Byte) := []
  stagedMajor : Nat := 0
  stagedMinor : Nat := 0
  liveMin : Nat := 0
  liveMax : Nat := 0
  /-- The interval count when the pause began, the drain limit in ns, and the state that the pause left. -/
  pausedAt : Nat := 0
  drainLimit : Nat := 0
  pausedFrom : Nat := 0
  /-- A brace was asked for during a pause and starts when it ends (R533, R565). -/
  braceWaiting : Bool := false
  /-- Context disables held until the pause ends (R565). -/
  heldDisable : List Nat := []
  /-- The step-commit boundary of a waiting activation has been reached, and the pause begins (R560). -/
  boundary : Bool := false
  deriving DecidableEq, Repr

/-- A resolvable fault that a restart unit stalls on (R335, R336). -/
inductive StallKind where
  | cow | loan | migrate | kvCow | loanData
  /-- A page-table walk waits to begin again (R183). -/
  | kvWalk
  deriving DecidableEq, Repr

/-- One stalled restart unit: which unit, the unit code of the engine it runs on, the address, and the entry it
faulted on (its physical address and its value), with the migration clock (R339, R346). -/
structure Stall where
  unit : Nat
  src : Nat
  kind : StallKind
  va : Nat
  pte : Nat
  entry : Nat
  since : Nat
  spent : Nat := 0
  /-- The access was a write. -/
  write : Bool := false
  /-- The whole-unit restart is the dispatcher's own read (R342). -/
  dispatch : Bool := false
  deriving DecidableEq, Repr

/-- Where a fetched command stands. -/
inductive Phase where
  /-- Fetched and not issued. -/
  | fetched
  /-- Issued and waiting for something outside it: a bead, a peg, a connection, a peer. -/
  | waiting
  /-- Issued, with units stalled on resolvable faults. -/
  | stalled
  /-- It has its final status but for its SIGNAL; its completion is due. -/
  | ended
  deriving DecidableEq, Repr

/-- Loan-tier granules received for one unit (R469): their bytes, and their addresses, plus 1 where the lender answered
that the granule is lost. They are not kept beyond the unit (R283). -/
structure Loans where
  bytes : Mem := []
  got : List Nat := []
  deriving DecidableEq, Repr

/-- Whether an issued command has yielded what it held on its tiles. -/
inductive Yield where
  | no
  /-- A filler command, to a main command of its ring (R109). -/
  | toMain
  /-- A command, to one of a context with a higher priority (R343). -/
  | toContext
  deriving DecidableEq, Repr

/-- A fetched command (R581 to R585). -/
structure Cmd where
  /-- Its record count. -/
  count : Nat
  /-- Its 64-byte record. -/
  record : List Byte
  phase : Phase := .fetched
  status : Nat := 0
  /-- It ended at fetch (R581), so that it holds no lane and adds no SIGNAL. -/
  atFetch : Bool := false
  /-- Its wait clock (R381): armed or not, the time spent before `since`, and since when it runs; `none` = paused. -/
  armed : Bool := false
  spent : Nat := 0
  since : Option Nat := none
  /-- The timeout in ns, taken when the clock was started (R381; log entry 22). -/
  limit : Nat := 0
  /-- Peg waits already met (R389): WAIT0, WAIT1. -/
  met0 : Bool := false
  met1 : Bool := false
  /-- The interval count at issue, for TIMEOUT_US of a command (R381); device time at issue and at the end. -/
  issuedAt : Nat := 0
  start : Nat := 0
  finish : Nat := 0
  /-- The descriptor and the tables as read at dispatch. -/
  desc : List Byte := []
  tables : List (List Byte) := []
  /-- The version captured at dispatch (R223), and whether one was captured. -/
  ver : Nat := 0
  /-- Sticky flags, vanished elements and the COUNTS field. -/
  flags : Nat := 0
  vanished : Nat := 0
  counts : Nat := 0
  /-- Lost granules read, each once (R298). -/
  lost : List Nat := []
  /-- Its data-loss notice has been raised (R298), its fault notice has been raised (R362). -/
  lossTold : Bool := false
  /-- Data was lost in another way than by a read: a suppressed or discarded write (R297, R303, R401). -/
  dataLoss : Bool := false
  /-- A fatal fault has struck (R341): the status it gives. -/
  fatal : Option Nat := none
  /-- The units that stall. -/
  stalls : List Stall := []
  /-- Units that have run to their end, and what each leaves for the end of the command (its own layout by opcode). -/
  doneUnits : List Nat := []
  parts : Tbl (List Nat) := []
  /-- Generator states of the tiles as the command found them, and the draws made so far, by tile (R64). -/
  seeds : Tbl Nat := []
  drawn : Tbl Nat := []
  /-- How often the generator of each of its tiles had been written when the command was launched (R75). -/
  seedGens : Tbl Nat := []
  /-- The finished values of units that a write fault holds: addresses and bytes from the faulting granule on (R147). -/
  held : Tbl (List (Nat × List Byte)) := []
  /-- How far a unit that is divided into pieces has come, with its running state (R146). -/
  carry : Tbl (List Nat) := []
  /-- The unit code of the first unit that met lost data, and those of the units that took part. -/
  lossUnit : Nat := 0
  srcs : List Nat := []
  /-- The unit code of COMPLETION.UNIT. -/
  unit : Nat := 0
  /-- What a command run by the network engine or a die bar keeps between events (its own layout by opcode). -/
  aux : List Nat := []
  /-- Loan-tier granules received for the units that wait, by unit + 1, and for the dispatcher's reads at 0 (R469). -/
  loans : Tbl Loans := []
  /-- Loan-tier writes not yet acknowledged (R372), by address. -/
  loanOut : List Nat := []
  /-- The footprint held in the scoreboard (R107): lowest byte, end, write. -/
  foot : List (Nat × Nat × Bool) := []
  /-- The tiles the footprint stands on; the core rows asked for, with the vector and attention engine as bits; and the
  core rows granted on each tile (R95 step 4). -/
  tiles : List Nat := []
  rows : Nat := 0
  granted : Tbl Nat := []
  /-- Whether it has yielded its resources, and to whom (R109, R343). -/
  yielded : Yield := .no
  deriving DecidableEq, Repr

/-- What a ring holds beside its registers. -/
structure Ring where
  /-- The effective tile set (R104). -/
  eff : Nat := 0
  cmds : List Cmd := []
  /-- Fetch is held by a REMAP that has begun (R261), given as context × 2^38 + ring × 2^32 + count. -/
  remap : Option Nat := none
  /-- A completion record that could not be translated because of a resolvable fault (R342). -/
  complStall : Option Stall := none
  /-- The dispatcher's fetch of a record stalls on a resolvable fault (R342). -/
  fetchStall : Option Stall := none
  /-- Loan-tier granules received for the dispatcher's fetch (R469). -/
  loan : Loans := {}
  deriving DecidableEq, Repr

/-- What a context holds beside its registers. -/
structure CtxRt where
  /-- MODE of the pre-emption under way or in force: EVICT. -/
  evict : Bool := false
  /-- The interval count of the PREEMPT or RESUME write (R362). -/
  askedAt : Nat := 0
  /-- Units abandoned mid-unit by the disable (R362), and the interval count of the disable. -/
  abandoned : Nat := 0
  disabledAt : Nat := 0
  /-- READYs for earlier rounds received (R269), and the round for which the last notice of one was raised. -/
  late : Nat := 0
  lateTold : Option (Nat × Nat) := none
  /-- The round that the context is in doubt of (R271, R273). -/
  doubt : Option (Nat × Nat) := none
  /-- The range of the invalidation in progress: first page, pages; no pages = the whole context (R355). -/
  inval : Option (Nat × Nat) := none
  deriving DecidableEq, Repr

/-- A packet of a yo-yo queue (R393). -/
structure Pkt where
  seq : Nat
  prio : Nat
  ents : List (List Byte)
  deriving DecidableEq, Repr

/-- What a yo-yo queue holds (R397 to R409). -/
structure Que where
  /-- Committed packets, oldest first. -/
  pkts : List Pkt := []
  /-- The packet the reader has begun, and the entries taken. -/
  reading : Option Nat := none
  taken : Nat := 0
  /-- The next value of SEQ. -/
  seq : Nat := 0
  /-- A discard since QUE_LOST was last read has raised QUEUE_OVERWRITE, when, and entries discarded since (R406). -/
  told : Bool := false
  toldAt : Nat := 0
  since : Nat := 0
  /-- Packets dropped while disabled, and when QUEUE_DISABLED_DROP was last raised (R409). -/
  drops : Nat := 0
  dropAt : Option Nat := none
  deriving DecidableEq, Repr

/-- A packet sent on a connection and not yet acknowledged (R454). -/
structure Unacked where
  seq : Nat
  msg : GctMsg
  sentAt : Nat
  interval : Nat
  port : Nat
  firstAt : Nat
  deriving DecidableEq, Repr

/-- What a connection holds beside its table entry (R453 to R456). -/
structure Conn where
  /-- The peer's epoch. -/
  peerEpoch : Nat := 0
  /-- When OPEN was written. -/
  openedAt : Nat := 0
  nextSeq : Nat := 0
  /-- The next sequence number expected, and those received beyond it. -/
  rxSeq : Nat := 0
  rxSeen : List Nat := []
  unacked : List Unacked := []
  /-- The interval counts of the last arrival and the last sending. -/
  heardAt : Nat := 0
  sentAt : Nat := 0
  /-- The extension of the loss clocks by HOLD, and the interval count at which that pause is over. -/
  hold : Nat := 0
  holdEnd : Nat := 0
  /-- Smoothed round trip in ns. -/
  rtt : Nat := 0
  /-- The send rate in millionths of the port rate, with the marks fed back (R450). -/
  rate : Nat := 1000000
  acked : Nat := 0
  marked : Nat := 0
  /-- The next request number. -/
  nextReq : Nat := 0
  /-- RoCE: the next byte of the window ring that a SEND writes. -/
  rxOff : Nat := 0
  deriving DecidableEq, Repr

/-- What the network engine holds beside its connections (R450, R452). -/
structure NetRt where
  /-- Until when a pause frame holds a priority of a logical port (interval count), by 8 × port + priority. -/
  pauses : Tbl Nat := []
  /-- Learned neighbours: (IPv6, address, MAC), newest first. -/
  neighbours : List (Bool × Nat × Nat) := []
  /-- Requests of remote parties held on a resolvable fault, with the moment each was first held. -/
  held : List (Nat × Instr) := []
  /-- JOINs received for a group that no FORM here forms yet (R460): connection, group, N, index, maximum. -/
  joins : List (Nat × Nat × Nat × Nat × Nat) := []
  deriving DecidableEq, Repr

/-- A peer's wait on a local bead (R379). -/
structure RWait where
  conn : Nat
  req : Nat
  phys : Nat
  target : Nat
  /-- The last state told to the waiter: suspended. -/
  told : Bool := false
  deriving DecidableEq, Repr

/-- A member's data for a collective (R465): sequence, member, bytes, what of it is lost, flags. -/
structure CollPart where
  seq : Nat
  member : Nat
  bytes : List Byte
  lost : List Nat
  flags : Nat
  deriving DecidableEq, Repr

/-- A collective group (R460). -/
structure Group where
  ctx : Nat
  id : Nat
  /-- 0 forming, 1 ACTIVE, 2 BROKEN. -/
  phase : Nat := 0
  /-- Member connections by index; the own index holds 0xFFFF. -/
  conns : List Nat
  self : Nat
  dialect : Nat := 0
  /-- JOIN maxima heard, by member. -/
  joins : Tbl Nat := []
  /-- Collectives started on the group. -/
  seq : Nat := 0
  /-- Signatures and data that have arrived, or are the device's own, for collectives not ended here: (sequence,
  member, signature), and in the order of arrival the data. -/
  sigs : List (Nat × Nat × CollSig) := []
  parts : List CollPart := []
  deriving DecidableEq, Repr

/-- A grant that this module, as a lender, has given (R468). What it keeps of each group stands in the granted memory
(R247). -/
structure Grant where
  conn : Nat
  base : Nat
  size : Nat
  deriving DecidableEq, Repr

/-- An entry of a brace set (R537). -/
structure BraceEntry where
  ctx : Nat
  bytes : List Byte
  deriving DecidableEq, Repr

/-- The brace (R533 to R538). -/
structure Brace where
  sets : Tbl (List (List Byte)) := []
  startIvl : Nat := 0
  phaseAt : Nat := 0
  /-- In phase 1 the contexts with a commit in flight at the latch; then those that the brace pre-empted. -/
  ctxs : List Nat := []
  pushed : Nat := 0
  commit : Nat := 0
  record : Nat := 0
  /-- When the pin was last seen asserted (R536). -/
  lowAt : Nat := 0
  deriving DecidableEq, Repr

/-- The power controller (R501 to R514). -/
structure Pwr where
  /-- Since when each domain is idle; not listed = busy. -/
  idle : Tbl Nat := []
  /-- The step down under way, by domain: the state being entered (R507). -/
  down : Tbl Nat := []
  /-- Wake requests waiting, by domain: when asked and how many attempts were made. -/
  wake : Tbl (Nat × Nat) := []
  /-- Domains whose units are removed for the start (R507). -/
  failed : List Nat := []
  /-- Input-power samples of the last second in milliwatts, one per 10 µs, newest first (R510). -/
  s1 : List Nat := []
  /-- Start of the run above the limit, end of the last run. -/
  excAt : Option Nat := none
  excEnd : Option Nat := none
  /-- Governor rate, and the thermal rate of each die, in sixteenths. -/
  rate : Nat := 16
  therm : Tbl Nat := []
  thermAt : Tbl Nat := []
  /-- Energy not yet counted as a whole millijoule, in units of 10 nJ: one milliwatt over one sample. -/
  energy : Nat := 0
  /-- Park change under way: from level, begun at. -/
  parkFrom : Nat := 0
  parkAt : Nat := 0
  deriving DecidableEq, Repr

/-- A retirement copy under way (R301): the next piece, granules poisoned, the slot, and the lane that failed. -/
structure RetireCopy where
  piece : Nat := 0
  poisoned : Nat := 0
  slot : Nat
  lane : Nat
  deriving DecidableEq, Repr

/-- Reliability and service (R517 to R531). -/
structure Rel where
  /-- Restart times of each core in the last 10 min, as (core, interval count). -/
  restarts : List (Nat × Nat) := []
  /-- Cores halted and being restarted, with the cause and the time. -/
  halted : List (Nat × Nat × Nat) := []
  /-- Corrected granules by channel in the current hourly window, key 128n + c. -/
  ceWin : Tbl Nat := []
  /-- Consecutive hourly windows over the threshold, by channel; windows in a row with none over. -/
  ceOver : Tbl Nat := []
  ceClean : Nat := 0
  /-- Coolant: since when the inlet reads above 40 °C, and since when at or below 38 °C. -/
  hotSince : Option Nat := none
  coolSince : Option Nat := none
  /-- The shock event under way: peak, axis, when it began. -/
  shock : Option (Nat × Nat × Nat) := none
  /-- The tile under test, and the last test of each tile (interval count + 1). -/
  testing : List Nat := []
  tested : Tbl Nat := []
  /-- Since when each tile group is not ON. -/
  offSince : Tbl Nat := []
  /-- Signature of a failed lane seen: channel groups (4n + g) with a retrain pending (R300). -/
  retrain : List Nat := []
  /-- Consecutive corrections that each included all four symbols of one lane, by channel 128n + c: lane, how many
  (R300). -/
  sig : Tbl (Nat × Nat) := []
  /-- Retirement copies under way, by 128n + c. -/
  copies : Tbl RetireCopy := []
  /-- Slot of each retired channel, by 128n + c. -/
  slots : Tbl Nat := []
  /-- Spare lanes in use: (stack, channel, lane, spare). -/
  spares : List (Nat × Nat × Nat × Nat) := []
  /-- Next repair-record sequence number. -/
  recSeq : Nat := 0
  /-- The interval count of the last flush (R532), and that of the last mirror (R529). -/
  lastFlush : Option Nat := none
  mirrorAt : Nat := 0
  /-- Remainders of the accounting in ns, below a second for STATE_TIME (0 to 15), below a millisecond for AVAIL (16 on). -/
  acct : Tbl Nat := []
  /-- Notices held while core 0's duties pause: level of the Bar, and the notice's numbers (R524). -/
  held : List (Nat × List Nat) := []
  /-- Tiles waiting to be retired until they have no command in flight (R7), with their failure code. -/
  retiring : Tbl Nat := []
  deriving DecidableEq, Repr

/-- A live frame being received (R471). -/
structure LiveFrame where
  stream : Nat
  frame : Nat
  slot : Nat
  total : Nat
  got : List (Nat × Nat)
  firstAt : Nat
  capture : Nat
  codec : Nat
  /-- The frame has been dropped and counted; the rest of its datagrams is ignored. -/
  dead : Bool := false
  deriving DecidableEq, Repr

/-- A tokenizer table in a front end (R429): the context and the address that named it, the pages it stood on, and
its bytes. -/
structure KfeTable where
  ctx : Nat
  addr : Nat
  pages : List Nat
  bytes : List Byte
  deriving DecidableEq, Repr

/-- The media front ends (R413 to R445). -/
structure Kfe where
  /-- The tokenizer table loaded in each front end. -/
  tables : Tbl KfeTable := []
  frames : List LiveFrame := []
  /-- Live frames of each stream dropped under R442 since its last notice (R446). -/
  dropped : Tbl Nat := []
  /-- Front ends in reset. -/
  resetting : List Nat := []
  deriving DecidableEq, Repr

/-- What leaves the device: interrupts, network packets, bus answers. -/
inductive Out where
  | msix (vector : Nat)
  | gct (conn : Nat) (msg : GctMsg)
  | frame (port : Nat) (kind : Nat) (bytes : List Byte)
  | roce (conn : Nat) (kind : Nat) (bytes : List Byte)
  | doe (bytes : List Byte)
  | mctp (ok : Bool) (value : Word)
  | poisoned
  deriving DecidableEq, Repr

/-- The device. -/
structure State where
  /-- The ordering variant (R1, R4). -/
  variant : Variant
  /-- Every register of the spec's register tables (R12), by `regKey`: its number and its index. A register that is not
  listed holds its reset value. -/
  regs : Tbl Word
  /-- The bytes of the stacks and of the tile stores (R78, R284), by `State.key`; an unlisted byte is zero (R313). Of a
  granule that a shared cache holds, these are the bytes of the cached copy. -/
  mem : Mem
  /-- What granules carry beside their data (R293, R297), by the key of their first byte; not listed = no error. -/
  ecc : Tbl Gran
  /-- The lines that the shared caches of the four dies hold (R282, R304), by stack × 2^32 + stack offset / 256. -/
  cache : Tbl CLine
  /-- The translation caches (R333). -/
  tlb : Tlb
  /-- The bead-map entries that the device has cached (R366), by context × 16384 + vid. -/
  beadMap : Tbl Nat
  /-- Host memory, as PCIe requests of PF0 reach it (R286). -/
  host : Mem
  /-- The two NVM devices: image A and image B (R479). -/
  nvmA : Nvm
  nvmB : Nvm
  /-- The life log (R527). -/
  life : Mem
  clk : Clk
  pins : Pins
  start : Start
  /-- The mailbox command that is running (R576). -/
  mbox : Option MboxJob
  sec : Sec
  /-- What each context holds beside its registers (R326 to R350). -/
  ctxs : Tbl CtxRt
  /-- What each ring holds beside its registers: its commands (R579 to R583), by context × 64 + ring. -/
  rings : Tbl Ring
  /-- The turn at which each ring last issued a command to its tiles, by its key: the place of the round-robin (R109;
  log entry 120). -/
  served : Tbl Nat
  /-- How often TIL_SRNG_SEED has been written, by its index (R75). -/
  seedGens : Tbl Nat
  /-- PF0 is in reset, and its own registers are reset when its contexts' disables have ended (R349). -/
  pf0Reset : Bool
  /-- The summary slots (R111), by (context × 48 + tile) × 64 + slot: X36 codes. -/
  slots : Tbl Nat
  /-- The yo-yo queues (R393). -/
  queues : Tbl Que
  /-- What each connection holds beside its table entry in memory (R453 to R456). -/
  conns : Tbl Conn
  net : NetRt
  /-- The collective groups (R460). -/
  groups : List Group
  /-- The grants that this module has given as a lender (R468). -/
  grants : List Grant
  /-- The waits of peers on local beads (R379). -/
  rwaits : List RWait
  brace : Brace
  pwr : Pwr
  rel : Rel
  kfe : Kfe
  /-- The MSI-X tables (R570), by 4 × vector + word: address, data, mask, pending. -/
  msix : Tbl Nat
  /-- When each rate-limited notice was last raised. -/
  rate : Tbl Nat
  /-- What has left the device, oldest first: interrupts, packets, bus answers. -/
  out : List Out
  /-- The value of the last register or window read. -/
  rdata : Nat
  /-- The model's own counter of free values (log entry 1). -/
  nfree : Nat
  /-- The commands that wait, first in, first out. -/
  pending : List Instr
  deriving DecidableEq, Repr

/-- The device that a cold reset leaves: the supply is gone, the state is OFF (R475), and every register holds its
reset value, which is what a register that is not listed reads as. The command POWER_ON starts it (R476). -/
def State.reset : State where
  variant := .a
  regs := []
  mem := []
  ecc := []
  cache := []
  tlb := {}
  beadMap := []
  host := []
  nvmA := {}
  nvmB := {}
  life := []
  clk := {}
  pins := {}
  start := {}
  mbox := none
  sec := {}
  ctxs := []
  rings := []
  served := []
  seedGens := []
  pf0Reset := false
  slots := []
  queues := []
  conns := []
  net := {}
  groups := []
  grants := []
  rwaits := []
  brace := {}
  pwr := {}
  rel := {}
  kfe := {}
  msix := []
  rate := []
  out := []
  rdata := 0
  nfree := 0
  pending := []

end Sys2Proof.Machine
end

