-- ==== Sys2Proof/Machine/Ops.lean ====
section
/-!
DEFINITION. The named operations on the state that every command shares: registers and their fields, the free
values, what the variant fits, device time, and the life log's counters.
-/
namespace Sys2Proof.Machine

/-! ### Registers -/

/-- The key of copy `i` of register `r`. -/
def regKey (r i : Nat) : Nat := r * 1048576 + i

/-- The word a register reads as when nothing has been written since reset (R13). -/
def resetWord (r : Nat) : Word :=
  BitVec.ofNat 64 ((regFields r).foldl (fun a f => a + f.reset <<< f.lo) 0)

/-- The stored word of copy `i` of register `r`. -/
def State.reg (s : State) (r i : Nat) : Word := lookD s.regs (regKey r i) (resetWord r)

/-- The state with a register's stored word replaced. -/
def State.setReg (s : State) (r i : Nat) (w : Word) : State := { s with regs := put s.regs (regKey r i) w }

/-- The stored value of a field of copy `i` of its register. -/
def State.rd (s : State) (f : Fld) (i : Nat := 0) : Nat := bitsOf (s.reg f.reg i).toNat f.lo f.width

/-- The state with a field replaced. -/
def State.wr (s : State) (f : Fld) (i : Nat) (v : Nat) : State :=
  s.setReg f.reg i (BitVec.ofNat 64 (setBits (s.reg f.reg i).toNat f.lo f.width v))

/-- A one-bit field as a truth value. -/
def State.flag (s : State) (f : Fld) (i : Nat := 0) : Bool := s.rd f i == 1

/-- The state with a counting field increased; it stops at its largest value. -/
def State.count (s : State) (f : Fld) (i n : Nat) : State := s.wr f i (satAdd f.width (s.rd f i) n)

/-- The state with copy `i` of register `r` back at its reset value (R13), sticky (RS) fields apart. -/
def State.resetReg (s : State) (r i : Nat) : State :=
  match look s.regs (regKey r i) with
  | none => s
  | some w =>
    s.setReg r i (BitVec.ofNat 64 ((regFields r).foldl
      (fun a f => a + (if f.acc = .rs then bitsOf w.toNat f.lo f.width else f.reset) <<< f.lo) 0))

/-- The next free value, and the state with the counter advanced (log entry 1). -/
def State.fresh (s : State) : Word × State := (Config.freeValue s.nfree, { s with nfree := s.nfree + 1 })

/-! ### The variant (R1 to R5) -/

/-- HUB_CAP_UNITS of each variant (R4). -/
def capUnits : Variant → Nat
  | .a => 0x000001FFFFFFFFFF
  | .b => 0x000002FFF0FFFFFF
  | .c => 0x0000030FF07BDEFF

/-- Stack `n` is populated. -/
def State.stackFitted (s : State) (n : Nat) : Bool := n < 20 && (capUnits s.variant).testBit (4 + n)
/-- Front end `k` is fitted. -/
def State.kfeFitted (s : State) (k : Nat) : Bool := k < 4 && (capUnits s.variant).testBit (24 + k)
/-- Port `p` is fitted. -/
def State.portFitted (s : State) (p : Nat) : Bool := p < 12 && (capUnits s.variant).testBit (28 + p)
/-- Every die has five stacks; four on EVG-1536-C. -/
def State.stacksPerDie (s : State) : Nat := if s.variant = .c then 4 else 5
/-- The size of the stack range (R284). -/
def State.stackTop (s : State) : Nat := if s.variant = .c then 0x018000000000 else 0x01E000000000
/-- HUB_CAP_TILES.PRESENT. -/
def State.tilesPresent (s : State) : Nat := s.rd F.hubCapTiles_PRESENT
/-- Tile `t` is present and not retired. -/
def State.tilePresent (s : State) (t : Nat) : Bool := t < 48 && s.tilesPresent.testBit t
/-- How many of `n` bits are set. -/
def popCount (x n : Nat) : Nat := (bitList x n).length
/-- Domain `d` is fitted (R501: no front-end domains without front ends). -/
def State.domFitted (s : State) (d : Nat) : Bool := if d ≥ 4 ∧ d % 4 = 3 then s.kfeFitted ((d - 7) / 4) else d < 20

/-! ### Device states (R475) -/

abbrev Dev.off : Nat := 0
abbrev Dev.aon : Nat := 1
abbrev Dev.rom : Nat := 2
abbrev Dev.load : Nat := 3
abbrev Dev.cfgCheck : Nat := 4
abbrev Dev.cfgHold : Nat := 5
abbrev Dev.bringup : Nat := 6
abbrev Dev.ready : Nat := 7
abbrev Dev.degraded : Nat := 8
abbrev Dev.braced : Nat := 9
abbrev Dev.paused : Nat := 10
abbrev Dev.halted : Nat := 11

/-- HUB_STATE.STATE. -/
def State.dev (s : State) : Nat := s.rd F.hubState_STATE

/-- READY or DEGRADED. -/
def State.serving (s : State) : Bool := s.dev == Dev.ready || s.dev == Dev.degraded

/-- The state with HUB_STATE.STATE changed and PREV holding the state left (R474). -/
def State.goto (s : State) (d : Nat) : State :=
  (s.wr F.hubState_PREV 0 s.dev).wr F.hubState_STATE 0 d

/-- The state with HALTED entered for a cause (R474). -/
def State.halt (s : State) (cause : Nat) : State := (s.goto Dev.halted).wr F.hubState_HALT_CAUSE 0 cause

/-- READY, or DEGRADED while a cause is in force (R518). -/
def State.readyState (s : State) : Nat := if s.rd F.mgtDegraded_CAUSES = 0 then Dev.ready else Dev.degraded

/-! ### Power domains (R502) -/

abbrev Dom.off : Nat := 0
abbrev Dom.retain : Nat := 1
abbrev Dom.gated : Nat := 2
abbrev Dom.on : Nat := 3

/-- PWR_DOM_STATUSn.STATE. -/
def State.dom (s : State) (d : Nat) : Nat := s.rd F.pwrDomStatus_STATE d
/-- A domain set to a state. -/
def State.setDom (s : State) (d v : Nat) : State := s.wr F.pwrDomStatus_STATE d v
/-- The domain of a tile (R31). -/
def tileDom (t : Nat) : Nat := 4 + 4 * (t / 12) + (t % 12) / 6
/-- The domain of a die's fabric, shared cache, stacks and beads. -/
def dieDom (d : Nat) : Nat := 6 + 4 * d
/-- The domain of a front end. -/
def kfeDom (k : Nat) : Nat := 7 + 4 * k

/-! ### Time (R451, R513) -/

/-- Device time as it is read: with the network domain off it stands on the 80 ns steps of CK_AON (R513). -/
def State.time (s : State) : Nat := if s.dom 2 = Dom.on then s.clk.dev else s.clk.dev / 80 * 80

/-- The interval count, which every timeout runs on (R451). -/
def State.ivl (s : State) : Nat := s.clk.ivl

/-! ### The life log (R527) -/

/-- A counter of the life log. -/
def State.lifeGet (s : State) (off n : Nat) : Nat := leNat (s.life.readN off n)
/-- The state with a life-log counter written. -/
def State.lifeSet (s : State) (off n v : Nat) : State := { s with life := s.life.writeN off (natLE n v) }
/-- The state with a life-log counter increased; it saturates. -/
def State.lifeAdd (s : State) (off n v : Nat) : State := s.lifeSet off n (satAdd (8 * n) (s.lifeGet off n) v)
/-- Entry `k` of the EVENTS block. -/
def lifeEvent (k : Nat) : Nat := 0x5340 + 8 * k

/-! ### Contexts and rings -/

/-- CTX_STATE.STATE of a context (R326). -/
def State.ctxState (s : State) (c : Nat) : Nat := s.rd F.ctxState_STATE c
abbrev Ctx.idle : Nat := 0
abbrev Ctx.active : Nat := 1
abbrev Ctx.preempting : Nat := 2
abbrev Ctx.preempted : Nat := 3
abbrev Ctx.resuming : Nat := 4
abbrev Ctx.disabling : Nat := 5

/-- The key of ring `r` of context `c`, and of its registers. -/
def ringKey (c r : Nat) : Nat := c * 64 + r
/-- What a ring holds. -/
def State.ring (s : State) (k : Nat) : Ring := lookD s.rings k {}
/-- The state with a ring replaced. -/
def State.setRing (s : State) (k : Nat) (r : Ring) : State := { s with rings := put s.rings k r }
/-- What a context holds. -/
def State.ctx (s : State) (c : Nat) : CtxRt := lookD s.ctxs c {}
/-- The state with a context replaced. -/
def State.setCtx (s : State) (c : Nat) (x : CtxRt) : State := { s with ctxs := put s.ctxs c x }
/-- A queue. -/
def State.que (s : State) (q : Nat) : Que := lookD s.queues q {}
/-- The state with a queue replaced. -/
def State.setQue (s : State) (q : Nat) (x : Que) : State := { s with queues := put s.queues q x }
/-- A connection. -/
def State.conn (s : State) (c : Nat) : Conn := lookD s.conns c {}
/-- The state with a connection replaced. -/
def State.setConn (s : State) (c : Nat) (x : Conn) : State := { s with conns := put s.conns c x }

/-- A named item of the running configuration (R484), with its default. -/
def State.item (s : State) (sec key idx dflt : Nat) : Nat :=
  match s.start.items.find? (fun e => e.1 == sec && e.2.1 == key && e.2.2.1 == idx) with
  | some e => e.2.2.2
  | none => dflt

/-- The context's ENABLE item is 1 (R325). -/
def State.ctxEnabled (s : State) (c : Nat) : Bool := s.item 4 2 c 0 == 1

/-- The state with a message leaving the device. -/
def State.emit (s : State) (o : Out) : State := { s with out := s.out ++ [o] }

/-- A rate limit of one per second: whether the event may be raised now, and the state with the moment kept. -/
def State.oncePerSecond (s : State) (k : Nat) : Bool × State :=
  match look s.rate k with
  | some t => if s.ivl < t + 1000000000 then (false, s) else (true, { s with rate := put s.rate k s.ivl })
  | none => (true, { s with rate := put s.rate k s.ivl })

/-! ### Unit codes and control paths (R586, R591) -/

abbrev Unit.die (d : Nat) : Nat := 0x1000 + d
abbrev Unit.hub : Nat := 0x1004
abbrev Unit.tile (t : Nat) : Nat := 0x2000 + t
abbrev Unit.stack (n : Nat) : Nat := 0x4000 + n
abbrev Unit.chan (n c : Nat) : Nat := 0x5000 + 128 * n + c
abbrev Unit.port (p : Nat) : Nat := 0x6000 + p
abbrev Unit.kfe (k : Nat) : Nat := 0x7000 + k
abbrev Unit.dom (d : Nat) : Nat := 0x8000 + d

abbrev Path.pup : Nat := 1
abbrev Path.bar (d : Nat) : Nat := 2 + d
abbrev Path.barm : Nat := 6
abbrev Path.barp : Nat := 7
/-- A control path that ends at the String of a unit. -/
abbrev Path.str (level unit : Nat) : Nat := level + unit * 65536
/-- The control path of a tile's String. -/
def tilePath (t : Nat) : Nat := Path.str (Path.bar (t / 12)) (Unit.tile t)
/-- The control path of the unit with this code: a tile's String, a stack's, a port's, a front end's, or the bar. -/
def unitPath (u : Nat) : Nat :=
  match u / 4096 with
  | 1 => if u % 4096 < 4 then Path.bar (u % 4096) else Path.barp
  | 2 => tilePath (u % 4096)
  | 4 => Path.str Path.barm u
  | 6 => Path.str Path.barp u
  | 7 => Path.str Path.barp u
  | _ => Path.pup

/-- The compute die that a unit sits on; the hub's units sit on none. -/
def unitDie (u : Nat) : Option Nat :=
  match u / 4096 with
  | 1 => if u % 4096 < 4 then some (u % 4096) else none
  | 2 => some (u % 4096 / 12)
  | 4 => some (u % 4096 / 5)
  | 7 => some (u % 4096)
  | _ => none

/-! ### Domain wakes (R503, R506) -/

/-- The units of a domain may run: it is ON and no step down is under way (R507). -/
def State.domOn (s : State) (d : Nat) : Bool := s.dom d == Dom.on && (look s.pwr.down d).isNone

/-- A domain comes to ON: the wake is counted and its idle period ends (R515). -/
def State.domUp (s : State) (d : Nat) : State :=
  let s := ((s.setDom d Dom.on).wr F.pwrDomStatus_WAKING d 0).count F.pwrDomStatus_WAKES d 1
  { s with pwr := { s.pwr with idle := del s.pwr.idle d, wake := del s.pwr.wake d, down := del s.pwr.down d } }

/-- A wake request for a domain that is not ON: it is held until the domain is up; any wake request restarts the
idle period (R505 to R507). -/
def State.askWake (s : State) (d : Nat) : State :=
  let s := { s with pwr := { s.pwr with idle := del s.pwr.idle d } }
  if s.domOn d || !s.domFitted d || (look s.pwr.wake d).isSome then s
  else { (s.wr F.pwrDomStatus_WAKING d 1) with pwr := { s.pwr with wake := put s.pwr.wake d (s.ivl, 1) } }

end Sys2Proof.Machine
end

