-- ==== Sys2Proof/Machine/Clock.lean ====
section
/-!
DEFINITION. The passing of time (R451): what the device does when no command waits.
-/
namespace Sys2Proof.Machine

/-- One period of CK_AON in nanoseconds (R513). -/
abbrev tickNs : Nat := 80

/-- Device time and the interval count after `ns` nanoseconds; device time is slewed (R451). -/
def Clk.pass (c : Clk) (ns : Nat) : Clk :=
  let f := c.frac + c.slew * (ns : Int)
  let d : Int := (ns : Int) + f / 1000000000
  { c with dev := c.dev + d.toNat, ivl := c.ivl + ns, frac := f % 1000000000 }

/-- After one period of CK_AON. -/
def Clk.tick (c : Clk) : Clk := c.pass tickNs

/-- The device with no command waiting: while it has its supply, time passes (log entry 2). -/
def State.tick (s : State) : State := if s.dev = Dev.off then s else { s with clk := s.clk.tick }

end Sys2Proof.Machine
end

