-- ==== Sys2Proof/Machine/Phys.lean ====
section
/-!
DEFINITION. Physical memory (R284 to R303): the address map, regions and their interleave, the error-correcting
codes, lost granules, and the reads and writes of physical addresses that every unit shares.
-/
namespace Sys2Proof.Machine

/-- What a device physical address names (R284). -/
inductive Place where
  | stack (n off : Nat)
  | tile (t off : Nat)
  | loan (w off : Nat)
  | host (off : Nat)
  | regs
  | hole
  deriving DecidableEq, Repr

/-- fold2 of R288: the exclusive or of the sixteen 2-bit fields of the low 32 bits. -/
def fold2 (x : Nat) : Nat := (List.range 16).foldl (fun a i => a ^^^ bitsOf x (2 * i) 2) 0

/-- The size of region `n` in bytes (R287). -/
def State.regionBytes (s : State) (n : Nat) : Nat :=
  s.rd F.memRegionCfg_SHARE n * 2 ^ 28 *
    (if s.rd F.memRegionCfg_MODE n = 0 then 4 * s.stacksPerDie else s.stacksPerDie)

/-- Region `n` is valid and covers a physical address. -/
def State.inRegion (s : State) (n pa : Nat) : Bool :=
  s.flag F.memRegionCfg_VALID n && s.rd F.memRegionCfg_BASE n * 2 ^ 28 ≤ pa &&
    pa < s.rd F.memRegionCfg_BASE n * 2 ^ 28 + s.regionBytes n

/-- The region that covers a physical address. -/
def State.regionOf (s : State) (pa : Nat) : Option Nat := (List.range 16).find? (fun n => s.inRegion n pa)

/-- The mapping of R288: stack and stack offset of a physical address in region `n`. -/
def State.decodeIn (s : State) (n pa : Nat) : Nat × Nat :=
  let a := pa - s.rd F.memRegionCfg_BASE n * 2 ^ 28
  let mode := s.rd F.memRegionCfg_MODE n
  let sb := s.rd F.memRegionCfg_STACK_BASE n * 2 ^ 28
  if mode = 0 then
    let p := a >>> 12
    let die := p % 4
    let (k, o) := if s.variant = .c then (bitsOf p 2 2 ^^^ fold2 (p >>> 4), (p >>> 4) <<< 12)
                  else (p / 4 % 5, (p / 20) <<< 12)
    (5 * die + k, o + a % 4096 + sb)
  else
    let q := a >>> 11
    let (k, o) := if s.variant = .c then (bitsOf q 0 2 ^^^ fold2 (q >>> 2), (q >>> 2) <<< 11)
                  else (q % 5, (q / 5) <<< 11)
    (5 * (mode - 1) + k, o + a % 2048 + sb)

/-- The channel of a stack offset (R288). -/
def chanOf (o : Nat) : Nat := bitsOf o 8 7 ^^^ bitsOf o 15 7

/-- What a physical address names. A stack address that no region covers, the unpopulated part of a tile-store
window, and every address outside the ranges is a hole (R285). -/
def State.place (s : State) (pa : Nat) : Place :=
  if pa < s.stackTop then
    match s.regionOf pa with
    | some n => let d := s.decodeIn n pa; .stack d.1 d.2
    | none => .hole
  else if 0x080000000000 ≤ pa ∧ pa < 0x080000000000 + 48 * 0x2000000 then
    let t := (pa - 0x080000000000) / 0x2000000
    let o := (pa - 0x080000000000) % 0x2000000
    if o < 0x1C00000 then .tile t o else .hole
  else if 0x0A0000000000 ≤ pa ∧ pa < 0x0B0000000000 then
    .loan ((pa - 0x0A0000000000) / 0x1000000000) ((pa - 0x0A0000000000) % 0x1000000000)
  else if 0x0C0000000000 ≤ pa ∧ pa < 0x0D0000000000 then .host (pa - 0x0C0000000000)
  else if 0x0F0000000000 ≤ pa ∧ pa < 0x0F0100000000 then .regs
  else .hole

/-! ### Retired channels (R301, R302) -/

/-- The place of a byte of a channel among the channel's own bytes: it has one 256-byte run in every 32 KiB. -/
def chanByte (o : Nat) : Nat := o / 2 ^ 15 * 256 + o % 256

/-- The piece of a channel that holds a stack offset: 2 MiB of the channel's own bytes. -/
def pieceOf (o : Nat) : Nat := chanByte o / 2 ^ 21

/-- Where byte `x` of a slot of die `d` stands (R302): its 2 KiB runs go over the reserves of the die's stacks in turn
(log entry 116). -/
def State.reserveKey (s : State) (d slot x : Nat) : Nat :=
  let r := slot * 393216 + x / 2048
  let m := s.stacksPerDie
  (5 * d + r % m) * 2 ^ 40 + (384 - s.rd F.memReserve_PER_STACK 0) * 2 ^ 28 + r / m * 2048 + x % 2048

/-- Where the byte at a stack offset stands: at the offset itself, or in the slot of its retired channel once its piece is
copied (R301 step 3). Stack `n` stands at `n·2^40`. -/
def State.homeKey (s : State) (n o : Nat) : Nat :=
  let k := 128 * n + chanOf o
  match look s.rel.slots k, look s.rel.copies k with
  | some slot, _ => s.reserveKey (n / 5) slot (chanByte o)
  | none, some c => if pieceOf o < c.piece then s.reserveKey (n / 5) c.slot (chanByte o) else n * 2 ^ 40 + o
  | none, none => n * 2 ^ 40 + o

/-- The address of a byte in the device's own memory: in the stacks, and in the tile stores above them. -/
def State.key (s : State) : Place → Option Nat
  | .stack n o => some (s.homeKey n o)
  | .tile t o => some (2 ^ 46 + t * 2 ^ 25 + o)
  | _ => none

/-- The PCIe address that a host-window offset reaches (R286). -/
def State.hostAddr (s : State) (off : Nat) : Nat := s.rd F.memHostBase_BASE * 4096 + off

/-- One byte at a physical address, without error correction; a place that holds no memory reads as zero. -/
def State.peek (s : State) (pa : Nat) : Byte :=
  match s.place pa with
  | .host o => s.host.read (s.hostAddr o)
  | p => match s.key p with
    | some k => s.mem.read k
    | none => 0

/-- `n` bytes from a physical address. -/
def State.peekN (s : State) (pa : Nat) : Nat → List Byte
  | 0 => []
  | n + 1 => s.peek pa :: s.peekN (pa + 1) n

/-- One byte written at a physical address. -/
def State.poke (s : State) (pa : Nat) (b : Byte) : State :=
  match s.place pa with
  | .host o => { s with host := s.host.write (s.hostAddr o) b }
  | p => match s.key p with
    | some k => { s with mem := s.mem.write k b }
    | none => s

/-- Bytes written from a physical address. -/
def State.pokeN (s : State) (pa : Nat) : List Byte → State
  | [] => s
  | b :: bs => (s.poke pa b).pokeN (pa + 1) bs

/-- A 64-bit number at a physical address. -/
def State.peek64 (s : State) (pa : Nat) : Nat := leNat (s.peekN pa 8)

/-! ### Granules and their codes -/

/-- Channel `c` of stack `n` is out of service (R320). -/
def State.chanOut (s : State) (n c : Nat) : Bool :=
  if c < 64 then (s.rd F.memChRetiredLo_OUT n).testBit c else (s.rd F.memChRetiredHi_OUT n).testBit (c - 64)

/-- Channel `c` of stack `n` is lost: out of service with no slot (R303). -/
def State.chanLost (s : State) (n c : Nat) : Bool :=
  s.chanOut n c && (look s.rel.slots (128 * n + c)).isNone && (look s.rel.copies (128 * n + c)).isNone

/-- The correction radius of the region that holds a stack offset; 4 outside every region (R293). -/
def State.radius (s : State) (n off : Nat) : Nat :=
  match (List.range 16).find? (fun r =>
      s.flag F.memRegionCfg_VALID r &&
      (s.rd F.memRegionCfg_MODE r == 0 || s.rd F.memRegionCfg_MODE r == n / 5 + 1) &&
      s.rd F.memRegionCfg_STACK_BASE r * 2 ^ 28 ≤ off &&
      off < (s.rd F.memRegionCfg_STACK_BASE r + s.rd F.memRegionCfg_SHARE r) * 2 ^ 28) with
  | some r => s.rd F.memRegionCfg_RADIUS r
  | none => 4

/-- A retrain of the channel's group is pending, so corrections are not written back (R294). -/
def State.retrainPending (s : State) (n c : Nat) : Bool := s.rel.retrain.contains (4 * n + c / 32)

/-! ### The outer code (R290, R293, R294) -/

/-- The four symbols of a lane. -/
def laneMask (l : Nat) : BitVec 72 := BitVec.ofNat 72 (0xF <<< (4 * l))

/-- How many symbols of a pattern are in error. -/
def badCount (x : BitVec 72) : Nat := (List.range 72).countP (fun i => x.getLsbD i)

/-- The lane whose four symbols a pattern includes. -/
def badLane (x : BitVec 72) : Option Nat := (List.range 18).find? (fun l => x &&& laneMask l == laneMask l)

/-- Consecutive corrections on a channel that include all four symbols of one lane: sixteen are the signature of a failed
lane, which schedules a retrain of the group (R300). -/
def State.watchLane (s : State) (n c : Nat) (bad : BitVec 72) : State :=
  let k := 128 * n + c
  match badLane bad with
  | none => if (look s.rel.sig k).isSome then { s with rel := { s.rel with sig := del s.rel.sig k } } else s
  | some l =>
    let run := match look s.rel.sig k with | some (l', m) => if l' = l then m + 1 else 1 | none => 1
    let s := { s with rel := { s.rel with sig := put s.rel.sig k (l, run) } }
    if run < 16 || s.retrainPending n c then s
    else { s with rel := { s.rel with retrain := s.rel.retrain ++ [4 * n + c / 32] } }

/-- A granule corrected by the outer code of the channel that holds it: counts and write-back (R294). -/
def State.corrected (s : State) (key : Nat) (bad : BitVec 72) : State :=
  let n := key / 2 ^ 40 % 64
  let c := chanOf (key % 2 ^ 40)
  let s := s.count F.memEccCount_CORRECTED n 1
  let s := s.lifeAdd (0x0340 + 8 * (128 * n + c)) 4 1
  let s := { s with rel := { s.rel with ceWin := put s.rel.ceWin (128 * n + c) (lookD s.rel.ceWin (128 * n + c) 0 + 1) } }
  let s := s.watchLane n c bad
  if s.retrainPending n c then s else { s with ecc := del s.ecc key }

/-- What the decoder makes of a granule at a radius (R293). -/
inductive Decoded where
  | clean
  | corrected
  | lost
  /-- A pattern heavier than the radius guarantees to detect, corrected to these bytes. -/
  | wrong (bytes : List Byte)
  deriving DecidableEq, Repr

def Gran.decode (g : Gran) (r : Nat) : Decoded :=
  let e := badCount g.bad
  if g.poison then .lost
  else if e = 0 then .clean
  else if e ≤ r then .corrected
  else if e ≤ 8 - r then .lost
  else match Config.heavyPattern g.stamp r with
    | some bs => .wrong bs
    | none => .lost

/-! ### The shared caches (R282, R304) -/

/-- The line of a granule of a stack, and its sector in it. -/
def lineOf (n o : Nat) : Nat := n * 2 ^ 32 + o / 256
def sectorOf (o : Nat) : Nat := o / 64 % 4

/-- The home cache holds the granule. -/
def State.cached (s : State) (n o : Nat) : Bool := (lookD s.cache (lineOf n o) {}).valid.getLsbD (sectorOf o)

/-- The granule is held and differs from the stack's copy. -/
def State.dirtyAt (s : State) (n o : Nat) : Bool := (lookD s.cache (lineOf n o) {}).dirty.getLsbD (sectorOf o)

/-- The dirty sectors of a line are written back: the stack's granules then carry fresh check symbols (R297). -/
def State.writeBack (s : State) (line : Nat) : State :=
  let n := line / 2 ^ 32
  let o := line % 2 ^ 32 * 256
  let l := lookD s.cache line {}
  let s := (List.range 4).foldl (fun s i =>
    if l.dirty.getLsbD i then { s with ecc := del s.ecc (s.homeKey n (o + 64 * i)) } else s) s
  if l.dirty = 0 then s else { s with cache := put s.cache line { l with dirty := 0 } }

/-- A line written back and given up. -/
def State.dropLine (s : State) (line : Nat) : State :=
  let s := s.writeBack line
  { s with cache := del s.cache line }

/-- Room for a line in its set of 16 ways, of the 12,288 sets of the home cache: when they are all taken, one line is given
up, and which one is the device's own choice (log entry 107). -/
def State.lineRoom (s : State) (line : Nat) : State :=
  let mates := s.cache.filter (fun e => e.1 / 2 ^ 32 / 5 == line / 2 ^ 32 / 5)
  if mates.length < 16 then s
  else
    let way := mates.filter (fun e => Config.cacheSet e.1 % 12288 == Config.cacheSet line % 12288)
    if way.length < 16 then s
    else
      let (v, s) := s.fresh
      match way[v.toNat % way.length]? with
      | some e => s.dropLine e.1
      | none => s

/-- A granule of a stack held by its home cache, dirty when it was written. -/
def State.cacheFill (s : State) (n o : Nat) (dirty : Bool) : State :=
  let line := lineOf n o
  let s := if (look s.cache line).isSome then s else s.lineRoom line
  let l := lookD s.cache line {}
  let bit : BitVec 4 := BitVec.ofNat 4 (1 <<< sectorOf o)
  { s with cache := put s.cache line { valid := l.valid ||| bit, dirty := if dirty then l.dirty ||| bit else l.dirty } }

/-- A granule given up without write-back. -/
def State.cacheForget (s : State) (n o : Nat) : State :=
  let line := lineOf n o
  match look s.cache line with
  | none => s
  | some l =>
    let keep : BitVec 4 := ~~~(BitVec.ofNat 4 (1 <<< sectorOf o))
    let l : CLine := { valid := l.valid &&& keep, dirty := l.dirty &&& keep }
    { s with cache := if l.valid = 0 then del s.cache line else put s.cache line l }

/-- A die writes back all its dirty lines (R304). -/
def State.flushDie (s : State) (d : Nat) : State :=
  ((s.cache.filter (fun e => e.1 / 2 ^ 32 / 5 == d)).map (·.1)).foldl State.writeBack s

/-- MEM_ERR_LOG takes the first lost granule while VALID = 0 (R322); one of a tile store or a shared cache names no
stack. -/
def State.logLost (s : State) (pa n c : Nat) (poison sram : Bool) : State :=
  if s.flag F.memErrLog_VALID then s
  else s.setReg Reg.memErrLog 0 (BitVec.ofNat 64
    (pa / 64 * 64 + n <<< 48 + c <<< 53 + b2n poison <<< 60 + b2n sram <<< 61 + 1 <<< 63))

/-- A lost granule read: counts and the error log (R296, R321, R322). -/
def State.lostRead (s : State) (pa : Nat) (p : Place) (poison : Bool) : State :=
  match p with
  | .stack n o =>
    let c := chanOf o
    ((s.count F.memEccCount_UNCORRECTABLE n 1).lifeAdd (0x0340 + 8 * (128 * n + c) + 4) 4 1).logLost pa n c poison false
  | _ => s.logLost pa 0 0 poison true

/-- A request to a die's stacks: it wakes their domain from RETAIN and is then served, and it restarts the domain's idle
period (R505, R506). A braced device wakes none (R535). -/
def State.touch (s : State) (p : Place) : State :=
  match p with
  | .stack n _ =>
    let d := dieDom (n / 5)
    if s.pwr.failed.contains d ∨ s.dev = Dev.braced then s
    else if s.dom d = Dom.retain ∨ (look s.pwr.down d).isSome then s.domUp d
    else if (look s.pwr.idle d).isSome then { s with pwr := { s.pwr with idle := del s.pwr.idle d } }
    else s
  | _ => s

/-- The stack's own read of a granule that stands at `key` (R293, R294): whether it is lost, with the code's counts, the
write-back of a corrected granule, and the error log. A pattern too heavy for the code may be corrected to other bytes. -/
def State.stackGran (s : State) (pa n o key : Nat) : Bool × State :=
  let g := lookD s.ecc key {}
  match g.decode (s.radius n o) with
  | .clean => (false, s)
  | .corrected => (false, s.corrected key g.bad)
  | .lost => (true, s.lostRead pa (.stack n o) g.poison)
  | .wrong bs => (false, { s with mem := s.mem.writeN key ((List.range 64).map (fun i => bs.getD i 0)) }.corrected key g.bad)

/-- Whether the granule at a physical address is lost when it is read, and the state after the read (R296, R304): a granule
of a lost channel is lost, one that the home cache holds is read there, any other is fetched from its stack. -/
def State.judgeGran (s : State) (pa : Nat) (p : Place) : Bool × State :=
  match p with
  | .stack n o =>
    if s.chanLost n (chanOf o) then (true, s.lostRead pa p false)
    else if s.cached n o then (false, s)
    else match s.stackGran pa n o (s.homeKey n o) with
      | (true, s) => (true, s)
      | (false, s) => (false, s.cacheFill n o false)
  | _ => match s.key p with
    | none => (false, s)
    | some key => if (lookD s.ecc key {}).poison then (true, s.lostRead pa p true) else (false, s)

/-- A read of the granule at a physical address. -/
def State.checkGran (s : State) (pa : Nat) : Bool × State :=
  let p := s.place (pa / 64 * 64)
  (s.touch p).judgeGran pa p

/-- The granule is lost, told without a read. -/
def State.granLost (s : State) (pa : Nat) : Bool :=
  let p := s.place (pa / 64 * 64)
  match s.key p with
  | none => false
  | some key =>
    let g := lookD s.ecc key {}
    match p with
    | .stack n o => s.chanLost n (chanOf o) || (!s.cached n o && (match g.decode (s.radius n o) with | .lost => true | _ => false))
    | _ => g.poison

/-- The granule lies on a lost channel (R303). -/
def State.granGone (s : State) (pa : Nat) : Bool :=
  match s.place (pa / 64 * 64) with
  | .stack n o => s.chanLost n (chanOf o)
  | _ => false

/-- Bytes written inside one granule; answers whether the write was made. A whole granule is allocated in its home cache
without being fetched; a part of one is a read-modify-write (R291, R304), suppressed when the granule is lost (R297); every
write to a lost channel is discarded (R303). -/
def State.writeGran (s : State) (pa : Nat) (bs : List Byte) : Bool × State :=
  let p := s.place (pa / 64 * 64)
  let s := s.touch p
  if s.granGone pa then (false, s)
  else match p with
  | .stack n o =>
    if bs.length = 64 then (true, (s.pokeN pa bs).cacheFill n o true)
    else match s.judgeGran pa p with
      | (true, s) => (false, s)
      | (false, s) => (true, (s.pokeN pa bs).cacheFill n o true)
  | _ =>
    if bs.length = 64 then
      (true, { s with ecc := match s.key p with | some key => del s.ecc key | none => s.ecc }.pokeN pa bs)
    else if s.granLost pa then (false, s)
    else (true, s.pokeN pa bs)

/-- A run of bytes cut at granule boundaries: (address, bytes). -/
def granCut : Nat → Nat → List Byte → List (Nat × List Byte)
  | 0, _, _ => []
  | _, _, [] => []
  | f + 1, pa, bs =>
    let n := 64 - pa % 64
    (pa, bs.take n) :: granCut f (pa + n) (bs.drop n)

/-- Bytes written from a physical address, granule by granule; answers whether every part was made. -/
def State.writePhys (s : State) (pa : Nat) (bs : List Byte) : Bool × State :=
  (granCut (bs.length + 1) pa bs).foldl
    (fun a g => let r := a.2.writeGran g.1 g.2; (a.1 && r.1, r.2)) (true, s)

/-- `n` bytes read from a physical address with the codes applied: the bytes, the lost granules met, the state. -/
def State.readPhys (s : State) (pa n : Nat) : List Byte × List Nat × State :=
  let grans := (List.range ((pa + n + 63) / 64 - pa / 64)).map (fun i => pa / 64 * 64 + 64 * i)
  let (lost, s) := grans.foldl (fun (a : List Nat × State) g =>
    let r := a.2.checkGran g
    (if r.1 then a.1 ++ [g] else a.1, r.2)) ([], s)
  (s.peekN pa n, lost, s)

/-- A granule stored poisoned (R297). -/
def State.poisonGran (s : State) (pa : Nat) : State :=
  let p := s.place (pa / 64 * 64)
  match s.key p with
  | some key =>
    let s := { s with ecc := put s.ecc key { poison := true } }
    (match p with
     | .stack n o => s.cacheForget n o
     | _ => s)
  | none => s

/-- The range lies wholly in the stack range. -/
def State.inStackRange (s : State) (pa n : Nat) : Bool := pa + n ≤ s.stackTop

end Sys2Proof.Machine
end

