-- ==== Sys2Proof/Machine/Conn.lean ====
section
/-!
DEFINITION. Connections (R452 to R458): the entries of the connection table, the ports, the versions that two sides
agree on, and the sending and receiving of GCT packets.
-/
namespace Sys2Proof.Machine

/-! ### The connection table (R452) -/

/-- The physical address of a connection's entry. -/
def State.connAddr (s : State) (c : Nat) : Nat := s.rd F.netConnTable_ADDR * 4096 + 64 * c

/-- The table lies wholly within the stack range. -/
def State.connTableOk (s : State) : Bool := s.inStackRange (s.rd F.netConnTable_ADDR * 4096) 262144

/-- A connection's entry; a table outside the stack range reads as zeros, KIND 0. -/
def State.connEntry (s : State) (c : Nat) : List Byte :=
  if s.connTableOk then s.peekN (s.connAddr c) 64 else List.replicate 64 0

abbrev Kind.gct : Nat := 1
abbrev Kind.roce : Nat := 2

abbrev ConnSt.closed : Nat := 0
abbrev ConnSt.opening : Nat := 1
abbrev ConnSt.opened : Nat := 2
abbrev ConnSt.lost : Nat := 3
abbrev ConnSt.failed : Nat := 4

def State.connKind (s : State) (c : Nat) : Nat := fieldAt (s.connEntry c) 0 0 2
def State.connCtx (s : State) (c : Nat) : Nat := fieldAt (s.connEntry c) 0 2 4
def State.connV6 (s : State) (c : Nat) : Bool := fieldAt (s.connEntry c) 0 6 1 == 1
def State.connRxQueue (s : State) (c : Nat) : Nat := fieldAt (s.connEntry c) 3 0 8
def State.connPeer (s : State) (c : Nat) : Nat := fieldAt (s.connEntry c) 4 0 16
def State.connIp (s : State) (c : Nat) : Nat := fieldAt (s.connEntry c) 8 0 128
/-- RX_ACCESS bit `b` is set. -/
def State.connMay (s : State) (c b : Nat) : Bool := (fieldAt (s.connEntry c) 27 0 8).testBit b
def State.connRkey (s : State) (c : Nat) : Nat := fieldAt (s.connEntry c) 28 0 32
def State.connBase (s : State) (c : Nat) : Nat := fieldAt (s.connEntry c) 32 0 64
def State.connBytes (s : State) (c : Nat) : Nat := fieldAt (s.connEntry c) 40 0 64
def State.connState (s : State) (c : Nat) : Nat := fieldAt (s.connEntry c) 56 0 3
/-- The negotiated version of interface `i` (R457); 0 = none. -/
def State.connVer (s : State) (c i : Nat) : Nat := fieldAt (s.connEntry c) 57 (4 * i) 4
def State.connEpoch (s : State) (c : Nat) : Nat := fieldAt (s.connEntry c) 60 0 32

/-- Bytes 56 to 63 of an entry written by the device. -/
def State.connWrite (s : State) (c state versions epoch : Nat) : State :=
  if s.connTableOk then (s.writePhys (s.connAddr c + 56) (natLE 1 state ++ natLE 3 versions ++ natLE 4 epoch)).2 else s

/-- STATE of an entry written; VERSIONS and EPOCH kept. -/
def State.connSetState (s : State) (c state : Nat) : State :=
  s.connWrite c state (fieldAt (s.connEntry c) 57 0 24) (s.connEpoch c)

/-- A GCT connection that is OPEN. -/
def State.gctOpen (s : State) (c : Nat) : Bool := s.connKind c == Kind.gct && s.connState c == ConnSt.opened

/-! ### Ports (R447, R449) -/

/-- A logical port is up. -/
def State.lpUp (s : State) (l : Nat) : Bool :=
  if l % 2 = 0 then s.flag F.netPortStatus_UP0 (l / 2) else s.flag F.netPortStatus_UP1 (l / 2)

/-- The logical ports that are up. -/
def State.upPorts (s : State) : List Nat := (List.range 24).filter s.lpUp

/-- The speed of a logical port in Gb/s; 0 = the mode gives it no MAC (R447). -/
def State.lpSpeed (s : State) (l : Nat) : Nat :=
  match s.rd F.netPortCfg_MODE (l / 2) with
  | 1 => if l % 2 = 0 then 800 else 0
  | 2 => 400
  | _ => 0

/-- The device's addresses on a logical port: IPv4 and IPv6 (R484), 0 = none. -/
def State.lpItem (s : State) (key l : Nat) : Nat :=
  match s.start.items.find? (fun e => e.1 == 1 && e.2.1 == key && e.2.2.1 % 256 == l) with
  | some e => e.2.2.2
  | none => 0
def State.lpIp4 (s : State) (l : Nat) : Nat := s.lpItem 2 l % 2 ^ 32
def State.lpIp6 (s : State) (l : Nat) : Nat := s.lpItem 3 l * 2 ^ 64 + s.lpItem 4 l
/-- The MAC address of a logical port (R447). -/
def State.lpMac (s : State) (l : Nat) : Nat := (s.item 1 1 0 0 % 2 ^ 48 + l) % 2 ^ 48

/-! ### Sending (R453, R454) -/

/-- PRIO of a connection. -/
def State.connPrio (s : State) (c : Nat) : Nat := fieldAt (s.connEntry c) 1 0 3

/-- The port that a packet with this sequence number leaves by: the up ports take turns (R454), those apart on which
a pause frame holds the connection's priority (R450). -/
def State.portFor (s : State) (c seq : Nat) : Option Nat :=
  let up := s.upPorts.filter (fun l => decide (lookD s.net.pauses (8 * l + s.connPrio c) 0 ≤ s.ivl))
  if up.isEmpty then none else up[seq % up.length]?

/-- A packet sent on an OPEN connection: it takes the next sequence number and is kept until it is acknowledged.
With no port up it waits for a resend. -/
def State.sendGct (s : State) (c : Nat) (m : GctMsg) : State :=
  if !s.gctOpen c then s
  else
    let x := s.conn c
    let iv := max 50000 (4 * x.rtt)
    let p := s.portFor c x.nextSeq
    let s := s.setConn c { x with
      nextSeq := (x.nextSeq + 1) % 2 ^ 32, sentAt := s.ivl,
      unacked := x.unacked ++ [{ seq := x.nextSeq, msg := m, sentAt := s.ivl, interval := iv, port := p.getD 24, firstAt := s.ivl }] }
    if p.isSome then s.emit (.gct c m) else s

/-- A packet that is not numbered: CAPS, acknowledgements and keepalives (log entry 23). -/
def State.sendPlain (s : State) (c : Nat) (m : GctMsg) : State :=
  if s.upPorts.isEmpty then s else s.emit (.gct c m)

/-- A loan-tier access of window `w` at an offset, as a request of its connection: a read of the whole granule, or a
write (R469). The lender is named the offset in its loan region. -/
def State.askLoan (s : State) (w off : Nat) (write : Option (List Byte)) : State :=
  let o := s.rd F.netLoanWin_OFFSET_GIB w * 2 ^ 30 + off
  let c := s.rd F.netLoanWin_CONN w
  match write with
  | none => s.sendGct c (.loan 5 [o / 64 * 64] [])
  | some b => s.sendGct c (.loan 6 [o] b)

/-! ### Receiving (R453, R454) -/

/-- Sequence number `a` comes before `b`. -/
def seqBefore (a b : Nat) : Bool := a != b && decide ((b + 2 ^ 32 - a) % 2 ^ 32 < 2 ^ 31)

/-- The next number expected once `n` more of the numbers seen are in sequence. -/
def advance (seen : List Nat) : Nat → Nat → Nat
  | 0, q => q
  | n + 1, q => if seen.contains q then advance seen n ((q + 1) % 2 ^ 32) else q

/-- The packet belongs to an OPEN connection and carries both current epochs (R453). -/
def State.hdrOk (s : State) (h : GctHdr) : Bool :=
  s.gctOpen h.conn.val && h.dstEpoch.toNat == s.connEpoch h.conn.val && h.srcEpoch.toNat == (s.conn h.conn.val).peerEpoch

/-- The connection of a held request. -/
def reqConn : Instr → Option Nat
  | .roceSend c _ => some c.val
  | .roceRdmaWrite c _ _ _ => some c.val
  | .roceRdmaRead c _ _ _ => some c.val
  | .gctTransferData h _ _ _ _ _ => some h.conn.val
  | _ => none

/-- A packet received: answers `none` when it is not applied (epochs, a repeated number, or, for an ordered kind, an
earlier packet still missing or held, so that the sender resends it: log entry 9), else the state with the number taken and
acknowledged (R454). -/
def State.receive (s : State) (h : GctHdr) (ordered : Bool) : Option State :=
  let c := h.conn.val
  let x := s.conn c
  let q := h.seq.toNat
  if !s.hdrOk h then none
  else if seqBefore q x.rxSeq || x.rxSeen.contains q then none
  else if ordered && (q != x.rxSeq || s.net.held.any (fun e => reqConn e.2 == some c)) then none
  else
    let seen := q :: x.rxSeen
    let nx := advance seen seen.length x.rxSeq
    let s := s.setConn c { x with heardAt := s.ivl, rxSeq := nx, rxSeen := seen.filter (fun k => !seqBefore k nx) }
    some (s.sendPlain c (.ack ((nx + 2 ^ 32 - 1) % 2 ^ 32) false))

/-! ### Versions (R457, R459) -/

/-- The version range that the device's firmware supports on interface `i`, as (min, max). -/
def verRange (i : Nat) : Nat × Nat :=
  match i with
  | 0 => (1, 2) | 1 => (1, 3) | 2 => (1, 2) | 3 => (1, 1) | 4 => (1, 1) | _ => (1, 2)

/-- The device's range with its ceiling applied. -/
def State.ownRange (s : State) (i : Nat) : Nat × Nat :=
  let r := verRange i
  let ceil := bitsOf (s.reg Reg.netVerCeiling 0).toNat (4 * i) 4
  (r.1, if ceil = 0 then r.2 else min r.2 ceil)

/-- The highest version within both ranges, or 0. -/
def common (a b : Nat × Nat) : Nat := if max a.1 b.1 ≤ min a.2 b.2 then min a.2 b.2 else 0

/-- A range as CAPS carries it: max in [7:4], min in [3:0]. -/
def capsRange (r : Nat × Nat) : Nat := r.2 * 16 + r.1
def rangeOf (b : Nat) : Nat × Nat := (b % 16, b / 16 % 16)

/-- The CAPS message of a connection (R453). -/
def State.capsMsg (s : State) (c : Nat) : GctMsg :=
  .caps (s.connEpoch c) ((List.range 6).map (fun i => capsRange (s.ownRange i)))
    ((s.upPorts.map s.lpIp4 ++ s.upPorts.map s.lpIp6).filter (· ≠ 0))

end Sys2Proof.Machine
end

