-- ==== Sys2Proof/Machine/Notice.lean ====
section
/-!
DEFINITION. Interrupts (R570), yo-yo queues (R393 to R409) and the delivery of notices (R32, R394, R499, R590).
-/
namespace Sys2Proof.Machine

/-! ### MSI-X (R570) -/

/-- A word of the MSI-X tables by vector: 0 address, 1 data, 2 control (bit 0 masks, set at reset), 3 pending. -/
def State.msixGet (s : State) (v w : Nat) : Nat := lookD s.msix (4 * v + w) (if w = 2 then 1 else 0)
def State.msixSet (s : State) (v w x : Nat) : State := { s with msix := put s.msix (4 * v + w) x }

/-- A vector is signalled: a masked vector sets its pending bit, another sends its message (R404). -/
def State.interrupt (s : State) (v : Nat) : State :=
  if s.msixGet v 2 % 2 = 1 then s.msixSet v 3 1 else s.emit (.msix v)

/-- The global number of vector `n` of a context's function (R570). -/
def ctxVector (c n : Nat) : Nat := 1024 + 64 * c + n

/-! ### Notices -/

/-- A notice about to be delivered (R590): code, severity, context, data path, control path, arguments. -/
structure Ntc where
  code : Nat
  sev : Nat
  ctx : Option Nat := none
  data : Nat
  ctrl : Nat
  a1 : Nat := 0
  a2 : Nat := 0
  a3 : Nat := 0
  /-- The notice names a context and goes to PF0 alone (R362, CTX_DISABLED). -/
  pf0Only : Bool := false
  deriving DecidableEq, Repr

abbrev Sev.info : Nat := 0
abbrev Sev.warn : Nat := 1
abbrev Sev.error : Nat := 2
abbrev Sev.fatal : Nat := 3

/-- The 32-byte record of a notice at device time `t` (R590). -/
def Ntc.record (n : Ntc) (t : Nat) : List Byte :=
  natLE 2 n.code ++ natLE 1 n.sev ++
  natLE 1 (match n.ctx with | some c => c + 16 | none => 0) ++
  natLE 4 n.data ++ natLE 4 n.ctrl ++ natLE 8 t ++ natLE 4 n.a1 ++ natLE 4 n.a2 ++ natLE 4 n.a3

/-! ### Queues -/

/-- The capacity of a queue (R397). -/
def State.queCap (s : State) (q : Nat) : Nat := 2 ^ s.rd F.queCfg_RING_LOG2 q / 32 + 32

/-- Entries that a packet still holds for the reader. -/
def Que.left (x : Que) (p : Pkt) : Nat := p.ents.length - (if x.reading = some p.seq then x.taken else 0)

/-- Committed entries present; a packet keeps its whole space until its last entry is taken (R403). -/
def Que.entries (x : Que) : Nat := (x.pkts.map (fun p => p.ents.length)).sum

/-- The head packet (R402): the one being read, or the oldest of the highest priority present. -/
def Que.head (x : Que) : Option Pkt :=
  match x.reading with
  | some q => x.pkts.find? (fun p => p.seq == q)
  | none =>
    let top := (x.pkts.map (·.prio)).foldl max 0
    x.pkts.find? (fun p => p.prio == top)

/-- The queue without the packet of a sequence number. -/
def Que.remove (x : Que) (q : Nat) : Que := { x with pkts := x.pkts.filter (fun p => p.seq != q) }

/-- The owner of a queue (R408). -/
def State.queOwner (s : State) (q : Nat) : Option Nat :=
  if q = 0 then none else if q ≤ 16 then some (q - 1)
  else if s.flag F.queCfg_ENABLE q then some (s.rd F.queCfg_CTX q) else none

/-- How a packet ended at a queue: committed or discarded as the victim, each with its SEQ, or dropped because the
queue is disabled (R401, R405, R407, R409). -/
inductive PutEnd where
  | committed (seq : Nat)
  | victim (seq : Nat)
  | dropped
  /-- A reset of the queue met the packet before it was committed (R401). -/
  | reset
  deriving DecidableEq, Repr

/-- The discarding of R405: victims fall until the incoming packet of `n` entries at priority `prio` fits, or is the
victim itself. Answers the queue, the entries and packets discarded, the last victim's priority, and whether the
incoming packet stays. -/
def makeRoom (cap n prio : Nat) : Nat → Que → Nat → Nat → Nat → Que × Nat × Nat × Nat × Bool
  | 0, x, e, p, lp => (x, e, p, lp, true)
  | f + 1, x, e, p, lp =>
    if x.entries + n ≤ cap then (x, e, p, lp, true)
    else
      let cand := x.pkts.filter (fun k => x.reading != some k.seq)
      let low := (cand.map (·.prio)).foldl min prio
      match cand.find? (fun k => k.prio == low) with
      | some k => makeRoom cap n prio f (x.remove k.seq) (e + k.ents.length) (p + 1) k.prio
      | none => (x, e + n, p + 1, prio, false)

/-- Entries discarded from a queue are counted as lost, in the register and in the life log (R405, R410). -/
def State.countLost (s : State) (q e p : Nat) : State :=
  ((s.count F.queLost_ENTRIES q e).count F.queLost_PACKETS q p).lifeAdd (lifeEvent 4) 8 e

/-- The notice that a queue makes for a packet it has committed (R404). -/
def State.queNotify (s : State) (q seq : Nat) : State :=
  match s.rd F.queNotify_MODE q with
  | 1 => s.interrupt (s.rd F.queNotify_VECTOR q)
  | 2 => (s.writePhys (s.rd F.queNotify_DB_ADDR q) (natLE 8 seq)).2
  | _ => s

/-- A notice about a queue: to queue 0, and to the owner's notice queue when the queue has an owner (R408). -/
def queNtc (code sev : Nat) (owner : Option Nat) (a1 a2 a3 : Nat) : Ntc :=
  { code := code, sev := sev, ctx := owner, data := Unit.hub, ctrl := Path.pup, a1 := a1, a2 := a2, a3 := a3 }

/-- A packet put into a queue by a producer: the end, the state, and the notices that the put itself raises. -/
def State.quePut (s : State) (q prio : Nat) (ents : List (List Byte)) (producer : Nat) : PutEnd × State × List Ntc :=
  let x := s.que q
  if !s.flag F.queCfg_ENABLE q then
    let drops := x.drops + 1
    let due := match x.dropAt with | some t => decide (t + 1000000000 ≤ s.ivl) | none => true
    if due then
      (.dropped, s.setQue q { x with drops := 0, dropAt := some s.ivl },
        [queNtc 0x0604 Sev.info none q drops producer])
    else (.dropped, s.setQue q { x with drops := drops }, [])
  else
    let n := ents.length
    let (y, e, p, lp, stays) := makeRoom (s.queCap q) n prio (x.pkts.length + 1) x 0 0 0
    let s := if e = 0 then s else s.countLost q e p
    let seq := x.seq
    let y := { y with seq := (seq + 1) % 2 ^ 32 }
    let due := e ≠ 0 ∧ (!x.told ∨ x.toldAt + 1000000000 ≤ s.ivl)
    let since := x.since + e
    let ntcs := if due then [queNtc 0x0602 Sev.warn (s.queOwner q) q since lp] else []
    let y := if due then { y with told := true, toldAt := s.ivl, since := 0 }
             else if e = 0 then y else { y with since := since }
    if stays then
      let s := s.setQue q { y with pkts := y.pkts ++ [{ seq := seq, prio := prio, ents := ents }] }
      (.committed seq, s.queNotify q seq, ntcs)
    else (.victim seq, s.setQue q y, ntcs)

/-- What the forced reset of R407 does to a queue whose pointer copies differ, and the notice that it raises. -/
def State.queReset (s : State) (q : Nat) : State × Ntc :=
  let x := s.que q
  let e := (x.pkts.map x.left).sum
  let s := s.countLost q e x.pkts.length
  let s := (s.count F.queLost_RESETS q 1).lifeAdd (lifeEvent 5) 8 1
  let s := s.setQue q { x with pkts := [], reading := none, taken := 0 }
  let s := if q = 0 then s.wr F.hubHealth_ERRQ_RESET 0 1 else s
  (s, queNtc 0x0601 Sev.error (s.queOwner q) q e (s.rd F.queLost_RESETS q))

/-- A comparison of the two copies of a queue's pointers (R407). Whether they differ is a free choice (log entry 20). -/
def State.ptrsDiffer (s : State) : Bool × State := (Config.ptrMismatch s.nfree, { s with nfree := s.nfree + 1 })

/-- A notice's record put into its queue, with the notices that this raises. A mismatch of the pointers discards it with
the queue's content (R407). -/
def State.noticePut (s : State) (q : Nat) (n : Ntc) (r : List Byte) : State × List Ntc :=
  if !s.flag F.queCfg_ENABLE q then let (_, s, m) := s.quePut q n.sev [r] 1; (s, m)
  else match s.ptrsDiffer with
    | (true, s) => let (s, m) := s.queReset q; (s, [m])
    | (false, s) => let (_, s, m) := s.quePut q n.sev [r] 1; (s, m)

/-- A management core is being restarted (R524). -/
def State.coreHalted (s : State) (k : Nat) : Bool := s.rel.halted.any (fun h => h.1 == k)

/-- The core that does the standing duties of core `k`: itself, or once it is retired the next in number order (R523,
R526). -/
def State.dutyCore (s : State) (k : Nat) : Nat :=
  (((List.range 4).map (fun i => (k + i) % 4)).find? (fun c => !(s.rd F.mgtCores_RETIRED).testBit c)).getD k

/-- The duties of core `k` pause (R524). -/
def State.dutyHeld (s : State) (k : Nat) : Bool := s.coreHalted (s.dutyCore k)

/-- The core that does core 0's duties is being restarted, so notices wait (R524). -/
def State.noticesHeld (s : State) : Bool := s.dutyHeld 0

/-- One notice into its queues, with the notices that this itself raises (R32, R394, R590). Before queue 0 is first
enabled in a start the notice is kept, the newest 256 of them (R499). -/
def State.deliver (s : State) (n : Ntc) : State × List Ntc :=
  let s := if n.sev = Sev.fatal then s.wr F.hubHealth_FATAL_SEEN 0 1 else s
  let r := n.record s.time
  if s.start.keeping then
    let k := s.start.kept ++ [r]
    ({ s with start := { s.start with kept := k.drop (k.length - 256) } }, [])
  else
    let (s, m0) := s.noticePut 0 n r
    match n.ctx, n.pf0Only with
    | some c, false => let (s, m1) := s.noticePut (1 + c) n r; (s, m0 ++ m1)
    | _, _ => (s, m0)

/-- A notice delivered, and then the notices that its own delivery raises: their number is bounded, because each
kind but that of a mismatch is raised at most once per second for each queue (R406, R409; log entry 20). -/
def State.raiseN : Nat → State → Ntc → State
  | 0, s, _ => s
  | f + 1, s, n => let (s, m) := s.deliver n; m.foldl (State.raiseN f) s

/-- A notice is raised. While core 0's duties pause, notices are held, at most 256 for each Bar, and those beyond are
counted as queue loss (R524). -/
def State.raise (s : State) (n : Ntc) : State :=
  if s.noticesHeld then
    let held := s.rel.held
    if (held.filter (fun h => h.1 == n.ctrl % 8)).length < 256 then
      { s with rel := { s.rel with held := held ++ [(n.ctrl % 8, [n.code, n.sev, (match n.ctx with | some c => c + 1 | none => 0), n.data, n.ctrl, n.a1, n.a2, n.a3, b2n n.pf0Only])] } }
    else s.lifeAdd (lifeEvent 4) 8 1
  else State.raiseN 4 s n

/-- The registers that the delivery of a notice may write: what is counted and logged, and the power state of the domain
that a doorbell address wakes. -/
abbrev toldRegs : List Nat := [Reg.queLost, Reg.hubHealth, Reg.pwrDomStatus, Reg.memEccCount, Reg.memErrLog]

/-- A held notice delivered once its core is back (R524). -/
def State.raiseHeld (s : State) : List (Nat × List Nat) → State
  | [] => s
  | (_, [c, v, x, d, p, a, b, e, o]) :: t =>
    (State.raiseN 4 s { code := c, sev := v, ctx := if x = 0 then none else some (x - 1), data := d, ctrl := p,
                        a1 := a, a2 := b, a3 := e, pf0Only := o == 1 }).raiseHeld t
  | _ :: t => s.raiseHeld t

/-- The bad packet of R399: the tail is rewound, the packet is counted and the notice raised. -/
def State.queRewind (s : State) (q n producer : Nat) : State :=
  (s.count F.queLost_REWOUND q 1).raise (queNtc 0x0603 Sev.warn (s.queOwner q) q n producer)

/-- The forced reset of R407, with its notice raised. -/
def State.queForcedReset (s : State) (q : Nat) : State := let (s, n) := s.queReset q; s.raise n

/-- A pointer update compares the two copies, and a mismatch resets the queue (R407; log entry 20). -/
def State.quePointers (s : State) (q : Nat) : Bool × State :=
  match s.ptrsDiffer with
  | (true, s) => (false, s.queForcedReset q)
  | (false, s) => (true, s)

/-- A packet put into a queue, with its notices raised. -/
def State.enqueue (s : State) (q prio : Nat) (ents : List (List Byte)) (producer : Nat) : PutEnd × State :=
  if !s.flag F.queCfg_ENABLE q then
    let (r, s, m) := s.quePut q prio ents producer
    (r, m.foldl State.raise s)
  else match s.quePointers q with
    | (false, s) => (.reset, s)
    | (true, s) =>
      let (r, s, m) := s.quePut q prio ents producer
      (r, m.foldl State.raise s)

/-- The head packet is freed (R403). -/
def State.queSkip (s : State) (q : Nat) : State :=
  let x := s.que q
  match x.head with
  | some p => s.setQue q { x.remove p.seq with reading := none, taken := 0 }
  | none => s

/-- All committed content is discarded without being counted as lost (R409, R411). -/
def State.queFlush (s : State) (q : Nat) : State :=
  s.setQue q { s.que q with pkts := [], reading := none, taken := 0 }

/-- The current entry of the head packet, as 32 bytes; zeros when the queue is empty (R403, R411). -/
def Que.entry (x : Que) : List Byte :=
  match x.head with
  | some p => (p.ents.drop (if x.reading = some p.seq then x.taken else 0)).headD (List.replicate 32 0)
  | none => List.replicate 32 0

/-- The read of word 3 of QUE_ENTRY: the reader takes the current entry, and the last one frees the packet (R403). -/
def State.queAdvance (s : State) (q : Nat) : State :=
  let x := s.que q
  match x.head with
  | none => s
  | some p =>
    let n := (if x.reading = some p.seq then x.taken else 0) + 1
    if n ≥ p.ents.length then s.setQue q { x.remove p.seq with reading := none, taken := 0 }
    else s.setQue q { x with reading := some p.seq, taken := n }

/-- QUE_STATUS as computed from the queue (R411); no producer ever holds the tail between commands. -/
def State.queStatus (s : State) (q : Nat) : Nat :=
  let x := s.que q
  x.entries + x.pkts.length <<< 24 +
  ((List.range 4).map (fun p => b2n (x.pkts.any (fun k => k.prio == p)) <<< (48 + p))).sum +
  b2n x.reading.isSome <<< 52

/-- QUE_HEAD_PKT as computed from the queue (R411). -/
def State.queHeadPkt (s : State) (q : Nat) : Nat :=
  let x := s.que q
  match x.head with
  | none => 0
  | some p => p.ents.length + p.prio <<< 7 + (if x.reading = some p.seq then x.taken else 0) <<< 9 + p.seq <<< 16

end Sys2Proof.Machine
end

