-- ==== Sys2Proof/Machine/Cores.lean ====
section
/-!
DEFINITION. The management cores (R523 to R526): their duties, their restarts, their retirement and the cross-check of
actions; and the DEGRADED causes (R517 to R519), one of which a retired core is.
-/
namespace Sys2Proof.Machine

/-- A notice of the hub itself: data path H, control path PUP. -/
def hubNtc (code sev a1 a2 a3 : Nat) : Ntc :=
  { code := code, sev := sev, data := Unit.hub, ctrl := Path.pup, a1 := a1, a2 := a2, a3 := a3 }

/-! ### DEGRADED causes (R517 to R519) -/

abbrev Cse.channel : Nat := 0
abbrev Cse.tiles : Nat := 1
abbrev Cse.ceRate : Nat := 2
abbrev Cse.puf : Nat := 3
abbrev Cse.wear : Nat := 4
abbrev Cse.coolant : Nat := 5
abbrev Cse.records : Nat := 6
abbrev Cse.core : Nat := 7

/-- A cause comes into force: REPLACE_REQUEST, and DEGRADED in place of READY. -/
def State.setCause (s : State) (b detail : Nat) : State :=
  let cs := s.rd F.mgtDegraded_CAUSES
  if cs.testBit b then s
  else
    let s := (s.wr F.mgtDegraded_CAUSES 0 (setBits cs b 1 1)).wr F.mgtDegraded_SEEN 0 (setBits (s.rd F.mgtDegraded_SEEN) b 1 1)
    let s := s.raise (hubNtc 0x0E01 Sev.warn b (s.rd F.mgtDegraded_CAUSES) detail)
    if s.dev = Dev.ready then s.goto Dev.degraded else s

/-- A cause is no longer in force. -/
def State.clearCause (s : State) (b : Nat) : State :=
  let cs := s.rd F.mgtDegraded_CAUSES
  if !cs.testBit b then s
  else
    let s := s.wr F.mgtDegraded_CAUSES 0 (setBits cs b 1 0)
    let s := s.raise (hubNtc 0x0E02 Sev.info b (s.rd F.mgtDegraded_CAUSES) 0)
    if s.dev = Dev.degraded ∧ s.rd F.mgtDegraded_CAUSES = 0 then s.goto Dev.ready else s

/-! ### Restarts (R524, R526) -/

/-- A core runs: it is up, and not being restarted. -/
def State.coreRuns (s : State) (k : Nat) : Bool := (s.rd F.mgtCores_UP).testBit k && !s.coreHalted k

/-- Notices held while core 0's duties paused are delivered once these have a core again. -/
def State.releaseNotices (s : State) : State :=
  if s.noticesHeld || s.rel.held == [] then s
  else { s with rel := { s.rel with held := [] } }.raiseHeld s.rel.held

/-- Restarts of the last 10 min. -/
def State.recentRestarts (s : State) : List (Nat × Nat) := s.rel.restarts.filter (fun r => decide (s.ivl < r.2 + 600000000000))

/-- A core is retired for the start: its duties move on, and cause MGMT_CORE comes into force (R526). -/
def State.retireCore (s : State) (core cause : Nat) : State :=
  let s := s.wr F.mgtCores_RETIRED 0 (setBits (s.rd F.mgtCores_RETIRED) core 1 1)
  let s := { s with rel := { s.rel with halted := s.rel.halted.filter (fun h => h.1 != core) } }
  let s := s.raise (hubNtc 0x0E04 Sev.error core cause (s.rd F.mgtCores_UP))
  (s.setCause Cse.core 0).releaseNotices

/-- A core is halted and restarted alone, for cause 1 heartbeat, 2 memory error or 3 cross-check. Its third restart
within 10 min retires it; an armed activation is prepared again (R565). A second core is not retired, because the watchdog then orders a warm reset (R526). -/
def State.restartCore (s : State) (core cause : Nat) : State :=
  if !s.coreRuns core then s
  else
    let rs := s.recentRestarts ++ [(core, s.ivl)]
    let n := (rs.filter (fun r => r.1 == core)).length
    let s := ((s.count F.mgtCores_RESTARTS 0 1).wr F.mgtCores_LAST_CORE 0 core).wr F.mgtCores_LAST_CAUSE 0 cause
    let s := (s.wr F.mgtCores_UP 0 (setBits (s.rd F.mgtCores_UP) core 1 0)).lifeAdd 32 4 1
    let s := if s.rd F.secActStatus_STATE = 2 then s.wr F.secActStatus_STATE 0 1 else s
    let s := { s with rel := { s.rel with restarts := rs, halted := s.rel.halted ++ [(core, cause, s.ivl)] } }
    let s := s.raise (hubNtc 0x0E03 Sev.warn core cause n)
    if n < 3 || s.rd F.mgtCores_RETIRED != 0 then s else s.retireCore core cause

/-- The restart of a core ends, and the duties that it paused go on. -/
def State.coreBack (s : State) (core : Nat) : State :=
  if !s.coreHalted core then s
  else
    let s := s.wr F.mgtCores_UP 0 (setBits (s.rd F.mgtCores_UP) core 1 1)
    { s with rel := { s.rel with halted := s.rel.halted.filter (fun h => h.1 != core) } }.releaseNotices

/-! ### The cross-check (R525) -/

abbrev Act.nvm : Nat := 1
abbrev Act.retire : Nat := 2
abbrev Act.step : Nat := 3

/-- The core that owns an action by its duties (R523), and the core that checks it. -/
def State.actOwner (s : State) (act : Nat) : Nat := s.dutyCore (if act = Act.nvm then 3 else if act = Act.retire then 1 else 2)
def State.actChecker (s : State) (act : Nat) : Nat := s.dutyCore ((s.actOwner act + 1) % 4)

/-- Whether an action passes its cross-check, once or when computed once more. Whether the two cores differ twice is a
free choice (log entry 19); then the action is not performed and both cores restart. -/
def State.crossCheck (s : State) (act : Nat) : Bool × State :=
  let bad := Config.crossFails s.nfree
  let s := { s with nfree := s.nfree + 1 }
  if !bad then (true, s)
  else
    let o := s.actOwner act
    let k := s.actChecker act
    let s := s.raise (hubNtc 0x0E05 Sev.error act o k)
    (false, (s.restartCore o 3).restartCore k 3)

/-! ### The commands -/

/-- CORE_HEARTBEAT_LAPSE (R524). -/
def execCoreHeartbeatLapse (core : Fin 4) (s : State) : Host.Outcome State Fault Refusal := .next (s.restartCore core.val 1)

/-- CORE_MEMORY_ERROR (R524). -/
def execCoreMemoryError (core : Fin 4) (s : State) : Host.Outcome State Fault Refusal := .next (s.restartCore core.val 2)

/-- CORE_RESTART_DONE (R524). -/
def execCoreRestartDone (core : Fin 4) (s : State) : Host.Outcome State Fault Refusal := .next (s.coreBack core.val)

end Sys2Proof.Machine
end

