-- ==== Sys2Proof/Machine/Mmu.lean ====
section
/-!
DEFINITION. Address translation (R327 to R332, R621) and the reads and writes that the units of commands make
through it: what they deliver, the lost granules they meet, and the faults that stop them.
-/
namespace Sys2Proof.Machine

/-- The kinds of access of R332. -/
inductive AccKind where
  | read
  | write
  /-- An atomic or a reduce-on-write. -/
  | atomic
  deriving DecidableEq, Repr

def AccKind.writes : AccKind → Bool
  | .read => false
  | _ => true

/-- Lost granules counted once (R298). -/
def joinLost (a b : List Nat) : List Nat := a ++ b.filter (fun g => !a.contains g)

/-- Why an access does not go through: a fatal cause of R361, or a resolvable fault of R335. -/
inductive Why where
  | fatal (cause : Nat)
  | stall (kind : StallKind)
  deriving DecidableEq, Repr

/-- A fault met by a unit: why, the address, whether by a write, and the page-table entry (address and value). -/
structure Flt where
  why : Why
  va : Nat
  write : Bool
  pte : Nat := 0
  entry : Nat := 0
  deriving DecidableEq, Repr

abbrev Cause.noRoot : Nat := 1
abbrev Cause.vaRange : Nat := 2
abbrev Cause.unmapped : Nat := 3
abbrev Cause.malformed : Nat := 4
abbrev Cause.tableTier : Nat := 5
abbrev Cause.frameRange : Nat := 6
abbrev Cause.noFrame : Nat := 7
abbrev Cause.migrateTimeout : Nat := 8
abbrev Cause.readOnly : Nat := 9
abbrev Cause.frozen : Nat := 10
abbrev Cause.register : Nat := 11
abbrev Cause.atomicTier : Nat := 12
abbrev Cause.loanUnbound : Nat := 13
abbrev Cause.loanLost : Nat := 14

abbrev St.ok : Nat := 0x00
abbrev St.okEmpty : Nat := 0x01
abbrev St.faultTranslation : Nat := 0x10
abbrev St.faultPermission : Nat := 0x11
abbrev St.ptUnstable : Nat := 0x12
abbrev St.beadTimeout : Nat := 0x20
abbrev St.beadBroken : Nat := 0x21
abbrev St.beadOverflow : Nat := 0x22
abbrev St.beadUnderflow : Nat := 0x23
abbrev St.dataLoss : Nat := 0x30
abbrev St.unitAbsent : Nat := 0x40
abbrev St.abortedDisable : Nat := 0x41
abbrev St.preempted : Nat := 0x42
abbrev St.abortedCommit : Nat := 0x43
abbrev St.descInvalid : Nat := 0x50
abbrev St.fmtUnsupported : Nat := 0x51
abbrev St.versionMismatch : Nat := 0x52
abbrev St.loanLost : Nat := 0x60
abbrev St.peerLost : Nat := 0x61

/-- The status that a fatal cause gives (R361). -/
def causeStatus (c : Nat) : Nat :=
  if c = 14 then St.loanLost else if 9 ≤ c ∧ c ≤ 12 then St.faultPermission else St.faultTranslation

/-- A field of a page-table entry (R329). -/
abbrev Pte.valid (e : Nat) : Bool := e.testBit 0
abbrev Pte.leaf (e : Nat) : Bool := e.testBit 1
abbrev Pte.tier (e : Nat) : Nat := bitsOf e 2 2
abbrev Pte.ro (e : Nat) : Bool := e.testBit 4
abbrev Pte.frozen (e : Nat) : Bool := e.testBit 5
abbrev Pte.cow (e : Nat) : Bool := e.testBit 6
abbrev Pte.size (e : Nat) : Nat := bitsOf e 7 2
abbrev Pte.note (e : Nat) : Nat := bitsOf e 9 2
abbrev Pte.addr (e : Nat) : Nat := bitsOf e 12 36 * 4096
abbrev Pte.vgroup (e : Nat) : Nat := bitsOf e 48 13

/-- The bytes that a leaf of a size code maps. -/
def Pte.span (e : Nat) : Nat := if Pte.size e = 0 then 2 ^ 16 else if Pte.size e = 1 then 2 ^ 21 else 2 ^ 30

/-- A valid entry at a level breaks R330. -/
def Pte.bad (level e : Nat) : Bool :=
  bitsOf e 11 1 != 0 || bitsOf e 61 3 != 0 || Pte.note e != 0 ||
  (if Pte.leaf e then
    level < 2 || Pte.size e == 3 || (level == 2 && Pte.size e != 2) || (level == 3 && Pte.size e == 2) ||
    Pte.addr e % Pte.span e != 0 || (Pte.cow e && Pte.size e != 0)
  else level == 3 || bitsOf e 2 7 != 0 || Pte.vgroup e != 0)

/-- How a walk ends (R332 steps 1 to 5, R621): a leaf with its entry's place and the physical address, a fault, or
a lost granule of a table. -/
inductive Walk where
  | page (pte entry pa : Nat)
  | fault (why : Why) (pte entry : Nat)
  | lost (gran : Nat)
  deriving DecidableEq, Repr

/-- Who walks: the translation cache of the walking unit, if it has one, the context, and the translation root. -/
structure Walker where
  cache : Option Nat
  ctx : Nat
  root : Nat
  deriving DecidableEq, Repr

/-- The translation cache of a unit (R333): a tile's, or that of a die's bar; the hub's units have none. -/
def tlbOf (u : Nat) : Option Nat :=
  if u / 4096 = 2 then some (u % 4096) else if u / 4096 = 1 ∧ u ≠ Unit.hub then some (48 + u % 4096) else none

/-- The die of a translation cache, and how many translations it holds (R333). -/
def tlbDie (who : Nat) : Nat := if who < 48 then who / 12 else who - 48
def tlbSize (who : Nat) : Nat := if who < 48 then 512 else 256

/-- The levels of a walk below a table at `tab`, for `f` levels still to go (R327, R332, R621): how it ends, and the tables
that valid entries on the way named, with their levels. The entries are read through their home caches (R331). -/
def State.walkAt (va : Nat) : Nat → Nat → State → Walk × List (Nat × Nat) × State
  | 0, _, s => (.fault (.fatal Cause.malformed) 0 0, [], s)
  | f + 1, tab, s =>
    let level := 3 - f
    let pte := tab + 8 * bitsOf va (16 + 9 * f) 9
    match s.place pte with
    | .stack _ _ =>
      (match s.checkGran pte with
       | (true, s) => (.lost (pte / 64 * 64), [], s)
       | (false, s) =>
         let e := s.peek64 pte
         if !Pte.valid e then
           match Pte.note e with
           | 0 => (.fault (.fatal Cause.unmapped) pte e, [], s)
           | 1 => (.fault (.stall .loan) pte e, [], s)
           | 2 => (.fault (.stall .migrate) pte e, [], s)
           | _ => (.fault (.fatal Cause.malformed) pte e, [], s)
         else if Pte.bad level e then (.fault (.fatal Cause.malformed) pte e, [], s)
         else if Pte.leaf e then (.page pte e (Pte.addr e + va % Pte.span e), [], s)
         else
           let (w, ts, s) := State.walkAt va f (Pte.addr e) s
           (w, (level, Pte.addr e) :: ts, s))
    | _ => (.fault (.fatal Cause.tableTier) pte 0, [], s)

/-- The index bits of an address down to a level. -/
def levelIndex (level va : Nat) : Nat := va / 2 ^ (43 - 9 * level)

/-- The deepest table that the upper-level entries of a die name for an address: its level and its place (R333). -/
def State.topFor (s : State) (die c va : Nat) : Option (Nat × Nat) :=
  let find (level : Nat) := s.tlb.tops.find? (fun t => t.die == die && t.ctx == c && t.level == level && t.index == levelIndex level va)
  match find 2, find 1, find 0 with
  | some t, _, _ => some (3, t.table)
  | none, some t, _ => some (2, t.table)
  | none, none, some t => some (1, t.table)
  | none, none, none => none

/-- A full cache gives up one of its entries, which one is its own choice (log entry 25). -/
def State.victim (s : State) (n size : Nat) : Option Nat × State :=
  if n < size then (none, s) else let (v, s) := s.fresh; (some (v.toNat % n), s)

/-- An upper-level entry kept by a die. -/
def State.addTop (s : State) (die c va : Nat) (t : Nat × Nat) : State :=
  let new : TlbTop := { die := die, ctx := c, level := t.1, index := levelIndex t.1 va, table := t.2 }
  if s.tlb.tops.contains new then s
  else
    let mine := s.tlb.tops.filter (fun e => e.die == die)
    let (v, s) := s.victim mine.length 64
    let tops := match v.bind (mine[·]?) with | some e => s.tlb.tops.erase e | none => s.tlb.tops
    { s with tlb := { s.tlb with tops := tops ++ [new] } }

/-- A leaf kept by a unit's cache. -/
def State.addLeaf (s : State) (who c va pte entry : Nat) : State :=
  let mine := s.tlb.leaves.filter (fun e => e.who == who)
  let (v, s) := s.victim mine.length (tlbSize who)
  let leaves := match v.bind (mine[·]?) with | some e => s.tlb.leaves.erase e | none => s.tlb.leaves
  { s with tlb := { s.tlb with leaves := leaves ++
      [{ who := who, ctx := c, base := va / Pte.span entry * Pte.span entry, pte := pte, entry := entry }] } }

/-- The walk of a virtual address from the deepest table that the walker's die holds (R327, R328, R332, R333). What valid
entries name is kept, but nothing of a walk that meets a lost granule (R621). -/
def State.walk (s : State) (w : Walker) (va : Nat) : Walk × State :=
  let start := (w.cache.bind (fun who => s.topFor (tlbDie who) w.ctx va)).getD (0, bitsOf w.root 12 36 * 4096)
  let (r, ts, s) := State.walkAt va (4 - start.1) start.2 s
  match w.cache, r with
  | none, _ => (r, s)
  | some _, .lost _ => (r, s)
  | some who, .page pte e _ => (r, (ts.foldl (fun s t => s.addTop (tlbDie who) w.ctx va t) s).addLeaf who w.ctx va pte e)
  | some who, .fault _ _ _ => (r, ts.foldl (fun s t => s.addTop (tlbDie who) w.ctx va t) s)

/-- The translation that a unit's cache holds for an address. -/
def State.leafFor (s : State) (w : Walker) (va : Nat) : Option TlbLeaf :=
  w.cache.bind (fun who => s.tlb.leaves.find? (fun e => e.who == who && e.ctx == w.ctx &&
    decide (e.base ≤ va ∧ va < e.base + Pte.span e.entry)))

/-- Every translation of a context that touches a range of pages leaves every cache; no pages = the whole context (R334,
R355). -/
def State.invalidate (s : State) (c vpn count : Nat) : State :=
  let hit (base span : Nat) : Bool :=
    count == 0 || decide (base < (vpn + count) * 65536 ∧ vpn * 65536 < base + span)
  { s with tlb :=
      { leaves := s.tlb.leaves.filter (fun e => !(e.ctx == c && hit e.base (Pte.span e.entry))),
        tops := s.tlb.tops.filter (fun e => !(e.ctx == c && hit (e.index * 2 ^ (43 - 9 * e.level)) (2 ^ (43 - 9 * e.level)))) } }

/-- The place lies in the range of a tier code (R281), in memory that exists (R332 step 7). -/
def State.tierOk (s : State) (tier : Nat) (p : Place) : Bool :=
  match tier, p with
  | 0, .tile t _ => s.tilePresent t
  | 1, .stack _ _ => true
  | 2, .loan w o => s.rd F.netLoanWin_STATE w != 2 || o < s.rd F.netLoanWin_SIZE_GIB w * 2 ^ 30
  | 3, .host _ => true
  | _, _ => false

/-- What an access to a virtual address finds (R332 steps 6 to 12). -/
inductive Xlat where
  | ok (pa entry : Nat)
  | fault (f : Flt)
  | lost (gran : Nat)
  deriving DecidableEq, Repr

/-- What an access to a leaf's page finds (R332 steps 6 to 12). -/
def State.access (s : State) (va : Nat) (k : AccKind) (pte e pa : Nat) : Xlat :=
  let bad (w : Why) : Xlat := .fault { why := w, va := va, write := k.writes, pte := pte, entry := e }
  let p := s.place pa
  if p = .regs then bad (.fatal Cause.register)
  else if !s.tierOk (Pte.tier e) p then bad (.fatal Cause.frameRange)
  else if k.writes && Pte.frozen e then bad (.fatal Cause.frozen)
  else if k.writes && Pte.ro e then bad (.fatal Cause.readOnly)
  else if k.writes && Pte.cow e then bad (.stall .cow)
  else if k = .atomic ∧ Pte.tier e ≠ 1 then bad (.fatal Cause.atomicTier)
  else match p with
    | .loan w _ =>
      if s.rd F.netLoanWin_STATE w = 3 then bad (.fatal Cause.loanLost)
      else if s.rd F.netLoanWin_STATE w ≠ 2 then bad (.fatal Cause.loanUnbound)
      else .ok pa e
    | _ => .ok pa e

/-- Translation of one access (R332, R333): the root and the address are checked, and a cached translation stands for the
walk. -/
def State.xlat (s : State) (w : Walker) (va : Nat) (k : AccKind) : Xlat × State :=
  let bad (cause : Nat) : Xlat := .fault { why := .fatal cause, va := va, write := k.writes }
  if !w.root.testBit 0 then (bad Cause.noRoot, s)
  else if va / 2 ^ 52 ≠ 0 then (bad Cause.vaRange, s)
  else match s.leafFor w va with
  | some l => (s.access va k l.pte l.entry (Pte.addr l.entry + va % Pte.span l.entry), s)
  | none =>
    match s.walk w va with
    | (.lost g, s) => (.lost g, s)
    | (.fault y pte e, s) => (.fault { why := y, va := va, write := k.writes, pte := pte, entry := e }, s)
    | (.page pte e pa, s) => (s.access va k pte e pa, s)

/-- What a walk with no cache finds, looked at without reading: where an address leads. -/
def State.translate (s : State) (root va : Nat) (k : AccKind) : Xlat :=
  (s.xlat { cache := none, ctx := 0, root := root } va k).1

/-- CTX_MMU_ROOT of a context as a root value. -/
def State.root (s : State) (c : Nat) : Nat := (s.reg Reg.ctxMmuRoot c).toNat

/-! ### The accesses of a unit -/

/-- A restart unit at work: the device, the translation root, the walking unit and its context, the lost granules it has read, the first fault, the
loan-tier granules its command has received, and the loan granules it still needs. -/
structure Acc where
  s : State
  root : Nat
  /-- The translation cache of the unit (R333). -/
  who : Option Nat := none
  ctx : Nat := 0
  lost : List Nat := []
  fault : Option Flt := none
  loanBuf : Mem := []
  loanHave : List Nat := []
  /-- Loan-tier addresses written by this unit and not yet acknowledged. -/
  loanOut : List Nat := []
  /-- A write suppressed or discarded because its granule is lost (R297, R303). -/
  dataLoss : Bool := false
  /-- Sticky flags raised, VANISHED elements and the opcode's own count. -/
  flags : Nat := 0
  van : Nat := 0
  cnt : Nat := 0
  /-- Draws taken from the generator (R64), and values left for the end of the command. -/
  draws : Nat := 0
  part : List Nat := []
  /-- A status that ends the command as a fatal fault does, without a fault (R309). -/
  stop : Option Nat := none
  /-- Finished values that wait to be written when the unit has read all its inputs (R147). -/
  outq : List (Nat × List Byte) := []
  /-- The running state of a unit that is divided into pieces (R146). -/
  carry : List Nat := []
  /-- What the unit leaves for the rest of its command. -/
  note : List Nat := []
  deriving DecidableEq, Repr

abbrev U := StateM Acc

/-- A lost granule met by a unit; each counts once (R298). -/
def Acc.addLost (a : Acc) (g : Nat) : Acc := if a.lost.contains g then a else { a with lost := a.lost ++ [g] }

/-- The first fault of a unit is kept. -/
def Acc.addFault (a : Acc) (f : Flt) : Acc := if a.fault.isSome then a else { a with fault := some f }

/-- A translation for a unit. -/
def Acc.xlat (a : Acc) (va : Nat) (k : AccKind) : Xlat × Acc :=
  let (r, s) := a.s.xlat { cache := a.who, ctx := a.ctx, root := a.root } va k
  (r, { a with s := s })

/-- A unit of a context at work: what it walks as, and the loan-tier granules that it has received. -/
def State.acc (s : State) (c unit : Nat) (l : Loans) : Acc :=
  { s := s, root := s.root c, who := tlbOf unit, ctx := c, loanBuf := l.bytes, loanHave := l.got }

/-- A read of bytes that lie in one granule of virtual address space. -/
def Acc.readIn (a : Acc) (va n : Nat) : List Byte × Acc :=
  let zeros := List.replicate n (0 : Byte)
  match a.xlat va .read with
  | (.lost g, a) => (zeros, a.addLost g)
  | (.fault f, a) => (zeros, a.addFault f)
  | (.ok pa _, a) =>
    match a.s.place pa with
    | .loan _ _ =>
      if a.loanHave.contains (pa / 64 * 64 + 1) then (zeros, a.addLost (pa / 64 * 64))
      else if a.loanHave.contains (pa / 64 * 64) then (a.loanBuf.readN pa n, a)
      else (zeros, a.addFault { why := .stall .loanData, va := va, write := false, pte := pa / 64 * 64, entry := 0 })
    | _ =>
      let (lost, s) := a.s.checkGran pa
      let a := { a with s := s }
      if lost then (zeros, a.addLost (pa / 64 * 64)) else (s.peekN pa n, a)

/-- `n` bytes read at a virtual address, granule by granule; after a fault the rest reads as zero and counts for
nothing. -/
def Acc.read : Nat → Acc → Nat → Nat → List Byte × Acc
  | 0, a, _, _ => ([], a)
  | _, a, _, 0 => ([], a)
  | f + 1, a, va, n =>
    let m := min n (64 - va % 64)
    let (x, a) := a.readIn va m
    let (y, a) := Acc.read f a (va + m) (n - m)
    (x ++ y, a)

/-- `n` bytes at a virtual address. -/
def uRead (va n : Nat) : U (List Byte) := fun a => Acc.read (n + 1) a va n

/-- A little-endian number of `n` bytes at a virtual address. -/
def uNat (va n : Nat) : U Nat := do return leNat (← uRead va n)

/-- A write of bytes that lie in one granule. A loan-tier write is sent to the lender (R469). -/
def Acc.writeIn (a : Acc) (k : AccKind) (va : Nat) (bs : List Byte) : Acc :=
  if a.fault.isSome then a
  else match a.xlat va k with
  | (.lost g, a) => { a.addLost g with dataLoss := true }
  | (.fault f, a) => a.addFault f
  | (.ok pa _, a) =>
    match a.s.place pa with
    | .loan w o =>
      { a with s := a.s.askLoan w o (some bs), loanOut := a.loanOut ++ [pa] }
    | _ =>
      let (ok, s) := a.s.writeGran pa bs
      let a := { a with s := s }
      if ok then a else { a with dataLoss := true }

/-- Bytes written at a virtual address in ascending granules: after a fault nothing further is written (R336,
R341), so the granules before the faulting one stay written. -/
def uWriteK (k : AccKind) (va : Nat) (bs : List Byte) : U PUnit := fun a =>
  (⟨⟩, (granCut (bs.length + 1) va bs).foldl (fun a g => a.writeIn k g.1 g.2) a)

def uWrite (va : Nat) (bs : List Byte) : U PUnit := uWriteK .write va bs

/-- A finished value, written once the unit has read all its inputs (R147). -/
def uOut (va : Nat) (bs : List Byte) : U PUnit := fun a => (⟨⟩, { a with outq := a.outq ++ granCut (bs.length + 1) va bs })

/-- The finished values written granule by granule; a fault leaves those from the faulting granule on (R336). -/
def Acc.flush : List (Nat × List Byte) → Acc → Acc
  | [], a => { a with outq := [] }
  | g :: t, a =>
    let b := a.writeIn .write g.1 g.2
    if b.fault.isSome then { b with outq := g :: t } else Acc.flush t b

/-- The work of an engine that leaves every output of a unit unchanged when it reads lost data: its values then take
no part in anything the command combines from its units (R296), but its draws are counted. Work that faults on a read
leaves nothing behind (R147). -/
def uStrict {α : Type} (m : U α) : U α := fun a =>
  let (v, b) := m.run { a with lost := [] }
  let undo := { b with outq := a.outq, flags := a.flags, van := a.van, cnt := a.cnt, part := a.part,
                       lost := joinLost a.lost b.lost }
  (v, if b.fault.isSome then { undo with draws := a.draws }
      else if b.lost = [] then { b with lost := a.lost } else undo)

/-- The finished values so far are written. -/
def uFlush : U PUnit := fun a => (⟨⟩, if a.fault.isSome then a else Acc.flush a.outq a)
/-- A word left for the rest of the command. -/
def uNote (n : List Nat) : U PUnit := fun a => (⟨⟩, { a with note := a.note ++ n })
/-- The running state kept for a restart. -/
def uCarry (c : List Nat) : U PUnit := fun a => (⟨⟩, { a with carry := c })

def uCarried : U (List Nat) := fun a => (a.carry, a)
/-- No fault has stopped the unit. -/
def uGoes : U Bool := fun a => (a.fault.isNone, a)

/-- Work told apart by whether it met a lost granule. -/
def uLossy {α : Type} (m : U α) : U (α × Bool) := fun a =>
  let (v, b) := m.run { a with lost := [] }
  ((v, !b.lost.isEmpty), { b with lost := joinLost a.lost b.lost })

/-- Work whose outputs are dropped: its draws alone count. -/
def uVoid {α : Type} (m : U α) : U PUnit := fun a => (⟨⟩, { a with draws := (m.run a).2.draws })

/-- A unit that reads its inputs in pieces (R146). What the pieces have read is kept with the unit, behind the number of
the next piece and the mark of lost data, so that a fault restarts the piece that met it; each piece is given what the
earlier ones kept. The outputs follow the last piece; with lost data they stay unchanged (R296). -/
def uPieces (n : Nat) (piece : Nat → List Nat → U (List Nat)) (fin : List Nat → U PUnit) : U PUnit := do
  (List.range n).forM (fun p => do
    let c ← uCarried
    if (← uGoes) ∧ c.headD 0 = p then do
      let (xs, bad) ← uLossy (uStrict (piece p (c.drop 2)))
      if ← uGoes then uCarry ([p + 1, if bad then 1 else c.getD 1 0] ++ c.drop 2 ++ xs))
  let c ← uCarried
  if ← uGoes then do
    if c.getD 1 0 = 0 then uStrict (fin (c.drop 2)) else uVoid (fin (c.drop 2))
    if ← uGoes then uCarry []

/-- Every granule of a range is translated for an access, so that a fault comes before anything is done. -/
def uProbe (k : AccKind) (va n : Nat) : U PUnit := fun a =>
  (⟨⟩, ((List.range ((va + n + 65535) / 65536 - va / 65536)).map (fun i => max va (va / 65536 * 65536 + 65536 * i))).foldl
    (fun a v => match a.xlat v k with
      | (.fault f, a) => a.addFault f
      | (.lost g, a) => a.addLost g
      | (.ok _ _, a) => a) a)

/-- The pages of the finished values translated, before any of them is written (R336). -/
def uProbeOut : U PUnit := fun a => (⟨⟩, a.outq.foldl (fun b g => ((uProbe .write g.1 g.2.length).run b).2) a)

/-- Whether the unit may go on: no fault and no lost granule so far. -/
def uClean : U Bool := fun a => (a.fault.isNone && a.lost.isEmpty, a)

/-! ### The notices and records of lost data and of fatal faults -/

/-- The first two arguments of a lost-granule notice (R323): address bits, channel, stack and flags. -/
def State.lossArgs (s : State) (pa : Nat) : Nat × Nat :=
  let p := s.place pa
  let g := match s.key p with | some k => lookD s.ecc (k / 64 * 64) {} | none => {}
  match p with
  | .stack n o => (pa % 2 ^ 32, pa / 2 ^ 32 + chanOf o <<< 16 + n <<< 23 + b2n g.poison <<< 28)
  | .tile _ _ => (pa % 2 ^ 32, pa / 2 ^ 32 + b2n g.poison <<< 28 + 1 <<< 29)
  | _ => (pa % 2 ^ 32, pa / 2 ^ 32)

/-- The unit that a unit of commands reaches across dies (R15, R590); the bar of a die stands for its own die alone
(R342). -/
def reachOf (unit : Nat) (p : Place) : Nat :=
  match p with
  | .stack m _ => if unitDie unit = some (m / 5) ∨ (unit / 4096 = 1 ∧ unit ≠ Unit.hub) then 0 else Unit.stack m
  | .tile t _ => if unitDie unit = some (t / 12) ∨ (unit / 4096 = 1 ∧ unit ≠ Unit.hub) then 0 else Unit.tile t
  | _ => 0

/-- The place that a fault stands on: that of the page, where a leaf names one. -/
def State.faultPlace (s : State) (f : Flt) (cause : Nat) : Place :=
  if cause = Cause.noFrame ∨ cause = Cause.readOnly ∨ cause = Cause.frozen ∨ cause = Cause.atomicTier then
    s.place (Pte.addr f.entry + f.va % Pte.span f.entry)
  else .hole

/-- The reported half of a lost granule: MEM_UNCORRECTABLE from the stack's String, or SRAM_DATA_LOSS from the die
bar for a tile store (R296). -/
def State.tellUncorrectable (s : State) (pa : Nat) : State :=
  let (a1, a2) := s.lossArgs pa
  match s.place pa with
  | .stack n o =>
    s.raise { code := 0x0302, sev := Sev.error, data := Unit.chan n (chanOf o), ctrl := Path.str Path.barm (Unit.stack n),
              a1 := a1, a2 := a2, a3 := (s.regionOf pa).getD 0xFFFFFFFF }
  | .tile t _ =>
    s.raise { code := 0x0308, sev := Sev.error, data := Unit.tile t, ctrl := Path.bar (t / 12), a1 := a1, a2 := a2, a3 := t }
  | _ => s

/-- Both notices of a read of lost data (R296 step 4): to the context from the reading unit, and from the memory's
own String. `n` is the number of lost granules of the command. -/
def State.tellLoss (s : State) (c unit pa n : Nat) : State :=
  let (a1, a2) := s.lossArgs pa
  let s := s.raise { code := 0x0301, sev := Sev.error, ctx := some c,
                     data := unit + reachOf unit (s.place pa) * 65536, ctrl := unitPath unit, a1 := a1, a2 := a2, a3 := n }
  s.tellUncorrectable pa

/-- A fatal fault of a command of context `c` met by a unit: the log, the count and the notice (R341, R359, R362). -/
def State.tellFault (s : State) (c unit : Nat) (f : Flt) (cause tag : Nat) : State :=
  let va := if cause = Cause.vaRange then f.va / 4096 else f.va
  let s := s.count F.ctxFaultCounts_FATAL c 1
  let s := if s.flag F.ctxFaultLog_VALID c then s
    else s.setReg Reg.ctxFaultLog c (BitVec.ofNat 64 (va % 2 ^ 52 + b2n f.write <<< 52 + cause <<< 53 + 1 <<< 63))
  s.raise { code := if causeStatus cause = St.faultPermission then 0x0402 else 0x0401, sev := Sev.error, ctx := some c,
            data := unit + reachOf unit (s.faultPlace f cause) * 65536, ctrl := unitPath unit, a1 := va % 2 ^ 32,
            a2 := bitsOf va 32 20 + cause <<< 20 + b2n f.write <<< 25, a3 := tag % 2 ^ 32 }

end Sys2Proof.Machine
end

