-- ==== Sys2Proof/Machine/Bead.lean ====
section
/-!
DEFINITION. Command records (R584), beads, pegs and the waits on them (R363 to R389): the additions of the bead unit,
the clocks of the waits, and the arming of the oldest unissued commands.
-/
namespace Sys2Proof.Machine

/-! ### The command record (R584) -/

def Cmd.opcode (x : Cmd) : Nat := fieldAt x.record 0 0 16
def Cmd.fmt (x : Cmd) : Nat := fieldAt x.record 2 0 8
def Cmd.fence (x : Cmd) : Bool := fieldAt x.record 3 0 1 == 1
def Cmd.notify (x : Cmd) : Bool := fieldAt x.record 3 1 1 == 1
def Cmd.sticky (x : Cmd) : Bool := fieldAt x.record 3 2 1 == 1
def Cmd.lane (x : Cmd) : Nat := fieldAt x.record 4 0 8
def Cmd.waitCount (x : Cmd) : Nat := fieldAt x.record 6 0 16
/-- WAIT0 or WAIT1 whole. -/
def Cmd.wait (x : Cmd) (i : Nat) : Nat := fieldAt x.record (8 + 8 * i) 0 64
def Cmd.signal (x : Cmd) : Nat := fieldAt x.record 24 0 32
def Cmd.timeoutUs (x : Cmd) : Nat := fieldAt x.record 28 0 32
def Cmd.descAddr (x : Cmd) : Nat := fieldAt x.record 32 0 64
def Cmd.complAddr (x : Cmd) : Nat := fieldAt x.record 40 0 64
def Cmd.tag (x : Cmd) : Nat := fieldAt x.record 48 0 64

/-- The entry of a ring that a record count names: the command index (R579). -/
def State.cmdIndex (s : State) (k count : Nat) : Nat := count % 2 ^ s.rd F.ctxRingCfg_LOG2 k

/-- The key of a command's ring. -/
def CmdKey (id : CmdId) : Nat := ringKey id.ctx.val id.ring.val

/-- A fetched command. -/
def State.cmd (s : State) (id : CmdId) : Option Cmd :=
  (s.ring (CmdKey id)).cmds.find? (fun x => x.count == id.count.toNat)

/-- The die whose bar fetches a ring (log entry 8). -/
def State.fetchDie (s : State) (k : Nat) : Nat :=
  (Config.fetchDie (k / 64) (k % 64) (s.rd F.ctxRingTiles_MASK k)).val

/-- The state with one fetched command of ring `k` changed. -/
def State.updCmd (s : State) (k count : Nat) (f : Cmd → Cmd) : State :=
  let r := s.ring k
  s.setRing k { r with cmds := r.cmds.map (fun x => if x.count = count then f x else x) }

/-- The state with every fetched command of the device changed. -/
def State.mapCmds (s : State) (f : Nat → Cmd → Cmd) : State :=
  { s with rings := s.rings.map (fun e => (e.1, { e.2 with cmds := e.2.cmds.map (f e.1) })) }

/-- A command that has its final status. -/
def Cmd.endWith (x : Cmd) (status now : Nat) : Cmd :=
  { x with phase := .ended, status := status, finish := now, armed := false, since := none, stalls := [] }

/-! ### Beads (R363 to R377) -/

abbrev BeadSt.free : Nat := 0
abbrev BeadSt.active : Nat := 1
abbrev BeadSt.suspended : Nat := 2
abbrev BeadSt.broken : Nat := 3

def State.beadValue (s : State) (n : Nat) : Nat := (s.reg Reg.beadValue n).toNat
def State.beadState (s : State) (n : Nat) : Nat := s.rd F.beadAttr_STATE n
/-- FREE and BROKEN beads take no addition and satisfy no wait (R368). -/
def State.beadDead (s : State) (n : Nat) : Bool := s.beadState n == BeadSt.free || s.beadState n == BeadSt.broken

/-- The bead is a member of a complete pair (R375). -/
def State.pairOk (s : State) (n : Nat) : Bool :=
  let p := s.rd F.beadAttr_PARTNER n
  s.flag F.beadAttr_PAIRED n && s.flag F.beadAttr_PAIRED p && s.rd F.beadAttr_PARTNER p == n && p != n &&
  s.rd F.beadAttr_SIDE n != s.rd F.beadAttr_SIDE p &&
  s.rd F.beadAttr_CAPACITY n == s.rd F.beadAttr_CAPACITY p && n / 16384 == p / 16384

/-- How an addition ends (R364, R368, R376). -/
inductive AddEnd where
  | done
  | overflow
  | underflow
  | broken
  deriving DecidableEq, Repr

/-- The check of an addition to bead `n` (R364, R368, R376): the pair and its bead are judged in one step. -/
def State.addCheck (s : State) (n amount : Nat) : AddEnd :=
  let v := s.beadValue n + amount
  if s.beadDead n then .broken
  else if v ≥ 2 ^ 64 then .overflow
  else if s.pairOk n then
    let w := s.beadValue (s.rd F.beadAttr_PARTNER n)
    if s.rd F.beadAttr_SIDE n = 0 then
      if v > w + s.rd F.beadAttr_CAPACITY n then .overflow else .done
    else if v > w then .underflow else .done
  else .done

/-- The bead's entry in a context's map (R365, R367), cached or read (R366): the physical bead, or none with the entry. -/
def State.vid (s : State) (c v : Nat) : Option Nat × Nat :=
  let base := s.rd F.ctxBeadMap_ADDR c * 4096
  if v / 2 ^ 14 ≠ 0 ∨ !s.flag F.ctxBeadMap_VALID c ∨ !s.inStackRange base 131072 then (none, 0)
  else
    let e := lookD s.beadMap (c * 16384 + v) (s.peek64 (base + 8 * v))
    if e.testBit 16 ∧ bitsOf e 19 45 = 0 then (some (e % 65536), e) else (none, e)

/-- The entry of a vid that is mapped is cached until the context's map is written or the context resumes (R366; log entry
131). -/
def State.keepVid (s : State) (c v : Nat) : State :=
  match s.vid c v with
  | (some _, e) => { s with beadMap := put s.beadMap (c * 16384 + v) e }
  | (none, _) => s

/-- The cached map entries of a context are discarded (R366). -/
def State.dropVids (s : State) (c : Nat) : State := { s with beadMap := s.beadMap.filter (fun e => e.1 / 16384 != c) }

/-! ### Pegs (R387) -/

def State.peg (s : State) (c p : Nat) : Bool := (s.reg Reg.ctxPeg (c * 64 + p / 64)).toNat.testBit (p % 64)
def State.setPeg (s : State) (c p : Nat) (v : Bool) : State :=
  s.setReg Reg.ctxPeg (c * 64 + p / 64)
    (BitVec.ofNat 64 (setBits (s.reg Reg.ctxPeg (c * 64 + p / 64)).toNat (p % 64) 1 (b2n v)))

/-! ### Waits -/

/-- One wait of a command as it stands: met, unmet on a bead or a peg, or on a bead that is FREE or BROKEN. -/
inductive WaitSt where
  | met
  | bead (phys : Nat)
  | peg
  | broken (phys : Nat)
  deriving DecidableEq, Repr

/-- A wait on a physical bead, given whether its target is met. A wait once met stays met (R370). -/
def State.beadWait (s : State) (n : Nat) (met : Bool) : WaitSt :=
  if s.beadDead n then .broken n else if met then .met else .bead n

/-- Record wait `i` of a command of context `c` (R369; pegs in format 3, R584). -/
def State.recordWait (s : State) (c : Nat) (x : Cmd) (i : Nat) : WaitSt :=
  let w := x.wait i
  if (if i = 0 then x.met0 else x.met1) then .met
  else if x.fmt = 3 then if s.peg c (w % 4096) == w.testBit 12 then .met else .peg
  else match (s.vid c (w % 65536)).1 with
    | none => .broken 0xFFFF
    | some n => s.beadWait n ((s.beadValue n % 2 ^ 48 + 2 ^ 48 - w / 65536) % 2 ^ 48 < 2 ^ 47)

/-- The waits of a command as they stand: the record waits of an unissued one, the own wait of an issued BEAD_OP
WAIT_GE or PEG_OP wait (R373, R388). -/
def State.waits (s : State) (c : Nat) (x : Cmd) : List WaitSt :=
  match x.phase with
  | .fetched => (List.range x.waitCount).map (s.recordWait c x)
  | .waiting =>
    if x.opcode = 0x0090 then
      match (s.vid c (fieldAt x.desc 2 0 16)).1 with
      | none => [.broken 0xFFFF]
      | some n => [s.beadWait n (s.beadValue n ≥ fieldAt x.desc 8 0 64)]
    else if x.opcode = 0x0091 then
      [if x.met0 || s.peg c (fieldAt x.desc 2 0 12) == (fieldAt x.desc 0 0 2 == 2) then .met else .peg]
    else []
  | _ => []

/-- All waits of the command are met. -/
def State.waitsMet (s : State) (c : Nat) (x : Cmd) : Bool := (s.waits c x).all (· == .met)
/-- Some unmet wait of the command stands on a FREE or BROKEN bead. -/
def State.waitBroken (s : State) (c : Nat) (x : Cmd) : Bool :=
  (s.waits c x).any (fun w => match w with | .broken _ => true | _ => false)
/-- Some unmet wait of the command stands on bead `n`. -/
def State.waitsOn (s : State) (c : Nat) (x : Cmd) (n : Nat) : Bool := (s.waits c x).contains (.bead n)

/-! ### Wait clocks (R381, R384) -/

/-- The context is set aside: its commands are in the save area (R344, R348). -/
def State.ctxHeld (s : State) (c : Nat) : Bool := s.ctxState c == Ctx.preempted || s.ctxState c == Ctx.resuming

/-- The wait clock of a command stands still: its context is set aside, the device is in an activation pause, or an
unmet bead is SUSPENDED. -/
def State.clockPaused (s : State) (c : Nat) (x : Cmd) : Bool :=
  s.ctxHeld c || s.dev == Dev.paused ||
  (s.waits c x).any (fun w => match w with | .bead n => s.beadState n == BeadSt.suspended | _ => false) ||
  (x.opcode == 0x0071 && x.aux.getD 3 0 == 1)

/-- A clock stopped or started where its command's condition has changed. -/
def State.retimeCmd (s : State) (c : Nat) (x : Cmd) : Cmd :=
  if !x.armed then x
  else match x.since, s.clockPaused c x with
    | some t, true => { x with spent := x.spent + (s.ivl - t), since := none }
    | none, false => { x with since := some s.ivl }
    | _, _ => x

/-- Every wait clock brought in line with the beads and contexts. -/
def State.retime (s : State) : State := s.mapCmds (fun k x => s.retimeCmd (k / 64) x)

/-- Nanoseconds that a wait clock has run. -/
def State.waited (s : State) (x : Cmd) : Nat :=
  x.spent + (match x.since with | some t => s.ivl - t | none => 0)

/-- The timeout that a command's clock takes as it starts, in nanoseconds (R381). -/
def State.waitLimit (s : State) (c : Nat) (x : Cmd) : Nat :=
  (if x.timeoutUs = 0 then s.rd F.ctxBeadCfg_DEFAULT_TIMEOUT c else x.timeoutUs) * 1000

/-- The record waits met now are kept as met: a wait once met stays met (R370, R389). -/
def State.latch (s : State) (c : Nat) (x : Cmd) : Cmd :=
  if x.armed ∧ x.phase = .fetched then
    { x with met0 := decide (1 ≤ x.waitCount) && s.recordWait c x 0 == .met,
             met1 := decide (2 ≤ x.waitCount) && s.recordWait c x 1 == .met }
  else x

/-- A command with its wait clock started (R370, R381); the waits met at that moment stay met. -/
def State.arm (s : State) (c : Nat) (x : Cmd) : Cmd :=
  let x := s.latch c { x with armed := true, spent := 0, since := none, limit := s.waitLimit c x }
  { x with since := if s.clockPaused c x then none else some s.ivl }

/-- The oldest unissued command of each lane is armed (R370). One that meets a FREE or BROKEN bead ends at once
with BEAD_BROKEN (R368, R385), and the next of its lane is armed in its place. -/
def State.armList (s : State) (k : Nat) : List Cmd → List Nat → List Cmd
  | [], _ => []
  | x :: t, seen =>
    if x.phase ≠ .fetched ∨ seen.contains x.lane then x :: s.armList k t seen
    else
      let y := if x.armed then x else s.arm (k / 64) x
      if s.waitBroken (k / 64) y then
        { y.endWith St.beadBroken s.time with unit := Unit.die (s.fetchDie k), start := s.time } :: s.armList k t seen
      else y :: s.armList k t (x.lane :: seen)

/-- The waits of a ring's oldest commands armed, while its context runs. -/
def State.armRing (s : State) (k : Nat) : State :=
  let c := k / 64
  if s.ctxState c = Ctx.idle ∨ s.ctxState c = Ctx.active then
    let r := s.ring k
    s.setRing k { r with cmds := s.armList k r.cmds [] }
  else s

/-- Every ring's oldest commands armed. -/
def State.armAll (s : State) : State := (s.rings.map (·.1)).foldl State.armRing s

/-- Issued waits that are met end OK; those on a FREE or BROKEN bead end with BEAD_BROKEN (R373, R383, R385). -/
def State.release (s : State) : State :=
  s.mapCmds (fun k x =>
    if s.ctxHeld (k / 64) then x
    else if x.phase = .waiting ∧ (x.opcode = 0x0090 ∨ x.opcode = 0x0091) then
      if s.waitBroken (k / 64) x then x.endWith St.beadBroken s.time
      else if s.waitsMet (k / 64) x then x.endWith St.ok s.time else x
    else s.latch (k / 64) x)

/-- Waits of peers on a bead that its value now meets, or that is broken, are answered (R379, R385). -/
def State.answerWaits (s : State) (n : Nat) : State :=
  let met := fun (w : RWait) => w.phys == n && (s.beadDead n || decide (s.beadValue n ≥ w.target))
  let hits := s.rwaits.filter met
  let s := hits.foldl (fun s w => s.sendGct w.conn (.beadReply w.req
      (if s.beadDead n then .broken else .met) (s.beadValue n))) s
  { s with rwaits := s.rwaits.filter (fun w => !met w) }

/-- An addition made by the bead unit (R364): its end, and the state with the value changed and the waits on the
bead evaluated. A refused addition changes nothing. -/
def State.beadAdd (s : State) (n amount : Nat) : AddEnd × State :=
  match s.addCheck n amount with
  | .done =>
    let s := s.setReg Reg.beadValue n (BitVec.ofNat 64 (s.beadValue n + amount))
    (.done, (s.answerWaits n).release)
  | e => (e, s)

/-- The status that replaces a command's own when its addition is refused (R587). -/
def AddEnd.status : AddEnd → Nat
  | .done => St.ok
  | .overflow => St.beadOverflow
  | .underflow => St.beadUnderflow
  | .broken => St.beadBroken

/-- The notice of a refused addition (R377, R392). -/
def State.tellRefused (s : State) (e : AddEnd) (c : Nat) (unit vid phys amount : Nat) : State :=
  let n : Ntc := { code := 0x0503, sev := Sev.error, ctx := some c, data := unit, ctrl := unitPath unit,
                   a1 := vid % 2 ^ 14 + phys * 65536, a2 := s.rd F.beadAttr_CAPACITY phys, a3 := amount % 2 ^ 32 }
  match e with
  | .overflow => s.raise n
  | .underflow => s.raise { n with code := 0x0504 }
  | _ => s

/-- The notice of an unmapped vid (R367, R392). -/
def State.tellUnmapped (s : State) (c unit vidField where_ entry : Nat) : State :=
  s.raise { code := 0x0505, sev := Sev.error, ctx := some c, data := unit, ctrl := unitPath unit,
            a1 := vidField, a2 := where_, a3 := entry % 2 ^ 32 }

/-- Armed waiters on a physical bead (R386). -/
def State.waiters (s : State) (n : Nat) : Nat :=
  (s.rings.map (fun e => (e.2.cmds.filter (fun x => x.armed && s.waitsOn (e.1 / 64) x n)).length)).sum +
  (s.rwaits.filter (fun w => w.phys == n)).length

/-- A change of one peg: every armed waiter of the context is judged before the next change (R389). -/
def State.pegChange (s : State) (c p : Nat) (v : Bool) : State :=
  let s := s.setPeg c p v
  let hit (w : Nat) : Bool := w % 4096 == p && w.testBit 12 == v
  let s := s.mapCmds (fun k x =>
    if k / 64 = c ∧ x.armed ∧ x.fmt = 3 then
      match x.phase with
      | .fetched => { x with met0 := x.met0 || (decide (1 ≤ x.waitCount) && hit (x.wait 0)),
                             met1 := x.met1 || (decide (2 ≤ x.waitCount) && hit (x.wait 1)) }
      | .waiting => if x.opcode = 0x0091 ∧ fieldAt x.desc 2 0 12 = p ∧ (fieldAt x.desc 0 0 2 = 2) = v
                    then { x with met0 := true } else x
      | _ => x
    else x)
  s.release

/-- Ring in [15:0] and command index in [31:16], as the bead notices carry them (R383). -/
def State.ringIndexArg (s : State) (k count : Nat) : Nat := k % 64 + s.cmdIndex k count * 65536

end Sys2Proof.Machine
end

