-- ==== Sys2Proof/Machine/Flags.lean ====
section
/-!
DEFINITION. The sticky flags (R69 to R74): their bits, and their way into CTX_FLAGS with the notices of its
transitions.
-/
namespace Sys2Proof.Machine

/-- The sticky flags that one operation raises (R69). -/
structure Fl where
  flushed : Bool := false
  saturated : Bool := false
  invalid : Bool := false
  overflow : Bool := false
  vanished : Bool := false
  emptyReduce : Bool := false
  noAttend : Bool := false
  staleDrop : Bool := false
  deriving DecidableEq, Repr

/-- The flag vector of R69. -/
def Fl.bits (f : Fl) : Nat :=
  b2n f.flushed + 2 * b2n f.saturated + 4 * b2n f.invalid + 8 * b2n f.overflow + 16 * b2n f.vanished +
  32 * b2n f.emptyReduce + 64 * b2n f.noAttend + 128 * b2n f.staleDrop

/-- Flags of two pieces of work together (R70). -/
def Fl.or (a b : Fl) : Fl :=
  { flushed := a.flushed || b.flushed, saturated := a.saturated || b.saturated, invalid := a.invalid || b.invalid,
    overflow := a.overflow || b.overflow, vanished := a.vanished || b.vanished,
    emptyReduce := a.emptyReduce || b.emptyReduce, noAttend := a.noAttend || b.noAttend,
    staleDrop := a.staleDrop || b.staleDrop }

def Fl.none : Fl := {}

abbrev FlBit.flushed : Nat := 1
abbrev FlBit.saturated : Nat := 2
abbrev FlBit.invalid : Nat := 4
abbrev FlBit.overflow : Nat := 8
abbrev FlBit.vanished : Nat := 16
abbrev FlBit.emptyReduce : Nat := 32
abbrev FlBit.noAttend : Nat := 64
abbrev FlBit.staleDrop : Nat := 128

/-- The severity of the notice of each flag (R74). -/
def flagSev (i : Nat) : Nat := if i = 2 ∨ i = 3 then Sev.warn else Sev.info

/-- A command's flags ORed into CTX_FLAGS of its context (R71, R72); each enabled 0-to-1 transition raises its
notice (R73, R74). -/
def State.stickyFlags (s : State) (c k : Nat) (x : Cmd) : State :=
  let old := s.rd F.ctxFlags_FLAGS c
  let new := old ||| x.flags
  let s := s.wr F.ctxFlags_FLAGS c new
  let rise := (List.range 8).filter (fun i => new.testBit i && !old.testBit i && (s.rd F.ctxFlagNotice_ENABLE c).testBit i)
  rise.foldl (fun s i => s.raise
    { code := 0x0701 + i, sev := flagSev i, ctx := some c, data := x.unit, ctrl := unitPath x.unit,
      a1 := x.tag % 2 ^ 32, a2 := s.ringIndexArg k x.count, a3 := x.flags }) s

end Sys2Proof.Machine
end

