-- ==== Sys2Proof/Machine/Num.lean ====
section
/-!
DEFINITION. Numbers (R37 to R52, R61 to R65): exact values, the element formats, rounding with its flags, the
constant K, and the stochastic generator.
-/
namespace Sys2Proof.Machine

/-- An exact value: NaN, an infinity, or ±m·2^e (with m = 0 a signed zero). -/
inductive Num where
  | nan
  | inf (neg : Bool)
  | fin (neg : Bool) (m : Nat) (e : Int)
  deriving DecidableEq, Repr

abbrev Num.zero : Num := .fin false 0 0
abbrev Num.one : Num := .fin false 1 0

/-- A natural number as a value. -/
def Num.ofNat (n : Nat) : Num := .fin false n 0
/-- An integer as a value. -/
def Num.ofInt (i : Int) : Num := .fin (i < 0) i.natAbs 0

def Num.isNan : Num → Bool
  | .nan => true
  | _ => false
def Num.isInf : Num → Bool
  | .inf _ => true
  | _ => false
def Num.isFin : Num → Bool
  | .fin _ _ _ => true
  | _ => false
/-- +0 or −0. -/
def Num.isZero : Num → Bool
  | .fin _ 0 _ => true
  | _ => false
/-- The sign bit; NaN has none. -/
def Num.isNeg : Num → Bool
  | .nan => false
  | .inf n => n
  | .fin n _ _ => n
def Num.neg : Num → Num
  | .nan => .nan
  | .inf n => .inf !n
  | .fin n m e => .fin (!n) m e
def Num.abs : Num → Num
  | .nan => .nan
  | .inf _ => .inf false
  | .fin _ m e => .fin false m e

/-- The number of bits of a natural number. -/
def bitLen (m : Nat) : Nat := if m = 0 then 0 else Nat.log2 m + 1

/-! ### Exact arithmetic -/

/-- Two magnitudes on one exponent: (a, b, exponent). -/
def align (ma : Nat) (ea : Int) (mb : Nat) (eb : Int) : Nat × Nat × Int :=
  if ma = 0 then (0, mb, eb)
  else if mb = 0 then (ma, 0, ea)
  else if ea ≤ eb then (ma, mb <<< (eb - ea).toNat, ea) else (ma <<< (ea - eb).toNat, mb, eb)

/-- A signed magnitude as an integer on its exponent. -/
def sgn (neg : Bool) (m : Nat) : Int := if neg then -(m : Int) else m

/-- The exact sum; an exact zero of two nonzero terms, or of zeros of both signs, is +0 (IEEE, round to nearest). -/
def Num.add : Num → Num → Num
  | .nan, _ => .nan
  | _, .nan => .nan
  | .inf a, .inf b => if a = b then .inf a else .nan
  | .inf a, _ => .inf a
  | _, .inf b => .inf b
  | .fin na ma ea, .fin nb mb eb =>
    let (x, y, e) := align ma ea mb eb
    let z := sgn na x + sgn nb y
    if z = 0 then .fin (na && nb && ma == 0 && mb == 0) 0 0 else .fin (z < 0) z.natAbs e

def Num.sub (a b : Num) : Num := a.add b.neg

/-- The exact product. -/
def Num.mul : Num → Num → Num
  | .nan, _ => .nan
  | _, .nan => .nan
  | .inf a, b => if b.isZero then .nan else .inf (a != b.isNeg)
  | a, .inf b => if a.isZero then .nan else .inf (a.isNeg != b)
  | .fin na ma ea, .fin nb mb eb => .fin (na != nb) (ma * mb) (ea + eb)

/-- A value times a power of two. -/
def Num.shift : Num → Int → Num
  | .fin n m e, k => .fin n m (e + k)
  | x, _ => x

/-- The order of two values; `none` when one is NaN (R40). Zeros of both signs are equal. -/
def Num.cmp : Num → Num → Option Ordering
  | .nan, _ => none
  | _, .nan => none
  | .inf a, .inf b => some (if a = b then .eq else if a then .lt else .gt)
  | .inf a, _ => some (if a then .lt else .gt)
  | _, .inf b => some (if b then .gt else .lt)
  | .fin na ma ea, .fin nb mb eb =>
    let (x, y, _) := align ma ea mb eb
    some (compare (sgn na x) (sgn nb y))

def Num.lt (a b : Num) : Bool := a.cmp b == some .lt
def Num.le (a b : Num) : Bool := a.cmp b == some .lt || a.cmp b == some .eq

/-- max and min of R40: NaN propagates; +0 is above −0. -/
def Num.max (a b : Num) : Num :=
  if a.isNan || b.isNan then .nan
  else if a.isZero && b.isZero then (if a.isNeg then b else a)
  else if a.lt b then b else a
def Num.min (a b : Num) : Num :=
  if a.isNan || b.isNan then .nan
  else if a.isZero && b.isZero then (if a.isNeg then a else b)
  else if b.lt a then b else a

/-- An operation produced NaN from operands none of which is NaN: INVALID (R69). -/
def invalidIf (r : Num) (args : List Num) : Fl := { invalid := r.isNan && args.all (fun x => !x.isNan) }

/-! ### Element formats (R37) -/

inductive Fmt where
  | hf4 | hf6 | hf8n | hf8w | bf16 | fp16 | fp32 | x36
  deriving DecidableEq, Repr

/-- Exponent bits, mantissa bits and bias. -/
def Fmt.eb : Fmt → Nat
  | .hf4 => 2 | .hf6 => 3 | .hf8n => 4 | .hf8w => 5 | .bf16 => 8 | .fp16 => 5 | .fp32 => 8 | .x36 => 11
def Fmt.mb : Fmt → Nat
  | .hf4 => 1 | .hf6 => 2 | .hf8n => 3 | .hf8w => 2 | .bf16 => 7 | .fp16 => 10 | .fp32 => 23 | .x36 => 24
def Fmt.bias : Fmt → Nat
  | .hf4 => 1 | .hf6 => 3 | .hf8n => 7 | .hf8w => 15 | .bf16 => 127 | .fp16 => 15 | .fp32 => 127 | .x36 => 1023
/-- The format has codes for Inf and NaN: the top exponent. -/
def Fmt.special : Fmt → Bool
  | .hf4 => false
  | .hf6 => false
  | _ => true
def Fmt.bits (f : Fmt) : Nat := 1 + f.eb + f.mb
/-- The exponent of the last place of subnormals. -/
def Fmt.emin (f : Fmt) : Int := 1 - (f.bias : Int) - f.mb
/-- The largest exponent field of a finite number. -/
def Fmt.topField (f : Fmt) : Nat := if f.special then 2 ^ f.eb - 2 else 2 ^ f.eb - 1
/-- The largest finite value. -/
def Fmt.maxNum (f : Fmt) : Num := .fin false (2 ^ (f.mb + 1) - 1) ((f.topField : Int) - f.bias - f.mb)

/-- The value of a code (R37). -/
def Fmt.decode (f : Fmt) (code : Nat) : Num :=
  let neg := bit code (f.bits - 1)
  let ex := bitsOf code f.mb f.eb
  let m := bitsOf code 0 f.mb
  if f.special && ex == 2 ^ f.eb - 1 then (if m = 0 then .inf neg else .nan)
  else if ex = 0 then .fin neg m f.emin
  else .fin neg (m + 2 ^ f.mb) (f.emin + ex - 1)

/-- The canonical NaN (R39). -/
def Fmt.nanCode : Fmt → Nat
  | .hf8n => 0x7F | .hf8w => 0x7E | .bf16 => 0x7FC0 | .fp16 => 0x7E00 | .fp32 => 0x7FC00000 | .x36 => 0x7FF800000
  | _ => 0

/-- The code of a value that the format holds exactly, with `m < 2^(mb+1)` or `m = 2^(mb+1)` after a carry. -/
def Fmt.pack (f : Fmt) (neg : Bool) (m : Nat) (e : Int) : Nat :=
  let s := b2n neg * 2 ^ (f.bits - 1)
  if m = 0 then s
  else if m < 2 ^ f.mb then s + m
  else if m < 2 ^ (f.mb + 1) then s + (e - f.emin + 1).toNat * 2 ^ f.mb + (m - 2 ^ f.mb)
  else s + (e - f.emin + 2).toNat * 2 ^ f.mb + (m / 2 - 2 ^ f.mb)

/-- The code of ±Inf. -/
def Fmt.infCode (f : Fmt) (neg : Bool) : Nat := b2n neg * 2 ^ (f.bits - 1) + (2 ^ f.eb - 1) * 2 ^ f.mb

/-! ### Rounding (R61 to R63) -/

/-- A magnitude rounded to the precision and the last place of a format, with an unbounded exponent upwards; `draw`
is the 16-bit draw of stochastic rounding, `none` rounds to nearest, ties to even. -/
def Fmt.roundMag (f : Fmt) (draw : Option Nat) (m : Nat) (e : Int) : Nat × Int :=
  let q := max ((bitLen m : Int) + e - (f.mb + 1)) f.emin
  if q ≤ e then (m <<< (e - q).toNat, q)
  else
    let sh := (q - e).toNat
    let hi := m >>> sh
    let r := m % 2 ^ sh
    let up := match draw with
      | none => decide (2 * r > 2 ^ sh) || (2 * r == 2 ^ sh && hi % 2 == 1)
      | some d => decide ((r <<< 16) >>> sh + d ≥ 65536)
    (hi + b2n up, q)

/-- The conversion control of a destination (R60). -/
structure Cvt where
  stoch : Bool := false
  sat : Bool := false
  denorm : Bool := false
  deriving DecidableEq, Repr

/-- The CVT byte. Values 2 and 3 of RND and bits [7:4] are not accepted. -/
def Cvt.ofByte (b : Nat) : Cvt := { stoch := b % 4 == 1, sat := b.testBit 2, denorm := b.testBit 3 }
def cvtOk (b : Nat) : Bool := b % 4 < 2 && b / 16 == 0

/-- A value written to an unscaled format (R61, R62, R63, R619): the value the format then holds, and the flags. -/
def Fmt.round (f : Fmt) (c : Cvt) (draw : Option Nat) (x : Num) : Num × Fl :=
  match x with
  | .nan => (.nan, {})
  | .inf n => (.inf n, {})
  | .fin n m e =>
    let (m', q) := f.roundMag (if f = .x36 ∨ !c.stoch then none else draw) m e
    if (Num.fin false m' q).cmp f.maxNum = some .gt then
      if c.sat then (match f.maxNum with | .fin _ a b => .fin n a b | y => y, { saturated := true })
      else (.inf n, { overflow := true })
    else if c.denorm ∧ m' ≠ 0 ∧ m' < 2 ^ f.mb then (.fin n 0 0, { flushed := true })
    else (.fin n m' q, {})

/-- The code of a value that `Fmt.round` has given. -/
def Fmt.code (f : Fmt) : Num → Nat
  | .nan => f.nanCode
  | .inf n => f.infCode n
  | .fin n m e => f.pack n m e

/-- An intermediate result in X36: round to nearest, an overflow becomes ±Inf (R77). -/
def x36 (x : Num) : Num × Fl := Fmt.x36.round {} none x

/-- The value of an X36 field, and the field of a value (R44). -/
def x36Of (code : Nat) : Num := Fmt.x36.decode (code % 2 ^ 36)
def x36Code (x : Num) : Nat := Fmt.x36.code (x36 x).1

/-- A source element of an unscaled format read under DENORM (R619). -/
def Fmt.readElem (f : Fmt) (denorm : Bool) (code : Nat) : Num × Fl :=
  match f.decode code with
  | .fin n m e => if denorm && m != 0 && bitsOf code f.mb f.eb == 0 then (.fin n 0 0, { flushed := true }) else (.fin n m e, {})
  | x => (x, {})

/-! ### Semioctaves (R46, R51, R52, R65) -/

/-- √2 to 25 significant bits (R52). -/
abbrev numK : Num := .fin false 23726566 (-24)

/-- x·2^(s/2), exactly for an even s, and with one factor K for an odd s: before its rounding (R51). -/
def unscale (x : Num) (s : Int) : Num :=
  if s % 2 = 0 then x.shift (s / 2) else (x.mul numK).shift ((s - 1) / 2)

/-- x·2^(−s/2), exactly for an even s, and x·K·2^(−(s+1)/2) for an odd s (R65). -/
def scaled (x : Num) (s : Int) : Num :=
  if s % 2 = 0 then x.shift (-(s / 2)) else (x.mul numK).shift (-((s + 1) / 2))

/-! ### The stochastic generator (R64) -/

/-- One draw's new state. -/
def srngNext (s : Nat) : Nat := (s * 0x5851F42D4C957F2D + 0x14057B7EF767814F) % 2 ^ 64

/-- The state after a power of two of draws, as the factor and the addend of the step. -/
def srngPow : Nat → Nat × Nat
  | 0 => (0x5851F42D4C957F2D, 0x14057B7EF767814F)
  | k + 1 => let (a, c) := srngPow k; (a * a % 2 ^ 64, (a * c + c) % 2 ^ 64)

/-- The state after `n` draws, by the binary digits of `n`. -/
def srngSkip (s n : Nat) : Nat :=
  (List.range 64).foldl (fun s k => if n.testBit k then let (a, c) := srngPow k; (s * a + c) % 2 ^ 64 else s) s

/-- The draw that follows `n` earlier ones. -/
def srngDraw (s n : Nat) : Nat := srngNext (srngSkip s n) / 2 ^ 48

end Sys2Proof.Machine
end

