-- ==== Sys2Proof/Machine/Approx.lean ====
section
/-!
DEFINITION. The functions of the vector lanes whose results the manual bounds (R121): the exact result to far more
places than X36 has, by series in fixed point, and the choice of a result within the bound.
-/
namespace Sys2Proof.Machine

/-! ### Fixed point -/

/-- Places after the point. -/
abbrev fxP : Nat := 256
/-- One. -/
def fxOne : Int := 2 ^ fxP
def fxMul (a b : Int) : Int := a * b / fxOne
def fxDiv (a b : Int) : Int := a * fxOne / b
/-- A value in fixed point, cut below the last place. -/
def toFx : Num → Int
  | .fin n m e =>
    let k := e + fxP
    if k ≥ 0 then sgn n (m <<< k.toNat) else sgn n (m >>> (-k).toNat)
  | _ => 0
/-- A fixed-point number as a value. -/
def ofFx (x : Int) : Num := .fin (x < 0) x.natAbs (-(fxP : Int))

/-- Σ of `n` terms: each term comes from the one before by `f`, and counts with the weight `w`. -/
def series (f : Nat → Int → Int) (w : Nat → Int → Int) : Nat → Nat → Int → Int
  | 0, _, _ => 0
  | n + 1, i, t => w i t + series f w n (i + 1) (f i t)

/-- atanh x for |x| ≤ 1/3. -/
def fxAtanh (x : Int) : Int := series (fun _ t => fxMul t (fxMul x x)) (fun i t => t / (2 * i + 1)) 90 0 x
/-- atan (1/n). -/
def fxAtanInv (n : Nat) : Int :=
  series (fun _ t => -(t / (n * n : Nat))) (fun i t => t / (2 * i + 1)) 120 0 (fxOne / n)
/-- exp x for |x| ≤ 1. -/
def fxExp (x : Int) : Int := series (fun i t => fxMul t x / (i + 1 : Nat)) (fun _ t => t) 70 0 fxOne
/-- sin x / x as a function of x², and cos x, for |x| ≤ 4. -/
def fxSinc (x2 : Int) : Int := series (fun i t => -(fxMul t x2 / ((2 * i + 2) * (2 * i + 3) : Nat))) (fun _ t => t) 70 0 fxOne
def fxCos (x2 : Int) : Int := series (fun i t => -(fxMul t x2 / ((2 * i + 1) * (2 * i + 2) : Nat))) (fun _ t => t) 70 0 fxOne
/-- √π/2 · erf x / x as a function of x², for |x| ≤ 7. -/
def fxErfc (x2 : Int) : Int := series (fun i t => -(fxMul t x2 / (i + 1 : Nat))) (fun i t => t / (2 * i + 1)) 320 0 fxOne

def fxLn2 : Int := 2 * fxAtanh (fxOne / 3)
def fxPi : Int := 16 * fxAtanInv 5 - 4 * fxAtanInv 239
/-- √x. -/
def fxSqrt (x : Int) : Int := Nat.sqrt (x.toNat <<< fxP)

/-! ### Quotients and roots -/

/-- `a / b` for natural numbers, to at least 80 places and with a sticky last place: rounding it to nearest is
rounding the quotient. -/
def divMag (a b : Nat) : Nat × Int :=
  let k := 80 + bitLen b
  (2 * ((a <<< k) / b) + b2n ((a <<< k) % b != 0), -(k : Int) - 1)

/-- The quotient of two finite values with a nonzero divisor, for rounding to nearest. -/
def Num.quot : Num → Num → Num
  | .fin na ma ea, .fin nb mb eb => let (m, e) := divMag ma mb; .fin (na != nb) m (e + ea - eb)
  | _, _ => .nan

/-- √ of a positive finite value, with a sticky last place. -/
def Num.root : Num → Num
  | .fin _ m e =>
    let (m, e) := if e % 2 = 0 then (m, e) else (2 * m, e - 1)
    let k := 128
    let r := Nat.sqrt (m <<< (2 * k))
    .fin false (2 * r + b2n (r * r != m <<< (2 * k))) (e / 2 - k - 1)
  | _ => .nan

/-! ### The functions, for finite operands -/

/-- A value so small that it rounds to zero. -/
abbrev Num.tiny : Num := .fin false 1 (-4000)

/-- e^x for |x| ≤ 4,000. -/
def expIn (x : Int) : Num :=
  let n := (2 * x + fxLn2) / (2 * fxLn2)
  (ofFx (fxExp (x - n * fxLn2))).shift n

/-- e^a; beyond the range of X36 only the side is right. -/
def expOf (a : Num) : Num :=
  if a.lt (Num.ofInt (-2000)) then Num.tiny
  else if (Num.ofInt 2000).lt a then .fin false 1 4000
  else expIn (toFx a)

/-- 2^a for |a| ≤ 2,000. -/
def exp2Of (a : Num) : Num :=
  if a.lt (Num.ofInt (-2000)) then Num.tiny
  else if (Num.ofInt 2000).lt a then .fin false 1 4000
  else
    let x := toFx a
    let n := x / fxOne
    (ofFx (fxExp (fxMul (x - n * fxOne) fxLn2))).shift n

/-- ln of a positive value, in fixed point. -/
def lnFx : Num → Int
  | .fin _ m e =>
    let b := bitLen m
    let x : Int := (m : Int) * fxOne / 2 ^ b
    let (x, k) : Int × Int := if 4 * x < 3 * fxOne then (2 * x, b + e - 1) else (x, b + e)
    k * fxLn2 + 2 * fxAtanh (fxDiv (x - fxOne) (x + fxOne))
  | _ => 0

/-- 1/(1 + e^−a). -/
def sigmoidOf (a : Num) : Num :=
  let t := expOf a.abs.neg
  let d := Num.one.add t
  if a.isNeg then t.quot d else Num.one.quot d

/-- tanh a. -/
def tanhOf (a : Num) : Num :=
  if a.abs.lt (.fin false 1 (-10)) then
    let x2 := toFx (a.mul a)
    let p (c : Int) (q : Nat) (r : Int) : Int := c * fxOne / q + fxMul x2 r
    a.mul (ofFx (p 1 1 (p (-1) 3 (p 2 15 (p (-17) 315 (62 * fxOne / 2835))))))
  else if (Num.ofNat 60).lt a.abs then .fin a.isNeg (2 ^ 120 - 1) (-120)
  else
    let t := expOf (a.abs.shift 1).neg
    let r := (Num.one.sub t).quot (Num.one.add t)
    if a.isNeg then r.neg else r

/-- erf a. -/
def erfOf (a : Num) : Num :=
  if (Num.ofNat 7).lt a.abs then .fin a.isNeg (2 ^ 60 - 1) (-60)
  else a.mul (ofFx (fxDiv (2 * fxErfc (toFx (a.mul a))) (fxSqrt fxPi)))

/-- 0.5a(1 + tanh(0.7978845608(a + 0.044715a³))) = a·sigmoid(2·0.7978845608(a + 0.044715a³)). -/
def geluTanhOf (a : Num) : Num :=
  if (Num.ofNat 1024).lt a.abs then (if a.isNeg then Num.tiny.neg else a)
  else
    let x := toFx a
    let u := x + fxMul (fxMul x x) x * 44715 / 1000000
    a.mul (sigmoidOf (ofFx (2 * (u * 7978845608 / 10000000000))))

/-- 0.5a(1 + erf(a/√2)). -/
def geluErfOf (a : Num) : Num :=
  if (Num.fin false 19 (-1)).lt a.abs then (if a.isNeg then Num.tiny.neg else a)
  else
    let z := ofFx (fxDiv (toFx a) (fxSqrt (2 * fxOne)))
    a.mul ((Num.one.add (erfOf z)).shift (-1))

/-- sin a and cos a for |a| ≤ 2^20. -/
def sinOf (a : Num) : Num :=
  let x := toFx a
  let r := x - (x + fxPi) / (2 * fxPi) * (2 * fxPi)
  ofFx (fxMul r (fxSinc (fxMul r r)))
def cosOf (a : Num) : Num :=
  let x := toFx a
  let r := x - (x + fxPi) / (2 * fxPi) * (2 * fxPi)
  ofFx (fxCos (fxMul r r))

/-! ### A result within its bound (R121) -/

/-- One place of X36 at a value. -/
def ulpAt : Num → Num
  | .fin _ m e => .fin false 1 (max ((bitLen m : Int) + e - 25) Fmt.x36.emin)
  | _ => Num.zero

/-- The result of an operation with a bound of `k` places, or of an absolute size where that is larger: what the lanes
give, held to the bound. -/
def within (exact : Num) (k : Nat) (absTol : Num) (lane : Num) : Num × Fl :=
  let (r, fl) := x36 exact
  let rel := (ulpAt exact).mul (Num.ofNat k)
  let tol := if rel.lt absTol then absTol else rel
  if r.isInf then (r, fl)
  else if lane.isFin && ((lane.sub exact).abs).le tol then (lane, {}) else (r, fl)

/-- What the lanes give. -/
def lane (op : Nat) (a b : Num) : Num := x36Of (Config.laneResult op (x36Code a) (x36Code b)).toNat

/-! ### The operations of R120 -/

/-- a / b (R121). -/
def opDiv (a b : Num) : Num × Fl :=
  match a, b with
  | .nan, _ => (.nan, {})
  | _, .nan => (.nan, {})
  | .inf _, .inf _ => (.nan, { invalid := true })
  | .inf n, y => (.inf (n != y.isNeg), {})
  | x, .inf n => (.fin (x.isNeg != n) 0 0, {})
  | x, y =>
    if y.isZero then if x.isZero then (.nan, { invalid := true }) else (.inf (x.isNeg != y.isNeg), {})
    else if x.isZero then (.fin (x.isNeg != y.isNeg) 0 0, {})
    else within (x.quot y) 1 Num.zero (lane 0x05 x y)

/-- A function of one operand with a bound: its results at NaN, at the infinities and at zero, and its value. -/
structure LaneFn where
  posInf : Num × Fl
  negInf : Num × Fl
  zero : Bool → Num × Fl
  ulps : Nat
  absTol : Num := Num.zero
  /-- The exact result, or a special one, of a finite nonzero operand. -/
  val : Num → Sum Num (Num × Fl)

def badOp : Num × Fl := (.nan, { invalid := true })

/-- The functions by code (R120, R121). -/
def laneFn (op : Nat) : Option LaneFn :=
  let tol60 : Num := .fin false 1 (-60)
  match op with
  | 0x20 => some { posInf := (.inf false, {}), negInf := (Num.zero, {}), zero := fun _ => (Num.one, {}), ulps := 2,
                   val := fun a => if (Num.ofInt 70978).lt (a.mul (Num.ofNat 100)) then .inr (.inf false, { overflow := true }) else .inl (expOf a) }
  | 0x21 => some { posInf := (.inf false, {}), negInf := (Num.zero, {}), zero := fun _ => (Num.one, {}), ulps := 2,
                   val := fun a => if (Num.ofNat 1024).le a then .inr (.inf false, { overflow := true }) else .inl (exp2Of a) }
  | 0x22 => some { posInf := (.inf false, {}), negInf := badOp, zero := fun _ => (.inf true, {}), ulps := 2,
                   val := fun a => if a.isNeg then .inr badOp else .inl (ofFx (lnFx a)) }
  | 0x23 => some { posInf := (.inf false, {}), negInf := badOp, zero := fun _ => (.inf true, {}), ulps := 2,
                   val := fun a => if a.isNeg then .inr badOp else .inl (ofFx (fxDiv (lnFx a) fxLn2)) }
  | 0x24 => some { posInf := (.inf false, {}), negInf := badOp, zero := fun n => (.fin n 0 0, {}), ulps := 1,
                   val := fun a => if a.isNeg then .inr badOp else .inl a.root }
  | 0x25 => some { posInf := (Num.zero, {}), negInf := badOp, zero := fun n => (.inf n, {}), ulps := 1,
                   val := fun a => if a.isNeg then .inr badOp else .inl (Num.one.quot a.root) }
  | 0x26 => some { posInf := (Num.zero, {}), negInf := (.fin true 0 0, {}), zero := fun n => (.inf n, {}), ulps := 1,
                   val := fun a => .inl (Num.one.quot a) }
  | 0x27 => some { posInf := (Num.one, {}), negInf := (Num.one.neg, {}), zero := fun n => (.fin n 0 0, {}), ulps := 3,
                   val := fun a => .inl (tanhOf a) }
  | 0x28 => some { posInf := (Num.one, {}), negInf := (Num.zero, {}), zero := fun _ => (.fin false 1 (-1), {}), ulps := 3,
                   val := fun a => .inl (sigmoidOf a) }
  | 0x29 => some { posInf := (.inf false, {}), negInf := (.fin true 0 0, {}), zero := fun n => (.fin n 0 0, {}), ulps := 4,
                   absTol := tol60, val := fun a => .inl (geluTanhOf a) }
  | 0x2A => some { posInf := (.inf false, {}), negInf := (.fin true 0 0, {}), zero := fun n => (.fin n 0 0, {}), ulps := 4,
                   absTol := tol60, val := fun a => .inl (geluErfOf a) }
  | 0x2B => some { posInf := (.inf false, {}), negInf := (.fin true 0 0, {}), zero := fun n => (.fin n 0 0, {}), ulps := 4,
                   absTol := tol60, val := fun a => .inl (a.mul (sigmoidOf a)) }
  | 0x2C => some { posInf := (Num.one, {}), negInf := (Num.one.neg, {}), zero := fun n => (.fin n 0 0, {}), ulps := 3,
                   val := fun a => .inl (erfOf a) }
  | 0x2D => some { posInf := badOp, negInf := badOp, zero := fun n => (.fin n 0 0, {}), ulps := 0, absTol := .fin false 1 (-24),
                   val := fun a => .inl (sinOf a) }
  | 0x2E => some { posInf := badOp, negInf := badOp, zero := fun _ => (Num.one, {}), ulps := 0, absTol := .fin false 1 (-24),
                   val := fun a => .inl (cosOf a) }
  | _ => none

/-- A function of one operand (R121). SIN and COS beyond 2^20 lie in [−1, 1] with no further bound; NaN propagates. -/
def opFn (op : Nat) (a : Num) : Num × Fl :=
  match laneFn op with
  | none => (a, {})
  | some f =>
    match a with
    | .nan => (.nan, {})
    | .inf n => if n then f.negInf else f.posInf
    | .fin n m e =>
      if m = 0 then f.zero n
      else if (op = 0x2D ∨ op = 0x2E) ∧ (Num.fin false 1 20).lt a.abs then
        let v := lane op a Num.zero
        (if v.isFin && (v.abs).le Num.one then v else Num.zero, {})
      else match f.val (.fin n m e) with
        | .inr r => r
        | .inl x => within x f.ulps f.absTol (lane op a Num.zero)

end Sys2Proof.Machine
end

