-- ==== Sys2Proof/Machine/Ring.lean ====
section
/-!
DEFINITION. Command rings (R104 to R114, R579 to R585): doorbells, the fetch of records, ring control, the end of a
command with its SIGNAL and its completion record, and the expiry of waits.
-/
namespace Sys2Proof.Machine

/-- The function may reach the registers of a context: PF0 reaches all, a virtual function its own (R573). -/
def Fn.reaches (f : Fn) (c : Nat) : Bool :=
  match f with
  | .pf0 => true
  | .vf k => k.val == c

abbrev StopCause.crc : Nat := 1
abbrev StopCause.fetchFault : Nat := 2
abbrev StopCause.complAlign : Nat := 3
abbrev StopCause.complWrite : Nat := 4
abbrev StopCause.timeout : Nat := 5
abbrev StopCause.overrun : Nat := 6
abbrev StopCause.host : Nat := 7

/-- Fetch of a ring stops for a cause (R582). -/
def State.ringStop (s : State) (k cause count : Nat) : State :=
  let s := (s.wr F.ctxRingCtrl_STOPPED k 1).wr F.ctxRingCtrl_CAUSE k cause
  let d := s.fetchDie k
  s.raise { code := 0x0F01, sev := if cause = StopCause.host then Sev.info else Sev.error, ctx := some (k / 64),
            data := Unit.die d, ctrl := Path.bar d, a1 := k % 64, a2 := cause, a3 := s.cmdIndex k count }

/-- The virtual address of a record of a ring. -/
def State.recordVa (s : State) (k count : Nat) : Nat :=
  s.rd F.ctxRingBase_ADDR k * 4096 + 64 * s.cmdIndex k count

/-- The domain of the die that holds a ring's next record (R506). -/
def State.recordDom (s : State) (k : Nat) : List Nat :=
  match s.translate (s.root (k / 64)) (s.recordVa k (s.rd F.ctxRingStatus_HEAD k)) .read with
  | .ok pa _ => match s.place pa with
    | .stack n _ => [dieDom (n / 5)]
    | _ => []
  | _ => []

/-- The domains that a doorbell wakes: the die that holds the ring's next record, and the tile groups of its effective
set (R506). -/
def State.ringDomains (s : State) (k : Nat) : List Nat :=
  (s.recordDom k ++ (bitList (s.ring k).eff 48).map tileDom).eraseDups

/-- No context takes work while the stacks are parked or return from it (R509). -/
def State.parkedDeep (s : State) : Bool :=
  s.rd F.pwrPark_CURRENT == 3 || (s.flag F.pwrPark_BUSY && s.pwr.parkFrom == 3)

/-- A doorbell for a ring (R580, R583): ignored before READY, while BRACED and by a disabled ring or context; kept
while PAUSED. -/
def State.doorbell (s : State) (k tail : Nat) : State :=
  let c := k / 64
  if !(s.serving || s.dev == Dev.paused) || !s.ctxEnabled c || !s.flag F.ctxRingCfg_ENABLE k || s.parkedDeep then s
  else
    let head := s.rd F.ctxRingStatus_HEAD k
    let d := (tail + 2 ^ 32 - head) % 2 ^ 32
    if d > 2 ^ s.rd F.ctxRingCfg_LOG2 k ∧ d < 2 ^ 31 then
      if s.flag F.ctxRingCtrl_STOPPED k then s else s.ringStop k StopCause.overrun head
    else if tail = s.rd F.ctxRingStatus_TAIL k then s
    else (s.ringDomains k).foldl State.askWake (s.wr F.ctxRingStatus_TAIL k tail)

/-- Opcodes of R588. -/
def opcodes : List Nat :=
  [0x0001, 0x0010, 0x0011, 0x0012, 0x0020, 0x0021, 0x0030, 0x0031, 0x0040, 0x0041, 0x0042, 0x0048, 0x0050, 0x0051,
   0x0052, 0x0053, 0x0060, 0x0061, 0x0062, 0x0063, 0x0070, 0x0071, 0x0072, 0x0080, 0x0090, 0x0091, 0x00A0, 0x00A1,
   0x00B0, 0x00C0]

/-- Opcodes that format 3 does not accept (R584). -/
def notInFormat3 : List Nat := [0x0061, 0x0070, 0x0071, 0x0072, 0x0090, 0x00A1, 0x0053, 0x00C0]

/-- The lane rule of R105. -/
def laneOk (opcode lane : Nat) : Bool :=
  if opcode = 0x00A0 ∨ opcode = 0x00A1 ∨ opcode = 0x00C0 then lane == 2
  else if opcode = 0x0001 ∨ opcode = 0x0090 ∨ opcode = 0x0091 ∨ opcode = 0x00B0 then lane < 3
  else lane < 2

/-- The vids that a record of format 4 names: its waits', and its signal's where it has one. -/
def Cmd.vids (x : Cmd) : List Nat :=
  if x.fmt = 3 then []
  else ((List.range x.waitCount).map (fun i => x.wait i % 65536)) ++
    (if x.signal / 65536 = 0 then [] else [x.signal % 65536])

/-- The record's reserved bits, lane, waits, signal and vids (R11, R105, R367, R369, R371, R584): whether they
stand, and the first vid that is not mapped, with its map entry. -/
def State.recordOk (s : State) (c : Nat) (x : Cmd) : Bool × Option (Nat × Nat) :=
  let r := x.record
  let waits := (List.range 2).all (fun i => if i < x.waitCount then
      (if x.fmt = 3 then x.wait i / 2 ^ 13 == 0 else true) else x.wait i == 0)
  let plain := fieldAt r 3 3 5 == 0 && fieldAt r 5 0 8 == 0 && fieldAt r 60 0 32 == 0 && x.waitCount ≤ 2 && waits &&
    laneOk x.opcode x.lane && (x.opcode != 1 || x.descAddr == 0) &&
    (if x.fmt = 3 then x.signal / 2 ^ 14 == 0 else true)
  if !plain then (false, none)
  else match x.vids.find? (fun v => (s.vid c v).1.isNone) with
    | some v => (false, some (v, (s.vid c v).2))
    | none => (true, none)

/-- The status that the checks of R581 from FMT_VER on give a record; `none` when it passes. -/
def State.recordStatus (s : State) (k : Nat) (x : Cmd) : Option Nat × State :=
  let c := k / 64
  if x.fmt ≠ (if s.flag F.ctxRingCfg_FMT k then 3 else 4) then (some St.versionMismatch, s)
  else if !opcodes.contains x.opcode || (x.fmt == 3 && notInFormat3.contains x.opcode) || (x.fmt == 4 && x.opcode == 0x0091) then
    (some St.descInvalid, s)
  else match s.recordOk c x with
    | (true, _) => (none, x.vids.foldl (fun s v => s.keepVid c v) s)
    | (false, none) => (some St.descInvalid, s)
    | (false, some (v, e)) =>
      (some St.descInvalid, s.tellUnmapped c (Unit.die (s.fetchDie k)) v (s.ringIndexArg k x.count) e)

/-- A BRANCH or a REMAP of the ring is fetched and not completed, so nothing later is fetched (R106). -/
def Ring.fetchFenced (r : Ring) : Bool := r.cmds.any (fun x => x.phase != .ended || !x.atFetch) && r.cmds.any (fun x =>
  (x.opcode == 0x00A0 || x.opcode == 0x00A1) && !x.atFetch)

/-- The dispatcher of the ring stands still: its own reads stall, or those of a command at dispatch (R342). -/
def Ring.dispatchStalled (r : Ring) : Bool :=
  r.fetchStall.isSome || r.complStall.isSome || r.cmds.any (fun x => x.stalls.any (·.dispatch))

/-- A REMAP that has begun and has not completed holds the ring's fetch (R261). -/
def State.remapHeld (s : State) (k : Nat) : Bool :=
  match (s.ring k).remap with
  | some m => (s.ring (m / 2 ^ 32)).cmds.any (fun x => x.count == m % 2 ^ 32 && x.opcode == 0x00A1 &&
      (x.phase == .waiting || x.phase == .stalled))
  | none => false

/-- The ring may fetch a record now (R580, R506, R583, R261). The fetch waits for the die that holds the record; tile
groups that are asleep hold the command between its fetch and its start (R36). -/
def State.mayFetch (s : State) (k : Nat) : Bool :=
  let c := k / 64
  let head := s.rd F.ctxRingStatus_HEAD k
  let tail := s.rd F.ctxRingStatus_TAIL k
  let r := s.ring k
  s.serving && s.ctxEnabled c && !s.parkedDeep && (s.ctxState c == Ctx.idle || s.ctxState c == Ctx.active) &&
  s.flag F.ctxRingCfg_ENABLE k && !s.flag F.ctxRingCtrl_STOPPED k && head != tail &&
  decide ((tail + 2 ^ 32 - head) % 2 ^ 32 < 2 ^ 31) && !s.remapHeld k && !r.fetchFenced && !r.dispatchStalled &&
  (s.recordDom k).all (fun d => s.domOn d || !s.domFitted d || s.pwr.failed.contains d)

/-- The fetched record joins its ring: HEAD moves on, the ring is no longer idle, the context is ACTIVE. -/
def State.addCmd (s : State) (k : Nat) (x : Cmd) : State :=
  let r := s.ring k
  let s := s.setRing k { r with cmds := r.cmds ++ [x], loan := {} }
  let s := (s.wr F.ctxRingStatus_HEAD k ((x.count + 1) % 2 ^ 32)).wr F.ctxRingCtrl_IDLE k 0
  if s.ctxState (k / 64) = Ctx.idle then s.wr F.ctxState_STATE (k / 64) Ctx.active else s

/-- The checks of a record that has been read (R581). -/
def State.takeRecord (s : State) (k head : Nat) (bytes : List Byte) : State :=
  if crc32c (bytes.take 56) ≠ fieldAt bytes 56 0 32 then s.ringStop k StopCause.crc head
  else if fieldAt bytes 40 0 5 ≠ 0 then s.ringStop k StopCause.complAlign head
  else
    let x : Cmd := { count := head, record := bytes }
    let (st, s) := s.recordStatus k x
    match st with
    | some st =>
      s.addCmd k { x.endWith st s.time with atFetch := true, unit := Unit.die (s.fetchDie k), start := s.time }
    | none => (s.addCmd k x).armRing k

/-- A record that cannot be fetched (R342, R581). -/
def State.fetchFatal (s : State) (k : Nat) (f : Flt) (cause : Nat) : State :=
  (s.tellFault (k / 64) (Unit.die (s.fetchDie k)) f cause 0).ringStop k StopCause.fetchFault (s.rd F.ctxRingStatus_HEAD k)

/-! ### What a stall asks for (R338, R469) -/

/-- A loan window asks its lender for its grant: a write of BIND or a LOAN fault that names it (R469). A connection
that is not open, or has no loan interface, refuses the request itself (log entry 10). -/
def State.beginBind (s : State) (w : Nat) : State :=
  if s.rd F.netLoanWin_STATE w ≠ 0 then s
  else
    let c := s.rd F.netLoanWin_CONN w
    if s.gctOpen c && s.connVer c 3 != 0 then
      (s.wr F.netLoanWin_STATE w 1).sendGct c (.loan 0 [w, s.rd F.netLoanWin_OFFSET_GIB w, s.rd F.netLoanWin_SIZE_GIB w] [])
    else s.raise { code := 0x0C0B, sev := Sev.error, ctx := some (s.connCtx c), data := Unit.hub, ctrl := Path.barp,
                   a1 := w, a2 := c, a3 := 2 }

/-- A stall sets its resolution going. -/
def State.onStall (s : State) (st : Stall) : State :=
  match st.kind with
  | .loanData => match s.place st.pte with
    | .loan w o => s.askLoan w o none
    | _ => s
  | .loan => match s.place (Pte.addr st.entry) with
    | .loan w _ => s.beginBind w
    | _ => s
  | _ => s

/-! ### The fetch of records -/

/-- The fetch of one record (R581): a fatal fault or a lost granule stops the ring, a resolvable fault stalls it. -/
def State.fetchRecord (s : State) (k : Nat) : State :=
  let c := k / 64
  let head := s.rd F.ctxRingStatus_HEAD k
  let d := s.fetchDie k
  let r := s.ring k
  let (bytes, a) := (uRead (s.recordVa k head) 64).run (s.acc c (Unit.die d) r.loan)
  let s := a.s
  match a.fault with
  | some f =>
    match f.why with
    | .fatal cause => s.fetchFatal k f cause
    | .stall kind =>
      let st : Stall := { unit := 0, src := Unit.die d, kind := kind, va := f.va, pte := f.pte, entry := f.entry,
                          since := s.ivl, dispatch := true }
      (s.setRing k { s.ring k with fetchStall := some st }).onStall st
  | none =>
    match a.lost with
    | g :: _ => (s.tellLoss c (Unit.die d) g 1).ringStop k StopCause.fetchFault head
    | [] => s.takeRecord k head bytes

/-! ### The end of a command -/

/-- The COUNTS field (R588): where VANISHED is counted it takes the low half and the command's own count the high half,
MEDIA_BATCH keeping its two counts there. -/
def Cmd.countsWord (x : Cmd) : Nat :=
  if [0x20, 0x21, 0x30, 0x31, 0x40, 0x41, 0x42, 0x48, 0x50, 0x51, 0x52, 0x60, 0x80].contains x.opcode then
    x.vanished % 2 ^ 32 + x.counts % 2 ^ 32 * 2 ^ 32
  else x.counts

/-- The 32-byte completion record (R585). -/
def State.completionRecord (s : State) (k : Nat) (x : Cmd) (status : Nat) : List Byte :=
  natLE 1 status ++ natLE 1 x.flags ++ natLE 2 (s.cmdIndex k x.count) ++ natLE 2 x.unit ++
  natLE 1 (k % 64 + x.lane % 4 * 64) ++ natLE 1 (min x.lost.length 255) ++
  natLE 8 x.start ++ natLE 8 x.finish ++ natLE 8 x.countsWord

/-- The statuses with which a command adds its SIGNAL (R371); OPT_STEP, LOAN_STEP and STEP_COMMIT add it only when
they complete OK (R235, R268). -/
def signals (opcode status : Nat) : Bool :=
  if opcode = 0x0060 ∨ opcode = 0x0072 ∨ opcode = 0x0061 then status == St.ok
  else status == St.ok || status == St.okEmpty || status == St.dataLoss

/-- The addition of a command's SIGNAL (R371, R372, R376, R587): the status that the completion record carries. In
format 3 the signal sets or clears a peg (R584). -/
def State.addSignal (s : State) (k : Nat) (x : Cmd) : Nat × State :=
  let c := k / 64
  if x.atFetch || !signals x.opcode x.status then (x.status, s)
  else if x.fmt = 3 then
    if x.signal.testBit 13 then (x.status, s.pegChange c (x.signal % 4096) (x.signal.testBit 12)) else (x.status, s)
  else if x.signal / 65536 = 0 then (x.status, s)
  else match (s.vid c (x.signal % 65536)).1 with
    | none => (St.beadBroken, s)
    | some n =>
      let (e, s) := s.beadAdd n (x.signal / 65536)
      match e with
      | .done => (x.status, s)
      | e => (e.status, s.tellRefused e c x.unit (x.signal % 65536) n (x.signal / 65536))

/-- A command leaves its ring; a ring with none left is IDLE, a context with none left is IDLE (R326, R579). -/
def State.dropCmd (s : State) (k count : Nat) : State :=
  let r := s.ring k
  let cmds := r.cmds.filter (fun x => x.count != count)
  let s := s.setRing k { r with cmds := cmds, complStall := none }
  let s := if cmds.isEmpty then s.wr F.ctxRingCtrl_IDLE k 1 else s
  let c := k / 64
  let busy := s.rings.any (fun e => e.1 / 64 == c && !e.2.cmds.isEmpty)
  if s.ctxState c = Ctx.active ∧ !busy then s.wr F.ctxState_STATE c Ctx.idle else s

/-- The completion record of a command written, with its queue copy and its interrupt; the command is done (R372,
R395, R584). -/
def State.writeCompletion (s : State) (k : Nat) (x : Cmd) (pa : Option Nat) : State :=
  let c := k / 64
  let (status, s) := s.addSignal k x
  let rcd := s.completionRecord k x status
  let s := match pa with
    | some pa =>
      (match s.place pa with
       | .loan w o => s.askLoan w o (some rcd)
       | _ => (s.writePhys pa rcd).2)
    | none => s
  let q := s.rd F.ctxRingCfg_COMPL_QUEUE k
  let s := if q ≥ 17 then (s.enqueue q 1 [rcd] 1).2 else s
  let s := if x.notify then s.interrupt (ctxVector c (s.rd F.ctxRingCfg_VECTOR k)) else s
  let s := if x.sticky then s.stickyFlags c k x else s
  (s.dropCmd k x.count).armRing k

/-- A completion record whose address does not translate: it stays unwritten, the SIGNAL is not added, and fetch stops
(R342). With no completion, the command's flags are not ORed into CTX_FLAGS (R71; log entry 112). -/
def State.complFatal (s : State) (k : Nat) (x : Cmd) (f : Flt) (cause : Nat) : State :=
  let c := k / 64
  let d := s.fetchDie k
  let s := s.tellFault c (Unit.die d) f cause x.tag
  let s := s.raise { code := 0x0403, sev := Sev.error, ctx := some c, data := Unit.die d, ctrl := Path.bar d,
                     a1 := k % 64, a2 := x.complAddr % 2 ^ 32, a3 := cause }
  ((s.dropCmd k x.count).ringStop k StopCause.complWrite x.count).armRing k

/-- A command whose completion address met a lost granule in its walk: the write of the record is suppressed, and the
command completes DATA_LOSS with that granule among its lost ones (R621, R298). A fatal fault and an aborted disable keep
their status (R296). -/
def Cmd.loseRecord (x : Cmd) (g : Nat) : Cmd :=
  { x with lost := joinLost x.lost [g], lossTold := true,
           status := if x.status = St.ok ∨ x.status = St.okEmpty then St.dataLoss else x.status }

/-- The completion of a command that has ended and whose loan-tier writes are acknowledged (R372, R342, R585). The
record's address is translated first: a resolvable fault stalls the ring, a fatal one leaves the record unwritten
and the SIGNAL not added and stops fetch, and a lost granule suppresses the record alone. -/
def State.complete (s : State) (k : Nat) (x : Cmd) : State :=
  let c := k / 64
  let d := Unit.die (s.fetchDie k)
  if x.complAddr = 0 then s.writeCompletion k x none
  else match s.xlat { cache := tlbOf d, ctx := c, root := s.root c } x.complAddr .write with
    | (.ok pa _, s) => s.writeCompletion k x (some pa)
    | (.fault f, s) =>
      (match f.why with
       | .stall kind =>
         let st : Stall := { unit := x.count, src := d, kind := kind, va := f.va, pte := f.pte,
                             entry := f.entry, since := s.ivl, dispatch := true }
         (s.setRing k { s.ring k with complStall := some st }).onStall st
       | .fatal cause => s.complFatal k x f cause)
    | (.lost g, s) =>
      let y := x.loseRecord g
      (if x.lossTold then s else s.tellLoss c d g y.lost.length).writeCompletion k y none

/-- A command ends with a status (its completion follows). -/
def State.finishCmd (s : State) (k count status : Nat) : State :=
  (s.updCmd k count (fun x => x.endWith status s.time)).armRing k

/-! ### The meanings of the ring commands -/

/-- RING_DOORBELL (R580). A virtual function reaches its own context's rings. -/
def execRingDoorbell (fn : Fn) (ctx : Fin 16) (ring : Fin 64) (tail : BitVec 32) (s : State) :
    Host.Outcome State Fault Refusal :=
  .next (if Fn.reaches fn ctx.val then s.doorbell (ringKey ctx.val ring.val) tail.toNat else s)

/-- RECORD_FETCH (R581). -/
def execRecordFetch (ctx : Fin 16) (ring : Fin 64) (s : State) : Host.Outcome State Fault Refusal :=
  .next (if s.mayFetch (ringKey ctx.val ring.val) then s.fetchRecord (ringKey ctx.val ring.val) else s)

/-- Completion records of a context are written: it is neither set aside nor being disabled. -/
def State.completes (s : State) (c : Nat) : Bool := !s.ctxHeld c && s.ctxState c != Ctx.disabling

/-- COMMAND_COMPLETE (R372). -/
def execCommandComplete (id : CmdId) (s : State) : Host.Outcome State Fault Refusal :=
  .next (match s.cmd id with
    | some x => if s.completes id.ctx.val ∧ x.phase = .ended ∧ x.loanOut = [] ∧ (s.ring (CmdKey id)).complStall.isNone then s.complete (CmdKey id) x else s
    | none => s)

/-- The fields of CTX_RING_CFG other than ENABLE, as a write stores them (R579). -/
def State.setRingCfg (s : State) (k v : Nat) : State :=
  let l := bitsOf v 2 5
  (((s.wr F.ctxRingCfg_FMT k (bitsOf v 1 1)).wr F.ctxRingCfg_LOG2 k (if 6 ≤ l ∧ l ≤ 16 then l else 6)).wr
    F.ctxRingCfg_COMPL_QUEUE k (bitsOf v 8 8)).wr F.ctxRingCfg_VECTOR k (bitsOf v 16 6)

/-- A ring goes into service: HEAD and TAIL are zero and its effective tile set is fixed (R104, R579). -/
def State.enableRing (s : State) (k : Nat) : State :=
  let s := ((s.wr F.ctxRingCfg_ENABLE k 1).wr F.ctxRingStatus_HEAD k 0).wr F.ctxRingStatus_TAIL k 0
  s.setRing k { s.ring k with eff := s.rd F.ctxRingTiles_MASK k &&& s.tilesPresent }

/-- A write of CTX_RING_CFG (R579, R325): the fields are writable only while ENABLE is 0, ENABLE is set only in an
enabled context, and it is cleared only while the ring is IDLE. -/
def State.writeRingCfg (s : State) (k v : Nat) : State :=
  if s.flag F.ctxRingCfg_ENABLE k then
    if v.testBit 0 || !s.flag F.ctxRingCtrl_IDLE k then s else s.wr F.ctxRingCfg_ENABLE k 0
  else
    let s := s.setRingCfg k v
    if v.testBit 0 ∧ s.ctxEnabled (k / 64) then s.enableRing k else s

/-- RING_ENABLE (R579): a write of CTX_RING_CFG with ENABLE = 1. -/
def execRingEnable (fn : Fn) (ctx : Fin 16) (ring : Fin 64) (value : Word) (s : State) :
    Host.Outcome State Fault Refusal :=
  .next (if Fn.reaches fn ctx.val then s.writeRingCfg (ringKey ctx.val ring.val) (setBits value.toNat 0 1 1) else s)

/-- RING_DISABLE (R579): a write of CTX_RING_CFG that clears ENABLE. -/
def execRingDisable (fn : Fn) (ctx : Fin 16) (ring : Fin 64) (s : State) : Host.Outcome State Fault Refusal :=
  let k := ringKey ctx.val ring.val
  .next (if Fn.reaches fn ctx.val ∧ s.flag F.ctxRingCfg_ENABLE k then s.writeRingCfg k 0 else s)

/-- STOP: fetch stops with cause HOST (R582). -/
def State.stopRing (s : State) (k : Nat) : State :=
  if s.flag F.ctxRingCtrl_STOPPED k then s else s.ringStop k StopCause.host (s.rd F.ctxRingStatus_HEAD k)

/-- RESTART, optionally with SKIP, of a stopped ring (R582). -/
def State.restartRing (s : State) (k : Nat) (skip : Bool) : State :=
  if s.flag F.ctxRingCtrl_STOPPED k then
    let s := (s.wr F.ctxRingCtrl_STOPPED k 0).wr F.ctxRingCtrl_CAUSE k 0
    if skip then s.wr F.ctxRingStatus_HEAD k ((s.rd F.ctxRingStatus_HEAD k + 1) % 2 ^ 32) else s
  else s

/-- RING_STOP (R582). -/
def execRingStop (fn : Fn) (ctx : Fin 16) (ring : Fin 64) (s : State) : Host.Outcome State Fault Refusal :=
  .next (if Fn.reaches fn ctx.val then s.stopRing (ringKey ctx.val ring.val) else s)

/-- RING_RESTART (R582). -/
def execRingRestart (fn : Fn) (ctx : Fin 16) (ring : Fin 64) (skip : Bool) (s : State) :
    Host.Outcome State Fault Refusal :=
  .next (if Fn.reaches fn ctx.val then s.restartRing (ringKey ctx.val ring.val) skip else s)

/-! ### Timeouts of waits (R381 to R383, R389) -/

/-- The first unmet wait of a command and what its expiry reports: the wait's number, the vid, the physical bead. -/
def State.expiring (s : State) (c : Nat) (x : Cmd) : Nat × Nat × Option Nat :=
  match x.phase with
  | .fetched =>
    let i := if s.recordWait c x 0 = WaitSt.met ∨ x.waitCount = 0 then 1 else 0
    (i, x.wait i % 65536, (s.vid c (x.wait i % 65536)).1)
  | _ => if x.opcode = 0x0071 then (2, fieldAt x.desc 4 0 14, none)
         else (2, fieldAt x.desc 2 0 14, (s.vid c (fieldAt x.desc 2 0 14)).1)

/-- A command waits on beads: an unissued one, a BEAD_OP WAIT_GE, a REMOTE_BEAD WAIT_GE. -/
def State.awaitsBead (s : State) (c : Nat) (x : Cmd) : Bool :=
  x.armed && match x.phase with
    | .fetched => x.fmt == 4 && !s.waitsMet c x
    | .waiting => x.opcode == 0x0090 || (x.opcode == 0x0071 && fieldAt x.desc 0 0 2 == 1)
    | _ => false

/-- A bead wait expires (R382, R383). -/
def State.beadExpiry (s : State) (k : Nat) (x : Cmd) : State :=
  let c := k / 64
  let (w, vid, phys) := s.expiring c x
  let seen := if x.opcode = 0x0071 ∧ x.phase = .waiting then x.aux.getD 2 0 else (phys.map s.beadValue).getD 0
  let remote := x.opcode = 0x0071 ∧ x.phase = .waiting
  let unit := if remote then Unit.hub else Unit.die (s.fetchDie k)
  let a1 := vid % 2 ^ 14 + w * 2 ^ 14 + phys.getD 0xFFFF * 65536
  let s := if s.flag F.ctxBeadLog_VALID c then s
    else (s.setReg Reg.ctxBeadLog c (BitVec.ofNat 64
        (a1 + (k % 64) <<< 32 + s.cmdIndex k x.count <<< 38 + 1 <<< 63))).setReg Reg.ctxBeadSeen c (BitVec.ofNat 64 seen)
  let s := s.raise { code := 0x0501, sev := Sev.error, ctx := some c, data := unit, ctrl := unitPath unit,
                     a1 := a1, a2 := s.ringIndexArg k x.count, a3 := seen % 2 ^ 32 }
  let s := s.updCmd k x.count (fun y => { y.endWith St.beadTimeout s.time with unit := unit, start := if y.phase = Phase.fetched then s.time else y.start })
  let s := if s.flag F.ctxBeadCfg_STOP_ON_TIMEOUT c ∧ !s.flag F.ctxRingCtrl_STOPPED k then
      s.ringStop k StopCause.timeout x.count else s
  s.armRing k

/-- BEAD_WAIT_EXPIRY (R382): no earlier than the timeout, and only on a wait that is not met. -/
def execBeadWaitExpiry (id : CmdId) (s : State) : Host.Outcome State Fault Refusal :=
  let c := id.ctx.val
  .next (match s.cmd id with
    | some x => if s.awaitsBead c x ∧ s.waited x ≥ x.limit then s.beadExpiry (CmdKey id) x else s
    | none => s)

/-- A command waits on pegs (R389). -/
def State.awaitsPeg (s : State) (c : Nat) (x : Cmd) : Bool :=
  x.armed && match x.phase with
    | .fetched => x.fmt == 3 && !s.waitsMet c x
    | .waiting => x.opcode == 0x0091
    | _ => false

/-- A peg wait expires: as a bead wait, with PEG_TIMEOUT and no log (R389). -/
def State.pegExpiry (s : State) (k : Nat) (x : Cmd) : State :=
  let c := k / 64
  let (peg, want) := match x.phase with
    | .fetched => let w := x.wait (if s.recordWait c x 0 = WaitSt.met ∨ x.waitCount = 0 then 1 else 0); (w % 4096, bitsOf w 12 1)
    | _ => (fieldAt x.desc 2 0 12, b2n (fieldAt x.desc 0 0 2 == 2))
  let d := s.fetchDie k
  let s := s.raise { code := 0x0506, sev := Sev.error, ctx := some c, data := Unit.die d, ctrl := Path.bar d,
                     a1 := peg, a2 := s.ringIndexArg k x.count, a3 := want }
  let s := s.updCmd k x.count (fun y => { y.endWith St.beadTimeout s.time with unit := Unit.die d, start := if y.phase = Phase.fetched then s.time else y.start })
  let s := if s.flag F.ctxBeadCfg_STOP_ON_TIMEOUT c ∧ !s.flag F.ctxRingCtrl_STOPPED k then
      s.ringStop k StopCause.timeout x.count else s
  s.armRing k

/-- PEG_WAIT_EXPIRY (R389). -/
def execPegWaitExpiry (id : CmdId) (s : State) : Host.Outcome State Fault Refusal :=
  let c := id.ctx.val
  .next (match s.cmd id with
    | some x => if s.awaitsPeg c x ∧ s.waited x ≥ x.limit then s.pegExpiry (CmdKey id) x else s
    | none => s)

end Sys2Proof.Machine
end

