-- ==== Sys2Proof/Machine/Unit.lean ====
section
/-!
DEFINITION. Restart units (R336 to R341): the running of the units of a command, what a unit leaves when it meets a
fault or lost data, the resolution of faults, and the end of a command.
-/
namespace Sys2Proof.Machine

/-! ### Stalls (R336) -/

/-- The stall of a unit on a resolvable fault. -/
def stallOf (s : State) (unit src : Nat) (kind : StallKind) (f : Flt) (dispatch : Bool) : Stall :=
  { unit := unit, src := src, kind := kind, va := f.va, pte := f.pte, entry := f.entry, since := s.ivl, write := f.write,
    dispatch := dispatch }

/-! ### The end of a command -/

/-- The status of a command whose units have all ended, but for its SIGNAL (R587). -/
def Cmd.outcome (x : Cmd) (own : Nat) : Nat :=
  match x.fatal with
  | some st => st
  | none => if x.lost ≠ [] ∨ x.dataLoss then St.dataLoss else own

/-- MEM_DATA_LOSS of a command that has read lost data, once, with the full count (R296, R298). -/
def State.lossNotice (s : State) (k : Nat) (x : Cmd) : State :=
  match x.lost with
  | g :: _ => if x.lossTold then s else s.tellLoss (k / 64) x.lossUnit g x.lost.length
  | [] => s

/-- The unit whose share finished last, which timing alone decides: a free choice among the units that took part. -/
def State.lastUnit (s : State) (x : Cmd) : Nat × State :=
  match x.srcs.eraseDups with
  | [] => (x.unit, s)
  | [u] => (u, s)
  | us => let (v, s) := s.fresh; ((us[v.toNat % us.length]?).getD 0, s)

/-- The generators of the tiles advanced by the draws of a command; a state written since its launch stands (R64, R75).
Commands that overlap on a tile each draw from the state that they found, and each advances what a read shows (log entry
117). -/
def State.advanceSeeds (s : State) (k : Nat) (x : Cmd) : State :=
  x.seeds.foldl (fun s e =>
    let i := k / 64 * 48 + e.1
    if lookD s.seedGens i 0 = lookD x.seedGens e.1 0 ∧ lookD x.drawn e.1 0 ≠ 0 then
      s.setReg Reg.tilSrngSeed i (BitVec.ofNat 64 (srngSkip (s.reg Reg.tilSrngSeed i).toNat (lookD x.drawn e.1 0)))
    else s) s

/-- The command has ended: its data-loss notice, its unit and its status. -/
def State.endCmd (s : State) (k : Nat) (x : Cmd) (own : Nat) : State :=
  let s := (s.lossNotice k x).advanceSeeds k x
  let (u, s) := s.lastUnit x
  let s := s.updCmd k x.count (fun y => { y with unit := u, lossTold := true })
  s.finishCmd k x.count (x.outcome own)

/-- A command ends at its dispatch with the status of a check: it touches no memory (R581). -/
def State.rejectCmd (s : State) (k count status : Nat) : State :=
  let s := s.updCmd k count (fun y => { y with unit := Unit.die (s.fetchDie k), start := s.time, issuedAt := s.ivl })
  s.finishCmd k count status

/-! ### Running units -/

/-- What a command does: its restart units as (number, unit code of the engine), the work of each, and what is done
once they have all ended: the state and the command's own status. -/
structure Plan where
  units : List (Nat × Nat)
  run : Nat → U PUnit
  /-- Unit `u` does not start while unit `w` before it stalls. -/
  follows : Nat → Nat → Bool := fun _ _ => false
  /-- What the end of a unit makes due: the last unit of a tile's share writes the tile's summary (R97, R145). -/
  share : Cmd → Nat → State → State := fun _ _ s => s
  /-- Units that run once all the others have ended. -/
  late : Cmd → List (Nat × Nat) := fun _ => []
  fin : Cmd → State → State × Nat := fun _ s => (s, St.ok)

/-- The tile of a unit code, for the generators. -/
def tileOf (src : Nat) : Nat := src % 4096

/-- What the work of a unit adds to its command: lost data, flags, counts, its values and its draws. -/
def Cmd.gain (x : Cmd) (u src : Nat) (a : Acc) : Cmd :=
  { x with
    lossUnit := if x.lost = [] ∧ a.lost ≠ [] then src else x.lossUnit,
    lost := joinLost x.lost a.lost, dataLoss := x.dataLoss || a.dataLoss,
    fatal := if x.fatal.isNone then a.stop else x.fatal,
    flags := x.flags ||| a.flags, vanished := satAdd 32 x.vanished a.van, counts := x.counts + a.cnt,
    parts := if a.part = [] then x.parts else put x.parts u (lookD x.parts u [] ++ a.part),
    drawn := if a.draws = 0 then x.drawn else put x.drawn (tileOf src) (lookD x.drawn (tileOf src) 0 + a.draws),
    loanOut := x.loanOut ++ a.loanOut, aux := x.aux ++ a.note,
    stalls := x.stalls.filter (fun st => st.unit != u || st.dispatch) }

/-- What a unit that has ended leaves in its command. The loan-tier granules received for it are dropped (R283). -/
def Cmd.merge (x : Cmd) (u src : Nat) (a : Acc) : Cmd :=
  { x.gain u src a with doneUnits := x.doneUnits ++ [u], srcs := x.srcs ++ [src], held := del x.held u,
                        carry := del x.carry u, loans := del x.loans (u + 1) }

/-- What a unit that met a fatal fault leaves: nothing further is written, and the first such fault names the status
(R341). -/
def State.fatalUnit (s : State) (k : Nat) (x : Cmd) (u src : Nat) (f : Flt) (cause : Nat) (a : Acc) : State :=
  let s := if x.fatal.isNone then s.tellFault (k / 64) src f cause x.tag else s
  s.updCmd k x.count (fun y => { y with
    fatal := if y.fatal.isNone then some (causeStatus cause) else y.fatal,
    srcs := y.srcs ++ [src], loanOut := y.loanOut ++ a.loanOut,
    lossUnit := if y.lost = [] ∧ a.lost ≠ [] then src else y.lossUnit,
    lost := joinLost y.lost a.lost,
    stalls := y.stalls.filter (fun st => st.unit != u || st.dispatch) })

/-- The work of one unit: the values that a write fault held, and the unit from its beginning or from the piece that
it has come to. -/
def Plan.work (p : Plan) (x : Cmd) (u : Nat) (a : Acc) : Acc :=
  let a := Acc.flush (lookD x.held u []) { a with carry := lookD x.carry u [] }
  if a.fault.isSome || ((look x.held u).isSome && a.carry.isEmpty) then a
  else
    let b := ((p.run u).run a).2
    if b.fault.isSome then b else Acc.flush b.outq b

/-- The command of a ring with a record count. -/
def State.unitCmd (s : State) (k count : Nat) : Option Cmd := (s.ring k).cmds.find? (fun x => x.count == count)

/-- What a unit that has met a resolvable fault leaves: its stall, the finished values that a write fault holds, and the
state of its pieces. -/
def Cmd.hold (x : Cmd) (u src : Nat) (a : Acc) (st : Stall) : Cmd :=
  let y := if a.outq = [] ∧ a.carry = [] then { x with loanOut := x.loanOut ++ a.loanOut }
           else { x.gain u src a with held := if a.outq = [] then del x.held u else put x.held u a.outq,
                                      carry := put x.carry u a.carry }
  { y with stalls := x.stalls.filter (fun t => t.unit != u || t.dispatch) ++ [st] }

/-- One restart unit run or replayed. -/
def State.runUnit (s : State) (k count : Nat) (p : Plan) (u src : Nat) : State :=
  match s.unitCmd k count with
  | none => s
  | some x =>
    let a := p.work x u (s.acc (k / 64) src (lookD x.loans (u + 1) {}))
    match a.fault with
    | none =>
      let s := a.s.updCmd k count (fun y => y.merge u src a)
      (match s.unitCmd k count with
       | some y => p.share y u s
       | none => s)
    | some f =>
      match f.why with
      | .fatal cause => a.s.fatalUnit k x u src f cause a
      | .stall kind =>
        let st := stallOf a.s u src kind f false
        (a.s.updCmd k count (fun y => y.hold u src a st)).onStall st

/-- The unit waits for one that stalls. -/
def Plan.waits (p : Plan) (x : Cmd) (u : Nat) : Bool := x.stalls.any (fun st => !st.dispatch && p.follows u st.unit)

/-- Units run in turn; after a fatal fault those not yet started do not start (R341), nor while one stalls those that
follow it. -/
def State.runUnits (s : State) (k count : Nat) (p : Plan) (us : List (Nat × Nat)) : State :=
  us.foldl (fun s u =>
    match s.unitCmd k count with
    | some x => if x.fatal.isSome || p.waits x u.1 then s else s.runUnit k count p u.1 u.2
    | none => s) s

/-- The units that have waited for another and have not run yet. -/
def State.runRest (s : State) (k count : Nat) (p : Plan) : State :=
  match s.unitCmd k count with
  | none => s
  | some x => s.runUnits k count p (p.units.filter (fun u =>
      !x.doneUnits.contains u.1 && !x.stalls.any (fun st => !st.dispatch && st.unit == u.1)))

/-- The late units of a command that are not done. -/
def State.runLate (s : State) (k count : Nat) (p : Plan) : State :=
  match (s.ring k).cmds.find? (fun x => x.count == count) with
  | none => s
  | some x => if x.fatal.isSome || x.stalls ≠ [] then s
              else s.runUnits k count p ((p.late x).filter (fun u => !x.doneUnits.contains u.1))

/-- What a plan's end answers when the command now waits for something outside it. -/
abbrev St.pending : Nat := 0x100

/-- The command stalls while any of its units does; then its late units run, and those that these make due; then it
ends, or waits. -/
def State.settle (s : State) (k count : Nat) (p : Plan) : State :=
  let cmd (s : State) := s.unitCmd k count
  let s := ((s.runRest k count p).runLate k count p).runLate k count p
  match cmd s with
  | none => s
  | some x =>
    if x.stalls ≠ [] then (s.updCmd k count (fun y => { y with phase := .stalled })).armRing k
    else
      let (s, own) := if x.fatal.isNone then p.fin x s else (s, St.ok)
      if own = St.pending then (s.updCmd k count (fun y => { y with phase := .waiting })).armRing k
      else match cmd s with
        | some y => s.endCmd k y own
        | none => s

/-! ### The resolution of faults (R337 to R339) -/

/-- Bytes that the rules leave open, and those of a granule that the lender of a loan-tier page would send (log
entry 1). -/
def State.freeBytes (s : State) (n : Nat) : List Byte × State :=
  ((List.range n).map (fun i => BitVec.ofNat 8 (Config.freeValue (s.nfree + i)).toNat), { s with nfree := s.nfree + n })

/-- A COW page copied to a new frame, granule by granule; a lost granule is written poisoned, and the memory's own
String reports it (R337). Bytes of a loan-tier page come over the network and are free here. -/
def State.copyPage (s : State) (src dst : Nat) : Nat → State
  | 0 => s
  | n + 1 =>
    let s := s.copyPage src dst n
    let a := src + 64 * n
    let b := dst + 64 * n
    match s.place a with
    | .loan _ _ =>
      let (bytes, s) := s.freeBytes 64
      (s.writeGran b bytes).2
    | _ =>
      let (lost, s) := s.checkGran a
      if lost then (s.poisonGran b).tellUncorrectable a else (s.writeGran b (s.peekN a 64)).2

/-- How the resolution of a COW fault ends. -/
inductive CowEnd where
  | replay
  | noFrame
  deriving DecidableEq, Repr

/-- The bar that resolves a fault of a unit: that of the unit's die (R337); the hub's faults go to the bar of D0 (log
entry 118). -/
def resolver (unit : Nat) : Nat := (unitDie unit).getD 0

/-- The physical address of a pool word: the access must translate without any fault and lie in the stack tier, and its
granule must be whole (R337, R621). -/
def State.poolWord (s : State) (w : Walker) (va : Nat) (kind : AccKind) : Option Nat × State :=
  match s.xlat w va kind with
  | (.ok pa _, s) => (match s.place pa with
    | .stack _ _ => let (lost, s) := s.checkGran pa; (if lost then none else some pa, s)
    | _ => (none, s))
  | (_, s) => (none, s)

/-- A frame popped from a context's pool (R337 step 1, R193): the place of the header, TOP before, and the frame. -/
def State.popFrame (s : State) (w : Walker) (pool : Nat) : Option (Nat × Nat × Nat) × State :=
  if pool = 0 then (none, s)
  else match s.poolWord w pool .atomic with
  | (none, s) => (none, s)
  | (some h, s) =>
    let top := leNat (s.peekN h 4)
    if top = 0 then (none, s)
    else match s.poolWord w (pool + 8 + 4 * (top - 1)) .read with
    | (none, s) => (none, s)
    | (some e, s) => (some (h, top, leNat (s.peekN e 4) * 65536), (s.writePhys h (natLE 4 (top - 1))).2)

/-- The die bar resolves a COW fault of a context (R337): a frame popped, the page copied, the entry swapped against the
value that the unit faulted on. A swap that fails pushes the frame back, and the unit walks anew. -/
def State.resolveCow (s : State) (c : Nat) (st : Stall) : CowEnd × State :=
  let w : Walker := { cache := some (48 + resolver st.src), ctx := c, root := s.root c }
  match s.popFrame w (s.rd F.ctxFramePool_ADDR c) with
  | (none, s) => (.noFrame, s)
  | (some (h, top, frame), s) =>
    let s := s.copyPage (Pte.addr st.entry) frame 1024
    let s := s.invalidate c (st.va / 65536) 1
    if s.peek64 st.pte ≠ st.entry then (.replay, (s.writePhys h (natLE 4 top)).2)
    else
      let new := setBits (setBits st.entry 12 36 (frame / 4096)) 6 1 0
      (.replay, ((s.writePhys st.pte (natLE 8 new)).2).count F.ctxFaultCounts_COW c 1)

/-- The die bar makes a LOAN_PENDING entry valid once its window is bound (R338). -/
def State.resolveLoan (s : State) (c : Nat) (st : Stall) : State :=
  let s := if s.peek64 st.pte = st.entry then
      (s.writePhys st.pte (natLE 8 (setBits (setBits (setBits st.entry 0 1 1) 2 2 2) 9 2 0))).2 else s
  s.count F.ctxFaultCounts_LOAN c 1

/-- The window that a LOAN stall waits for. -/
def State.stallWindow (s : State) (st : Stall) : Option Nat :=
  match s.place (if st.kind = .loanData then st.pte else Pte.addr st.entry) with
  | .loan w _ => some w
  | _ => none

/-- Nanoseconds of MIGRATE_WAIT that a stall has spent. -/
def State.migrateSpent (s : State) (st : Stall) : Nat := st.spent + (s.ivl - st.since)

/-- A stalled unit fails for a fatal cause; with no other unit stalled the command ends (R341). -/
def State.failStall (s : State) (k : Nat) (x : Cmd) (st : Stall) (cause : Nat) : State :=
  let f : Flt := { why := .fatal cause, va := st.va, write := st.write || st.kind == .cow, pte := st.pte, entry := st.entry }
  if st.dispatch then
    let s := s.tellFault (k / 64) st.src f cause x.tag
    s.rejectCmd k x.count (causeStatus cause)
  else
    let s := s.fatalUnit k x st.unit st.src f cause { s := s, root := 0 }
    match (s.ring k).cmds.find? (fun y => y.count == x.count) with
    | some y => if y.stalls = [] then s.endCmd k y St.ok else s
    | none => s

/-- The fault that a stall stands on, as a fatal one. -/
def Stall.fatal (st : Stall) (write : Bool) (cause : Nat) : Flt :=
  { why := .fatal cause, va := st.va, write := write, pte := st.pte, entry := st.entry }

/-- The stall of a ring's dispatcher on a completion record, or on the record it fetches, fails for a fatal cause
(R342). -/
def State.failCompl (s : State) (k cause : Nat) : State :=
  match (s.ring k).complStall with
  | some st =>
    (match (s.ring k).cmds.find? (fun x => x.count == st.unit) with
     | some x => (s.setRing k { s.ring k with complStall := none }).complFatal k x (st.fatal true cause) cause
     | none => s)
  | none => s
def State.failFetch (s : State) (k cause : Nat) : State :=
  match (s.ring k).fetchStall with
  | some st => (s.setRing k { s.ring k with fetchStall := none }).fetchFatal k (st.fatal false cause) cause
  | none => s

/-- The stall waits on loan window `w`. -/
def State.stallOn (s : State) (w : Nat) (st : Stall) : Bool :=
  (st.kind == .loan || st.kind == .loanData) && s.stallWindow st == some w

/-- Every stall of the device that waits on loan window `w` fails as LOAN_LOST (R338, R470). -/
def State.failWindow (s : State) (w : Nat) : State :=
  let hits := s.rings.flatMap (fun e => e.2.cmds.flatMap (fun x =>
    (x.stalls.filter (s.stallOn w)).map (fun st => (e.1, x.count, st))))
  let s := hits.foldl (fun s h =>
    match (s.ring h.1).cmds.find? (fun x => x.count == h.2.1) with
    | some x => s.failStall h.1 x h.2.2 Cause.loanLost
    | none => s) s
  (s.rings.map (·.1)).foldl (fun s k =>
    let s := if ((s.ring k).complStall.map (s.stallOn w)).getD false then s.failCompl k Cause.loanLost else s
    if ((s.ring k).fetchStall.map (s.stallOn w)).getD false then s.failFetch k Cause.loanLost else s) s

end Sys2Proof.Machine
end

