-- ==== Sys2Proof/Machine/Issue.lean ====
section
/-!
DEFINITION. The issue of commands (R104 to R110, R256, R581): lanes, fences, the filler lane, the scoreboard, the
dispatcher's reading of descriptors and tables, and the hand-over of a command to its engine.
-/
namespace Sys2Proof.Machine

/-! ### Footprints (R107) -/

/-- An address range rounded out to 4 KiB; `true` = written. -/
def footRange (a n : Nat) (w : Bool) : Nat × Nat × Bool := (a / 4096 * 4096, roundUp (a + n) 4096, w)

/-- More than eight ranges are recorded as the smallest enclosing read and write ranges. -/
def footprint (rs : List (Nat × Nat × Bool)) : List (Nat × Nat × Bool) :=
  let rs := rs.filter (fun r => r.1 < r.2.1)
  if rs.length ≤ 8 then rs
  else
    let hull (w : Bool) : List (Nat × Nat × Bool) :=
      match rs.filter (fun r => r.2.2 == w) with
      | [] => []
      | r :: t => [t.foldl (fun a b => (min a.1 b.1, max a.2.1 b.2.1, w)) r]
    hull false ++ hull true

/-- Two ranges overlap and one of them is written. -/
def clash (a b : Nat × Nat × Bool) : Bool := decide (a.1 < b.2.1 ∧ b.1 < a.2.1) && (a.2.2 || b.2.2)

/-- The physical bead that a command signals. -/
def State.signalBead (s : State) (c : Nat) (x : Cmd) : Option Nat :=
  if x.fmt = 3 ∨ x.signal / 65536 = 0 then none else (s.vid c (x.signal % 65536)).1

/-- The command holds a scoreboard entry: it is issued and not complete. -/
def Cmd.issued (x : Cmd) : Bool := x.phase != .fetched && !x.atFetch

/-- The conflict test of R107 between command `x` of context `c` and an issued command `y` of context `d`. -/
def State.conflicts (s : State) (c : Nat) (x : Cmd) (d : Nat) (y : Cmd) : Bool :=
  (c == d && x.foot.any (fun a => y.foot.any (clash a))) ||
  ((s.signalBead c x).isSome && s.signalBead c x == s.signalBead d y)

/-- What a command needs on each of its tiles: core rows (0 to 5), the vector engine, the attention engine. -/
abbrev Res.vec : Nat := 8
abbrev Res.attn : Nat := 16
def Cmd.coreRows (x : Cmd) : Nat := x.rows % 8

/-- What an issued command holds on a tile: the rows that it was granted and its engines, and nothing once it has
yielded them. -/
def Cmd.holds (x : Cmd) (t : Nat) : Nat :=
  if x.yielded != .no || !x.tiles.contains t then 0 else lookD x.granted t 0 + x.rows / 8 * 8

/-- Resources held together: the rows add up, the engines join. -/
def resJoin (a b : Nat) : Nat := min 7 (a % 8 + b % 8) + 8 * (a / 8 ||| b / 8)

/-- A need cannot be met beside what is held on a tile: no core row is free, or an engine is taken (R107, R116). A
command that asks for more rows than are free gets those that are (R95 step 4); which rows they are is not stated, and
only their number is kept (log entry 119). -/
def resClash (need held : Nat) : Bool := decide (need % 8 ≠ 0 ∧ held % 8 ≥ 5) || (need / 8 &&& held / 8 != 0)

/-- A need takes more than is free on a tile, so that what may yield there yields. -/
def resShort (need held : Nat) : Bool := decide (need % 8 ≠ 0 ∧ held % 8 ≠ 0 ∧ need % 8 + held % 8 > 5) || (need / 8 &&& held / 8 != 0)

/-- A command of ring `ky` gives up its resources to one of ring `kx`: a filler command to a main one of its ring, and a
command of a context that may be pre-empted to one of a higher priority (R109, R343). -/
def State.yieldOf (s : State) (kx : Nat) (x : Cmd) (ky : Nat) (y : Cmd) : Yield :=
  if kx = ky ∧ x.lane = 0 ∧ y.lane = 1 then .toMain
  else if s.rd F.ctxSched_PRIO (ky / 64) < s.rd F.ctxSched_PRIO (kx / 64) ∧ s.flag F.ctxSched_PREEMPTIBLE (ky / 64) then .toContext
  else .no

/-- The commands that run outside the tiles and are held by the dispatcher under the test of R107. -/
def heldOps : List Nat := [0x0070, 0x0071, 0x0072, 0x0080]

/-- The test of R107 stands between two commands: they meet on a tile, or one of them is of those that the dispatcher
holds and the other is held too (log entry 119). NOP, BEAD_OP, QUEUE_PUT and the like are never held. -/
def Cmd.meets (x y : Cmd) : Bool :=
  x.tiles.any y.tiles.contains ||
  (heldOps.contains x.opcode && (y.tiles != [] || heldOps.contains y.opcode)) ||
  (heldOps.contains y.opcode && x.tiles != [])

/-- The issued commands of the device, with their rings. -/
def State.issuedCmds (s : State) : List (Nat × Cmd) :=
  s.rings.flatMap (fun e => (e.2.cmds.filter Cmd.issued).map (fun y => (e.1, y)))

/-- What is held on a tile by the commands of a list. -/
def heldOn (l : List (Nat × Cmd)) (t : Nat) : Nat := l.foldl (fun a e => resJoin a (e.2.holds t)) 0

/-- What stands against a command on a tile: all that is held there but by those that yield to it. -/
def State.heldAgainst (s : State) (k : Nat) (x : Cmd) (t : Nat) : Nat :=
  heldOn (s.issuedCmds.filter (fun e => s.yieldOf k x e.1 e.2 == .no)) t

/-- The scoreboard lets the command issue (R107), the entries of `skip` set aside. -/
def State.boardOk (s : State) (k : Nat) (x : Cmd) (skip : Nat × Cmd → Bool := fun _ => false) : Bool :=
  let issued := s.issuedCmds
  (issued.filter (fun e => !skip e)).all (fun e => !(x.meets e.2 && s.conflicts (k / 64) x (e.1 / 64) e.2)) &&
  x.tiles.all (fun t => !resClash x.rows (s.heldAgainst k x t)) &&
  x.tiles.all (fun t => decide ((issued.filter (fun e => e.2.tiles.contains t)).length < 64) &&
    decide ((issued.filter (fun e => e.1 == k && e.2.tiles.contains t)).length < 16))

/-- The core rows that a command is granted on each of its tiles (R95 step 4). -/
def State.rowGrants (s : State) (k : Nat) (x : Cmd) : Tbl Nat :=
  x.tiles.map (fun t => (t, min x.coreRows (5 - s.heldAgainst k x t % 8)))

/-! ### Lanes and fences (R105, R106, R108, R109) -/

/-- The command waits as an issued BEAD_OP or PEG_OP. -/
def Cmd.waitsOp (x : Cmd) : Bool := x.phase == .waiting && (x.opcode == 0x0090 || x.opcode == 0x0091)

/-- The commands of a ring that were fetched before this one. -/
def earlier (cmds : List Cmd) (x : Cmd) : List Cmd := cmds.takeWhile (fun y => y.count != x.count)

/-- The oldest main-lane command of a ring that has not completed. -/
def oldestMain (cmds : List Cmd) : Option Cmd := cmds.find? (fun y => y.lane == 0 && !y.atFetch)

/-- The conflict test of R107 between a filler command and the main command, with the rows that the main command holds:
one that has not issued holds none. -/
def State.overlaps (s : State) (c : Nat) (f m : Cmd) : Bool :=
  s.conflicts c f c m || f.tiles.any (fun t => resClash f.rows (if m.issued then m.holds t else 0))

/-- Command `m` waits for a bead, or in format 3 for a peg, that command `z` of its ring signals. -/
def State.feeds (s : State) (c : Nat) (z m : Cmd) : Bool :=
  (List.range m.waitCount).any (fun i =>
    if z.fmt = 3 then z.signal.testBit 13 && z.signal % 4096 == m.wait i % 4096
    else (s.signalBead c z).isSome && s.signalBead c z == (s.vid c (m.wait i % 65536)).1)

/-- The main command `m` waits for filler command `x`, which stands before it in the ring: by its fence, or by a bead
that this or a later filler command before it signals (R106, R257). The overlap test would let neither ever issue, so it
does not hold `x` (log entry 21). -/
def State.awaits (s : State) (c : Nat) (cmds : List Cmd) (m x : Cmd) : Bool :=
  let before := earlier cmds m
  before.any (fun y => y.count == x.count) && m.phase == .fetched &&
  (m.fence || ((before.dropWhile (fun y => y.count != x.count)).filter (fun z => z.lane == 1)).any (fun z => s.feeds c z m))

/-- The oldest main-lane command of a ring with the footprint that the filler rule sees, and whether it blocks its
lane. -/
abbrev MainView := Option (Cmd × Bool)

/-- A filler command may issue beside the main lane (R109). -/
def State.fillerOk (s : State) (c : Nat) (cmds : List Cmd) (x : Cmd) (view : MainView) : Bool :=
  match view with
  | none => true
  | some (m, blocked) => s.awaits c cmds m x || (blocked && !s.overlaps c x m)

/-- A command that has yielded continues: a filler command when the main lane blocks or drains or waits for it, another
when the resources are free (R109, R343). -/
def State.mayContinue (s : State) (k : Nat) (x : Cmd) (view : MainView) : Bool :=
  x.yielded == .no ||
  ((x.yielded == .toContext || match view with
      | none => true
      | some (m, blocked) => blocked || s.awaits (k / 64) (s.ring k).cmds m x) &&
   x.tiles.all (fun t => !resClash x.rows (heldOn s.issuedCmds t)))

/-- A command that continues holds resources again. -/
def State.takeBack (s : State) (k : Nat) (x : Cmd) : State :=
  if x.yielded = .no then s
  else
    let rows := x.tiles.map (fun t => (t, min x.coreRows (5 - heldOn s.issuedCmds t % 8)))
    s.updCmd k x.count (fun y => { y with yielded := .no, granted := rows })

/-- The device lets commands issue: READY, DEGRADED, or the first phase of a brace (R533). -/
def State.mayIssue (s : State) : Bool := s.serving || (s.dev == Dev.braced && s.rd F.mgtBraceStatus_PHASE == 1)

/-- The command's lane, its waits and its fence let it issue; the scoreboard is judged apart. -/
def State.issuable (s : State) (k : Nat) (x : Cmd) : Bool :=
  let c := k / 64
  let r := s.ring k
  let e := earlier r.cmds x
  s.mayIssue && s.ctxState c == Ctx.active && x.phase == .fetched && x.armed && !r.dispatchStalled &&
  s.waitsMet c x && e.all (fun y => y.phase != .fetched || y.lane != x.lane) &&
  e.all (fun y => !(y.lane == x.lane && y.waitsOp)) &&
  (!(x.fence || x.opcode == 0x00A0 || x.opcode == 0x00A1) || e.isEmpty)

/-! ### Dispatch (R256, R342, R581) -/

/-- What the dispatcher's reading of a command gives: the status of the first check that fails, or the snapshot of
the descriptor and of the tables. -/
abbrev Prep := Except Nat (List Byte × List (List Byte))

/-- Units run to the end of the command, one after another. -/
def State.runPlan (s : State) (k : Nat) (x : Cmd) (p : Plan) : State :=
  (s.runUnits k x.count p p.units).settle k x.count p

/-- The tiles of a ring's effective set. -/
def State.effTiles (s : State) (k : Nat) : List Nat := bitList (s.ring k).eff 48

/-- The effective set is empty or holds a tile retired since it was fixed (R104). -/
def State.tilesGone (s : State) (k : Nat) : Bool :=
  s.effTiles k == [] || (s.effTiles k).any (fun t => !s.tilePresent t)

/-- How an engine takes a command: the reading and the checks of the dispatcher, the footprint and the resources of
the snapshot, whether it runs on the engines of tiles, and its start. -/
structure Engine where
  prep : State → Nat → Cmd → U Prep
  foot : Cmd → List (Nat × Nat × Bool) := fun _ => []
  rows : Cmd → Nat := fun _ => 0
  tiled : Bool := false
  /-- The footprint is known before the waits: the command reads no tables (R256). -/
  early : Cmd → U Bool := fun _ => pure true
  /-- It ends UNIT_ABSENT when it is handed over (R104). -/
  gone : State → Nat → Cmd → Bool := fun s k _ => tiled && s.tilesGone k
  /-- The units of a command, from the command alone, so that they can run again. -/
  plan : Nat → Cmd → Plan := fun _ _ => { units := [], run := fun _ => pure ⟨⟩ }
  start : State → Nat → Cmd → State := fun s k x => s.runPlan k x (plan k x)

/-- The generator states of the tiles of a ring as a command finds them. -/
def State.seedsOf (s : State) (k : Nat) : Tbl Nat :=
  (s.effTiles k).map (fun t => (t, (s.reg Reg.tilSrngSeed (k / 64 * 48 + t)).toNat))

/-- How often those generators have been written (R75). -/
def State.seedGensOf (s : State) (k : Nat) : Tbl Nat :=
  (s.effTiles k).map (fun t => (t, lookD s.seedGens (k / 64 * 48 + t) 0))

/-- The command with its snapshot, as the scoreboard judges it. -/
def Engine.judged (e : Engine) (s : State) (k : Nat) (x : Cmd) (d : List Byte) (t : List (List Byte)) : Cmd :=
  let y := { x with desc := d, tables := t, tiles := if e.tiled then s.effTiles k else [], loans := [] }
  { y with foot := footprint (e.foot y), rows := e.rows y }

/-- The dispatcher of a ring at work on a command. -/
def State.dispAcc (s : State) (k : Nat) (x : Cmd) : Acc := s.acc (k / 64) (Unit.die (s.fetchDie k)) (lookD x.loans 0 {})

/-- The command that the dispatcher's reading gives, when it meets no fault and no failing check. -/
def Engine.read (e : Engine) (s : State) (k : Nat) (x : Cmd) : Option Cmd :=
  let (r, a) := (e.prep s k x).run (s.dispAcc k x)
  if a.fault.isSome || a.lost != [] then none
  else match r with
    | .error _ => none
    | .ok (d, t) => some (e.judged s k x d t)

/-- A command whose tables are not to be read yet may touch every address (R109, R256). -/
def everyAddress : List (Nat × Nat × Bool) := [(0, 2 ^ 64, true)]

/-- The oldest main-lane command as the filler rule sees it: an issued one with what it holds, another with the footprint
that its descriptor gives, every address while tables are still to be read. -/
def State.judgedMain (s : State) (k : Nat) (engines : Nat → Option Engine) (m : Cmd) : Cmd :=
  let all := { m with foot := everyAddress }
  if m.phase != .fetched then m
  else match engines m.opcode with
    | none => all
    | some e =>
      let late := !((e.early m).run (s.dispAcc k m)).1
      let waits := !s.waitsMet (k / 64) m || (m.fence && !(earlier (s.ring k).cmds m).isEmpty)
      if late && waits then all else (e.read s k m).getD all

/-- The main lane is blocked by its oldest command, `m` as judged (R108). -/
def State.mainBlocked (s : State) (k : Nat) (m : Cmd) : Bool :=
  let gave (e : Nat × Cmd) : Bool := e.1 == k && e.2.lane == 1 && e.2.yielded != .no && s.conflicts (k / 64) m (k / 64) e.2
  if m.phase == .fetched then
    !s.waitsMet (k / 64) m || (s.issuedCmds.any gave && s.boardOk k m gave)
  else m.waitsOp || m.stalls != []

def State.mainView (s : State) (k : Nat) (engines : Nat → Option Engine) : MainView :=
  (oldestMain (s.ring k).cmds).map (fun m => let y := s.judgedMain k engines m; (y, s.mainBlocked k y))

/-- The tile groups of the ring that are not ON and can wake (R36, R506). -/
def State.asleep (s : State) (k : Nat) : List Nat :=
  ((s.effTiles k).map tileDom).eraseDups.filter (fun d => !s.domOn d && !s.pwr.failed.contains d)

/-! ### The arbitration of rings (R109, R343) -/

/-- Ring `j` goes before ring `k`: by the priority of its context, then by the round-robin: the ring that issued longest
ago goes first, and the lower number of two that have not issued yet (log entry 120). -/
def State.precedes (s : State) (j k : Nat) : Bool :=
  let pj := s.rd F.ctxSched_PRIO (j / 64)
  let pk := s.rd F.ctxSched_PRIO (k / 64)
  let tj := lookD s.served j 0
  let tk := lookD s.served k 0
  decide (pk < pj) || (pj == pk && (decide (tj < tk) || (tj == tk && decide (j < k))))

/-- The scoreboard and the filler rule let the judged command issue. -/
def State.admits (s : State) (k : Nat) (y : Cmd) (engines : Nat → Option Engine) : Bool :=
  s.boardOk k y && (y.lane != 1 || s.fillerOk (k / 64) (s.ring k).cmds y (s.mainView k engines))

/-- A command of ring `k` would issue on its tiles now. -/
def State.wouldIssue (s : State) (k : Nat) (x : Cmd) (engines : Nat → Option Engine) : Bool :=
  s.issuable k x && match engines x.opcode with
    | none => false
    | some e => e.tiled && (s.asleep k).isEmpty && match e.read s k x with
      | none => false
      | some y => s.admits k y engines && !e.gone s k y

/-- Whether it is the turn of a ring to issue command `y`: no ring that goes before it has a command that would issue on
one of the command's tiles. -/
def State.itsTurn (s : State) (k : Nat) (y : Cmd) (engines : Nat → Option Engine) : Bool :=
  s.rings.all (fun e => e.1 == k || !s.precedes e.1 k || !(s.effTiles e.1).any y.tiles.contains ||
    !e.2.cmds.any (fun z => s.wouldIssue e.1 z engines))

/-- The ring has had its turn. -/
def State.serve (s : State) (k : Nat) (y : Cmd) : State :=
  if y.tiles = [] then s else { s with served := put s.served k (1 + s.served.foldl (fun m e => max m e.2) 0) }

/-- The unit state of a command that has yielded to a higher priority, in the save area of its context, behind the
header; its length and its bytes are free (R343; log entry 121). -/
def State.saveYield (s : State) (c : Nat) : State :=
  let (v, s) := s.fresh
  let n := v.toNat % 2 ^ 20
  if n + 64 > s.rd F.ctxSave_SIZE c * 2 ^ 20 then s
  else
    let (body, s) := s.freeBytes n
    (s.writePhys (s.rd F.ctxSave_BASE c * 65536 + 64) body).2

/-- What yields to a command that issues: each command that may, on a tile where less is free than is needed, holding
something that is needed there (R109, R343). -/
def State.yieldTo (s : State) (k : Nat) (x : Cmd) : State :=
  let all := s.issuedCmds
  let gives (e : Nat × Cmd) : Bool := e.2.yielded == .no && s.yieldOf k x e.1 e.2 != .no &&
    x.tiles.any (fun t => resShort x.rows (heldOn all t) && resShort (if x.coreRows = 0 then x.rows else x.rows / 8 * 8 + 5) (e.2.holds t))
  (all.filter gives).foldl (fun s e =>
    let why := s.yieldOf k x e.1 e.2
    let s := s.updCmd e.1 e.2.count (fun y => { y with yielded := why })
    if why = .toContext then s.saveYield (e.1 / 64) else s) s

/-! ### The hand-over -/

/-- A command handed to its engine: START is the device time of issue. What it needs and another gives up is yielded, the
ring has had its turn, and the self-test of its tiles is abandoned (R521). -/
def State.launch (s : State) (k : Nat) (e : Engine) (y : Cmd) : State :=
  let y := { y with phase := .stalled, start := s.time, issuedAt := s.ivl, armed := false, since := none, limit := s.waitLimit (k / 64) y,
                    ver := s.rd F.ctxVersion_CURRENT (k / 64), granted := s.rowGrants k y,
                    unit := Unit.die (s.fetchDie k), seeds := if e.tiled then s.seedsOf k else [],
                    seedGens := if e.tiled then s.seedGensOf k else [] }
  let s := if s.rel.testing == [] then s
    else { s with rel := { s.rel with testing := s.rel.testing.filter (fun t => !y.tiles.contains t) } }
  let s := (s.yieldTo k y).serve k y
  (e.start (s.updCmd k y.count (fun _ => y)) k y).armRing k

/-- A command at the moment it would issue: the dispatcher reads its descriptor and its tables, checks them, and
hands it over, unless the scoreboard or the turn of another ring holds it. -/
def State.dispatch (s : State) (k : Nat) (x : Cmd) (e : Engine) (engines : Nat → Option Engine) : State :=
  let c := k / 64
  let d := Unit.die (s.fetchDie k)
  let (r, a) := (e.prep s k x).run (s.dispAcc k x)
  match a.fault with
  | some f =>
    match f.why with
    | .fatal cause => (a.s.tellFault c d f cause x.tag).rejectCmd k x.count (causeStatus cause)
    | .stall kind =>
      let st := stallOf a.s 0 d kind f true
      (a.s.updCmd k x.count (fun y => { y with stalls := [st] })).onStall st
  | none =>
    match a.lost with
    | g :: _ =>
      let s := a.s.tellLoss c d g a.lost.length
      let s := s.updCmd k x.count (fun y => { y with lost := a.lost, lossTold := true })
      s.rejectCmd k x.count St.dataLoss
    | [] =>
      match r with
      | .error st => a.s.rejectCmd k x.count st
      | .ok (desc, tabs) =>
        let y := e.judged s k x desc tabs
        if !s.admits k y engines || !s.itsTurn k y engines then s
        else if e.gone s k y then a.s.rejectCmd k x.count St.unitAbsent
        else a.s.launch k e y

/-- The event of a command's issue: nothing happens while it may not issue; tile groups asleep are woken first. -/
def State.issue (s : State) (id : CmdId) (opcode : Nat) (engines : Nat → Option Engine) : State :=
  let k := CmdKey id
  match s.cmd id, engines opcode with
  | some x, some e =>
    if x.opcode ≠ opcode ∨ !s.issuable k x then s
    else if e.tiled ∧ s.asleep k ≠ [] then (s.asleep k).foldl State.askWake s
    else s.dispatch k x e engines
  | _, _ => s

/-! ### Reading a descriptor -/

/-- The descriptor of a command: its address must have the chapter's alignment. -/
def readDesc (x : Cmd) (bytes align : Nat) : U (Except Nat (List Byte)) := do
  if x.descAddr % align ≠ 0 then return .error St.descInvalid
  else return .ok (← uRead x.descAddr bytes)

/-- A check of a descriptor: the status when it fails. -/
def need (ok : Bool) (st : Nat) : Except Nat Unit := if ok then .ok ⟨⟩ else .error st

/-- Bytes `[lo, hi)` of a descriptor are zero. -/
def zeroAt (d : List Byte) (lo hi : Nat) : Bool := (slice d lo (hi - lo)).all (· == 0)

end Sys2Proof.Machine
end

