-- ==== Sys2Proof/Machine/Tensor.lean ====
section
/-!
DEFINITION. Tensors (R42 to R60, R66 to R68): the tensor reference and its checks, the reading of rows, and the
encoding and writing of rows, block-scaled and unscaled.
-/
namespace Sys2Proof.Machine

/-! ### Format codes (R45) -/

abbrev FC.bf16 : Nat := 0x0A
abbrev FC.fp16 : Nat := 0x0B
abbrev FC.fp32 : Nat := 0x0C
abbrev FC.x36 : Nat := 0x0D
abbrev FC.int32 : Nat := 0x0E

def fmtListed (c : Nat) : Bool := (1 ≤ c && c ≤ 6) || (8 ≤ c && c ≤ 14)
/-- The element format of a code; INT32 has none and reads as FP32 here, and is never asked. -/
def fmtOf (c : Nat) : Fmt :=
  match c with
  | 1 => .hf4 | 2 => .hf6 | 3 => .hf8n | 4 => .hf8w | 5 => .hf4 | 6 => .hf6
  | 8 => .hf8n | 9 => .hf8w | 10 => .bf16 | 11 => .fp16 | 13 => .x36 | _ => .fp32
def fmtBlocked (c : Nat) : Bool := decide (1 ≤ c ∧ c ≤ 6)
def fmtEscaped (c : Nat) : Bool := c == 5 || c == 6
/-- Bytes of an unscaled element; X36 is baled. -/
def fmtSize (c : Nat) : Nat := if c = 8 ∨ c = 9 then 1 else if c = 10 ∨ c = 11 then 2 else 4
/-- Payload bytes of a block (R54). -/
def blockBytes (c : Nat) : Nat := match fmtOf c with | .hf4 => 16 | .hf6 => 24 | _ => 32
/-- Payload bytes of `n` elements from the start of a row. -/
def payBytes (c n : Nat) : Nat :=
  if fmtBlocked c then blockBytes c * ceilDiv n 32 else if c = FC.x36 then 72 * ceilDiv n 16 else fmtSize c * n

/-! ### The tensor reference (R53) -/

structure TRef where
  fmt : Nat
  cvt : Nat
  coarse : Int
  rows : Nat
  cols : Nat
  pay : Nat
  payPitch : Nat
  scPitch : Nat
  sc : Nat
  esc : Nat
  escPitch : Nat
  res : Bool
  /-- Half of the elements are stored (R89). -/
  half : Bool := false
  deriving DecidableEq, Repr

def TRef.parse (d : List Byte) (o : Nat) : TRef :=
  { fmt := fieldAt d o 0 8, cvt := fieldAt d (o + 1) 0 8, coarse := signed 16 (fieldAt d (o + 2) 0 16),
    rows := fieldAt d (o + 4) 0 32, cols := fieldAt d (o + 8) 0 32, pay := fieldAt d (o + 16) 0 64,
    payPitch := fieldAt d (o + 24) 0 32, scPitch := fieldAt d (o + 28) 0 32, sc := fieldAt d (o + 32) 0 64,
    esc := fieldAt d (o + 40) 0 64, escPitch := fieldAt d (o + 48) 0 32,
    res := zeroAt d (o + 12) (o + 16) && zeroAt d (o + 52) (o + 64) }

/-- The planes of a reference: address, pitch, bytes of each row. -/
def TRef.planes (t : TRef) : List (Nat × Nat × Nat) :=
  [(t.pay, t.payPitch, if !t.half then payBytes t.fmt t.cols
    else if fmtBlocked t.fmt then blockBytes t.fmt / 2 * ceilDiv t.cols 32 else payBytes t.fmt (t.cols / 2))] ++
  (if fmtBlocked t.fmt then [(t.sc, t.scPitch, ceilDiv t.cols 32)] else []) ++
  (if fmtEscaped t.fmt then [(t.esc, t.escPitch, 3 * ceilDiv t.cols 32)] else [])

/-- The bytes that a plane spans, from the first byte of its first row to the last byte of its last. Overlap is judged
on these spans, so that the gaps between the rows of a plane count as part of it (log entry 111). -/
def planeSpan (rows : Nat) (p : Nat × Nat × Nat) : Nat × Nat := (p.1, (rows - 1) * p.2.1 + p.2.2)

/-- Two byte ranges overlap. -/
def spansMeet (a b : Nat × Nat) : Bool := decide (a.1 < b.1 + b.2 ∧ b.1 < a.1 + a.2)

/-- The spans of a reference. -/
def TRef.spans (t : TRef) : List (Nat × Nat) := t.planes.map (planeSpan t.rows)

/-- Two references share a byte. -/
def TRef.meets (a b : TRef) : Bool := a.spans.any (fun x => b.spans.any (spansMeet x))

/-- The footprint of a reference (R107). -/
def TRef.foot (t : TRef) (w : Bool) : List (Nat × Nat × Bool) := t.spans.map (fun p => footRange p.1 p.2 w)

/-- The checks of a reference in their order (R53, R57, R618): the format first, then the rest. -/
def TRef.check (t : TRef) (dst : Bool) : Except Nat Unit := do
  need (fmtListed t.fmt) St.fmtUnsupported
  let blocked := fmtBlocked t.fmt
  let noOverlap := t.spans.zipIdx.all (fun a => t.spans.zipIdx.all (fun b => a.2 == b.2 || !spansMeet a.1 b.1))
  need (t.res && t.rows ≥ 1 && t.cols ≥ 1 &&
    (if dst then cvtOk t.cvt else t.cvt == 0) &&
    (if blocked then -768 ≤ t.coarse && t.coarse ≤ 768 else t.coarse == 0) &&
    t.pay % 64 == 0 && t.payPitch % 64 == 0 &&
    (if blocked then t.sc % 8 == 0 && t.scPitch % 8 == 0 else t.sc == 0 && t.scPitch == 0) &&
    (if fmtEscaped t.fmt then t.esc % 8 == 0 && t.escPitch % 8 == 0 else t.esc == 0 && t.escPitch == 0) &&
    (t.rows == 1 || t.planes.all (fun p => decide (p.2.1 ≥ p.2.2))) &&
    (!dst || noOverlap)) St.descInvalid

/-! ### Reading (R46 to R56, R58, R59) -/

/-- An element as it is stored: its payload value (or its escape value, or what the fine code makes of it), the block
scale in semioctaves that still applies to it, and whether it stands in a zero block (R50). -/
structure El where
  v : Num := Num.zero
  s : Int := 0
  hole : Bool := false
  deriving DecidableEq, Repr

/-- The element in X36 (R41, R51). -/
def El.num (e : El) : Num := match e.v with
  | .fin _ 0 _ => e.v
  | .fin _ _ _ => (x36 (unscale e.v e.s)).1
  | x => x

/-- The element exactly, before the rounding of an odd block scale: what one conversion to an unscaled format rounds
(R61). -/
def El.exact (e : El) : Num := match e.v with
  | .fin _ 0 _ => e.v
  | .fin _ _ _ => unscale e.v e.s
  | x => x

/-- Payload code `i` of a block (R55). -/
def blockCode (f : Fmt) (b : List Byte) (i : Nat) : Nat :=
  match f with
  | .hf4 => fieldAt b (i / 2) (4 * (i % 2)) 4
  | .hf6 => fieldAt b (i / 4 * 3) (6 * (i % 4)) 6
  | _ => fieldAt b i 0 8

/-- The elements of one block, `n` of them real. -/
def decodeBlock (c : Nat) (coarse : Int) (n : Nat) (pay : List Byte) (fine : Nat) (esc : List Byte) : List El :=
  let f := fmtOf c
  let ei := fieldAt esc 0 0 5
  let ev := Fmt.bf16.decode (fieldAt esc 1 0 16)
  (List.range n).map (fun i =>
    let code := blockCode f pay i
    if fine = 0 then { hole := true }
    else if fine = 0xFE then { v := .inf (bit code (f.bits - 1)) }
    else if fine = 0xFF then { v := .nan }
    else if fmtEscaped c && !ev.isZero && ei == i then { v := ev }
    else { v := f.decode code, s := coarse + fine - 128 })

/-- Block `b` of row `r`. -/
def TRef.readBlock (t : TRef) (r b : Nat) : U (List El) := do
  let w := blockBytes t.fmt
  let pay ← uRead (t.pay + r * t.payPitch + b * w) w
  let fine ← uNat (t.sc + r * t.scPitch + b) 1
  let esc ← if fmtEscaped t.fmt then uRead (t.esc + r * t.escPitch + 3 * b) 3 else pure []
  return decodeBlock t.fmt t.coarse (min 32 (t.cols - 32 * b)) pay fine esc

/-- Elements `[j, j + n)` of row `r`, with the flags of their reading (R619). -/
def TRef.readEls (t : TRef) (denorm : Bool) (r j n : Nat) : U (List El × Fl) := do
  if n = 0 then return ([], {})
  else if fmtBlocked t.fmt then
    let bs ← (List.range ((j + n - 1) / 32 + 1 - j / 32)).mapM (fun i => t.readBlock r (j / 32 + i))
    return ((bs.flatten.drop (j % 32)).take n, {})
  else
    let f := fmtOf t.fmt
    let row := t.pay + r * t.payPitch
    let codes ←
      if t.fmt = FC.x36 then do
        let b0 := j / 16
        let k := (j + n - 1) / 16 + 1 - b0
        let x := leNat (← uRead (row + 72 * b0) (72 * k))
        pure ((List.range n).map (fun i => bitsOf x (36 * (j - 16 * b0 + i)) 36))
      else do
        let z := fmtSize t.fmt
        let bs ← uRead (row + z * j) (z * n)
        pure ((List.range n).map (fun i => fieldAt bs (z * i) 0 (8 * z)))
    let xs := codes.map (f.readElem denorm)
    return (xs.map (fun x => { v := x.1 }), xs.foldl (fun a x => a.or x.2) {})

/-- Elements of a row in X36. -/
def TRef.readNums (t : TRef) (denorm : Bool) (r j n : Nat) : U (List Num × Fl) := do
  let (es, f) ← t.readEls denorm r j n
  return (es.map El.num, f)

/-- INT32 elements of a row as codes. -/
def TRef.readInts (t : TRef) (r j n : Nat) : U (List Nat) := do
  let bs ← uRead (t.pay + r * t.payPitch + 4 * j) (4 * n)
  return (List.range n).map (fun i => fieldAt bs (4 * i) 0 32)

/-! ### Encoding a block (R66, R67) -/

/-- A block as it is written. -/
structure Block where
  fine : Nat
  codes : List Nat
  esc : Option (Nat × Nat)
  flags : Fl := {}
  vanished : Nat := 0
  deriving DecidableEq, Repr

/-- The largest magnitude among the finite values. -/
def maxFin (xs : List Num) : Num :=
  xs.foldl (fun a x => match x with | .fin _ _ _ => if a.lt x.abs then x.abs else a | _ => a) Num.zero

/-- The smallest fine code whose scaling brings `m` down to the largest finite value of the format. -/
def fineCode (f : Fmt) (c : Int) (m : Num) : Option Nat :=
  ((List.range 0xFE).drop 1).find? (fun i => (scaled m (c + (i : Int) - 128)).le f.maxNum)

/-- The position of the largest magnitude; the lowest wins a tie. -/
def maxIndex (xs : List Num) : Nat :=
  (xs.zipIdx.foldl (fun (a : Nat × Num) x => if a.2.lt x.1.abs then (x.2, x.1.abs) else a) (0, Num.zero)).1

/-- The sign bit of a payload code. A source NaN has no sign (R39), so that the element of a block written 0xFE that
stands for one carries the bit 0: the model's choice (log entry 109). -/
def signCode (f : Fmt) (x : Num) : Nat := b2n x.isNeg * 2 ^ (f.bits - 1)

/-- One payload element: its code, its flags, and whether it vanished (R66, R69, R619). A scaled value above the
largest finite one, which stands in a block forced to code 0xFD alone, is clamped whatever it would round to. -/
def encodeElem (f : Fmt) (cvt : Cvt) (s : Int) (draw : Option Nat) (x : Num) : Nat × Fl × Bool :=
  match x with
  | .fin n (m + 1) e =>
    let y := scaled (.fin n (m + 1) e) s
    let (z, fl) := if f.maxNum.lt y.abs then (if n then f.maxNum.neg else f.maxNum, { saturated := true })
                   else f.round { cvt with denorm := false } draw y
    match z with
    | .fin n m' q =>
      if m' = 0 then (signCode f x, fl, true)
      else if cvt.denorm && m' < 2 ^ f.mb then (signCode f x, { fl with flushed := true }, false)
      else (f.pack n m' q, fl, false)
    | z => (f.code z, fl, false)
  | x => (f.code x, {}, false)

/-- The block written with the overflow code: the signs are kept; a nonzero finite element becomes ±Inf, which is an
OVERFLOW (R67, R69). -/
def infBlock (f : Fmt) (xs : List Num) : Block :=
  { fine := 0xFE, codes := xs.map (signCode f), esc := none,
    flags := { overflow := xs.any (fun x => x.isFin && !x.isZero) } }

/-- The escape of a block: the position and the BF16 value of the largest element, with the flags of its rounding
(R66); none when it rounds to zero. -/
def chooseEsc (c : Nat) (cvt : Cvt) (xs : List Num) : Option (Nat × Num) × Fl :=
  if fmtEscaped c && decide ((xs.filter (fun x => !x.isZero)).length ≥ 2) then
    let j := maxIndex xs
    let (v, fl) := Fmt.bf16.round { cvt with stoch := false } none (xs[j]?.getD Num.zero)
    if v.isZero then (none, {}) else (some (j, v), fl)
  else (none, {})

/-- The encoding of a block (R66); `draw i` is the draw of element `i`. A block that ends as code 0x00 because every
element rounds to zero is written like the block of zeros: zero payload and no escape (log entry 110). -/
def encodeBlock (c : Nat) (coarse : Int) (cvt : Cvt) (draw : Nat → Option Nat) (xs : List Num) : Block :=
  let f := fmtOf c
  let narrow := !f.special
  if xs.all Num.isZero then { fine := 0, codes := xs.map (fun _ => 0), esc := none }
  else if narrow && xs.any Num.isNan then { fine := 0xFF, codes := xs.map (fun _ => 0), esc := none }
  else if narrow && xs.any Num.isInf then infBlock f xs
  else
    let (esc, efl) := chooseEsc c cvt xs
    let xs' := match esc with
      | some (j, _) => xs.zipIdx.map (fun x => if x.2 = j then Num.zero else x.1)
      | none => xs
    let m := maxFin xs'
    let fine := if m.isZero then some 0x80 else match fineCode f coarse m with
      | some k => some k
      | none => if cvt.sat then some 0xFD else none
    match fine with
    | none => infBlock f xs
    | some k =>
      let es := xs'.zipIdx.map (fun x => encodeElem f { cvt with sat := true } (coarse + k - 128) (draw x.2) x.1)
      let fl := es.foldl (fun a e => a.or e.2.1) efl
      let van := (es.filter (fun e => e.2.2)).length
      let fl := { fl with vanished := van != 0 }
      let zero := esc.isNone && es.all (fun e => e.1 % 2 ^ (f.bits - 1) == 0)
      { fine := if zero then 0 else k, codes := if zero then xs.map (fun _ => 0) else es.map (·.1),
        esc := esc.map (fun p => (p.1, Fmt.bf16.code p.2)), flags := fl, vanished := van }

/-- The payload bytes of a block of 32 codes (R55, R56). -/
def packBlock (f : Fmt) (codes : List Nat) : List Byte :=
  let cs := codes ++ List.replicate (32 - codes.length) 0
  let x := (cs.zipIdx.map (fun p => p.1 <<< (p.2 * f.bits))).foldl (· + ·) 0
  natLE (4 * f.bits) x

/-! ### Writing -/

/-- Flags and counts joined to a unit's. -/
def uFlags (f : Fl) : U PUnit := fun a => (⟨⟩, { a with flags := a.flags ||| f.bits })
def uVanish (n : Nat) : U PUnit := fun a => (⟨⟩, { a with van := satAdd 32 a.van n })
def uDraws (n : Nat) : U PUnit := fun a => (⟨⟩, { a with draws := a.draws + n })
def uPart (p : List Nat) : U PUnit := fun a => (⟨⟩, { a with part := a.part ++ p })
def uCount (n : Nat) : U PUnit := fun a => (⟨⟩, { a with cnt := a.cnt + n })
def uStop (st : Nat) : U PUnit := fun a => (⟨⟩, { a with stop := some st })
def uState : U State := fun a => (a.s, a)

/-- The bytes of a row of X36 values from a bale boundary on (R42, R43). -/
def packBales (codes : List Nat) : List Byte :=
  natLE (72 * ceilDiv codes.length 16) ((codes.zipIdx.map (fun p => p.1 <<< (36 * p.2))).foldl (· + ·) 0)

/-- Lists of at most `n` elements. -/
def chunks {α : Type} (n : Nat) : Nat → List α → List (List α)
  | 0, _ => []
  | _, [] => []
  | f + 1, xs => xs.take n :: chunks n f (xs.drop n)

/-- A piece of a row being ready to be written: the address and the bytes of each plane, flags, VANISHED. -/
structure RowOut where
  writes : List (Nat × List Byte) := []
  flags : Fl := {}
  vanished : Nat := 0
  deriving DecidableEq, Repr

/-- The encoding of elements `[j, j + |xs|)` of row `r` of a destination. `j` stands on a block or a bale boundary;
`draw i` is the draw of element `i` of the piece. -/
def TRef.encodeRow (t : TRef) (draw : Nat → Nat) (r j : Nat) (xs : List Num) : RowOut :=
  let cvt := Cvt.ofByte t.cvt
  let f := fmtOf t.fmt
  let d (i : Nat) : Option Nat := if cvt.stoch then some (draw i) else none
  if fmtBlocked t.fmt then
    let bs := (chunks 32 (xs.length + 1) xs).zipIdx.map (fun p => encodeBlock t.fmt t.coarse cvt (fun i => d (32 * p.2 + i)) p.1)
    let b0 := j / 32
    { writes := [(t.pay + r * t.payPitch + b0 * blockBytes t.fmt, bs.flatMap (fun b => packBlock f b.codes)),
                 (t.sc + r * t.scPitch + b0, bs.map (fun b => BitVec.ofNat 8 b.fine))] ++
        (if fmtEscaped t.fmt then [(t.esc + r * t.escPitch + 3 * b0, bs.flatMap (fun b =>
            match b.esc with | some (i, v) => natLE 1 i ++ natLE 2 v | none => [0, 0, 0]))] else []),
      flags := bs.foldl (fun a b => a.or b.flags) {}, vanished := (bs.map (·.vanished)).sum }
  else
    let ys := xs.zipIdx.map (fun p => f.round cvt (d p.2) p.1)
    let codes := ys.map (fun y => f.code y.1)
    let fl := ys.foldl (fun a y => a.or y.2) {}
    let row := t.pay + r * t.payPitch
    if t.fmt = FC.x36 then { writes := [(row + 72 * (j / 16), packBales codes)], flags := fl }
    else { writes := [(row + fmtSize t.fmt * j, codes.flatMap (natLE (fmtSize t.fmt)))], flags := fl }

/-- The destination takes draws (R64). -/
def TRef.draws (t : TRef) : Bool := (Cvt.ofByte t.cvt).stoch && t.fmt != FC.x36

/-- A piece of a row written, with its flags, its VANISHED elements and its draws. -/
def TRef.writeRow (t : TRef) (draw : Nat → Nat) (r j : Nat) (xs : List Num) : U PUnit := do
  let o := t.encodeRow draw r j xs
  o.writes.forM (fun w => uOut w.1 w.2)
  uFlags o.flags
  uVanish o.vanished
  if t.draws then uDraws xs.length

/-- The payload bytes of a piece of `n` elements from element `j` of a row, cut so that the positions behind the piece
keep their bits when the row goes on (R131). -/
def TRef.keepTail (t : TRef) (j n : Nat) (w : Nat × List Byte) : U (Nat × List Byte) := do
  let k := (fmtOf t.fmt).bits * n
  if t.cols ≤ j + n ∨ 8 * w.2.length ≤ k then return w
  else if k % 8 = 0 then return (w.1, w.2.take (k / 8))
  else
    let old ← uNat (w.1 + k / 8) 1
    let new := fieldAt w.2 (k / 8) 0 (k % 8)
    return (w.1, w.2.take (k / 8) ++ natLE 1 (new + old / 2 ^ (k % 8) * 2 ^ (k % 8)))

/-- A piece of a row written that may end before the row does: the elements behind it are not written. Its last block
takes the fine code and the escape that its written elements give (log entry 114). -/
def TRef.writePart (t : TRef) (draw : Nat → Nat) (r j : Nat) (xs : List Num) : U PUnit := do
  let o := t.encodeRow draw r j xs
  match o.writes with
  | [] => pure ⟨⟩
  | w :: ws => do
    let w ← t.keepTail j xs.length w
    (w :: ws).forM (fun w => uOut w.1 w.2)
  uFlags o.flags
  uVanish o.vanished
  if t.draws then uDraws xs.length

/-- INT32 codes written. -/
def TRef.writeInts (t : TRef) (r j : Nat) (xs : List Nat) : U PUnit := do
  uOut (t.pay + r * t.payPitch + 4 * j) (xs.flatMap (natLE 4))
  if t.draws then uDraws xs.length

end Sys2Proof.Machine
end

