-- ==== Sys2Proof/Machine/Dma.lean ====
section
/-!
DEFINITION. The DMA commands (R305 to R310): copies, scatters, gathers, and the reductions and compare-swaps that a
shared cache applies.
-/
namespace Sys2Proof.Machine

/-! ### Pieces of data with lost granules (R296) -/

/-- Bytes of one granule, or `none` where the granule is lost. -/
def Acc.tryIn (a : Acc) (va n : Nat) : Option (List Byte) × Acc :=
  let (bs, b) := { a with lost := [] }.readIn va n
  let b' := { b with lost := joinLost a.lost b.lost }
  if b.lost = [] then (some bs, b') else (none, b')

/-- A run of bytes as pieces that each lie in one granule of the source: offset in the run, bytes. -/
def Acc.tryRead : Nat → Acc → Nat → Nat → Nat → List (Nat × Option (List Byte)) × Acc
  | 0, a, _, _, _ => ([], a)
  | _, a, _, _, 0 => ([], a)
  | f + 1, a, va, off, n =>
    let m := min n (64 - va % 64)
    let (x, a) := a.tryIn va m
    let (t, a) := Acc.tryRead f a (va + m) (off + m) (n - m)
    ((off, x) :: t, a)

/-- A run of bytes read in pieces. -/
def uTry (va n : Nat) : U (List (Nat × Option (List Byte))) := fun a => Acc.tryRead (n + 1) a va 0 n

/-- The bytes of an element that were read, when all of them were. -/
def wholeOf (ps : List (Nat × Option (List Byte))) : Option (List Byte) :=
  ps.foldr (fun p t => match p.2, t with | some b, some t => some (b ++ t) | _, _ => none) (some [])

/-- The pieces of an element written where they go, but for those that were lost (R296). -/
def uPut (dst : Nat) (ps : List (Nat × Option (List Byte))) : U PUnit :=
  ps.forM (fun p => match p.2 with
    | some b => do uWrite (dst + p.1) b; uCount b.length
    | none => pure ⟨⟩)

/-- Bytes read whole, or `none` where any of them is lost. -/
def uTryAll (va n : Nat) : U (Option (List Byte)) := do
  return wholeOf (← uTry va n)

/-- A copy of at most 4 KiB: every page is translated before any byte is written, and destination bytes that come
from a lost granule stay unchanged (R296, R336). -/
def uCopy (src dst n : Nat) : U PUnit := do
  uProbe .write dst n
  let ps ← uTry src n
  uPut dst ps

/-! ### Reductions (R305) -/

/-- The bytes that a reduction's operands come in; an X36 run comes in whole bales. -/
def redSize (fmt : Nat) : Nat := if fmt = FC.bf16 then 2 else if fmt = FC.x36 then 72 else 4

/-- One operation on two values of a format: the result and its flags (R40, R62, R305). -/
def redNum (f : Fmt) (op : Nat) (a b : Num) : Num × Fl :=
  match op with
  | 1 => let s := a.add b
         let (r, fl) := f.round {} none s
         (r, fl.or (invalidIf s [a, b]))
  | 2 => (a.max b, {})
  | _ => (a.min b, {})

/-- One operation on INT32 words. -/
def redInt (op a b : Nat) : Nat :=
  match op with
  | 1 => (a + b) % 2 ^ 32
  | 2 => if signed 32 a < signed 32 b then b else a
  | _ => if signed 32 b < signed 32 a then b else a

/-- The new bytes of a destination operand, from the old ones and the source's. -/
def redBytes (fmt op : Nat) (old src : List Byte) : List Byte × Fl :=
  if fmt = FC.int32 then (natLE 4 (redInt op (leNat old) (leNat src)), {})
  else
    let f := fmtOf fmt
    let (r, fl) := redNum f op (f.decode (leNat old)) (f.decode (leNat src))
    (natLE (redSize fmt) (f.code r), fl)

/-- The five bytes that element `e` of a run of bales lies in, with the place of its 36 bits there. -/
def baleByte (e : Nat) : Nat := 36 * e / 8
def baleBit (e : Nat) : Nat := 36 * e % 8

/-- One operation on an X36 element: the new five bytes, the neighbour's half byte as it was. -/
def redElem (op e : Nat) (old src : List Byte) : List Byte × Fl :=
  let at_ (bs : List Byte) : Num := x36Of (bitsOf (leNat bs) (baleBit e) 36)
  let (r, fl) := redNum .x36 op (at_ old) (at_ src)
  (natLE 5 (setBits (leNat old) (baleBit e) 36 (x36Code r)), fl)

/-- A destination operand as the home cache reads it; a lost granule of it counts for nothing but the suppression. -/
def uOperand (dst n : Nat) : U (Option (List Byte)) :=
  fun a => let (x, b) := (uTryAll dst n).run { a with lost := [] }; (x, { b with lost := a.lost })

/-- One reduction applied at the home cache, on an operand of `n` bytes whose new bytes `new` gives; on a lost destination
granule it is suppressed (R297). `cnt` bytes of it are counted. -/
def uReduce (dst n cnt : Nat) (new : List Byte → List Byte × Fl) : U PUnit := do
  match ← uOperand dst n with
  | none => fun a => (⟨⟩, { a with dataLoss := true })
  | some old =>
    let (bs, fl) := new old
    uWriteK .atomic dst bs
    uFlags fl
    uCount cnt

/-- One compare-swap; the old value goes to the result. -/
def uCas (dst res : Nat) (src : List Byte) : U PUnit := do
  match ← uOperand dst 8 with
  | none => fun a => (⟨⟩, { a with dataLoss := true })
  | some old =>
    if old = src.take 8 then uWriteK .atomic dst (slice src 8 8)
    uWrite res old
    uCount 8

/-! ### The descriptor (R308) -/

structure Dma where
  op : Nat
  fmt : Nat
  elem : Nat
  src : Nat
  dst : Nat
  len : Nat
  idx : Nat
  res : Nat
  deriving DecidableEq, Repr

def Dma.parse (d : List Byte) : Dma :=
  { op := fieldAt d 1 0 3, fmt := fieldAt d 2 0 8, elem := fieldAt d 4 0 32, src := fieldAt d 8 0 64,
    dst := fieldAt d 16 0 64, len := fieldAt d 24 0 64, idx := fieldAt d 32 0 64, res := fieldAt d 40 0 64 }

/-- Bytes of one source element of a scatter or gather. -/
def Dma.srcElem (m : Dma) (opcode : Nat) : Nat := if opcode = 0x0010 then 1 else m.elem
/-- Bytes of the contiguous source of COPY and SCATTER, or of the contiguous destination of GATHER. -/
def Dma.run (m : Dma) (opcode : Nat) : Nat := m.len * m.srcElem opcode
/-- Alignment of a destination operand (R309). -/
def Dma.align (m : Dma) : Nat := if m.op = 0 then 1 else if m.op = 4 ∨ m.fmt = FC.x36 then 8 else redSize m.fmt

/-- Bytes of the contiguous destination of a COPY: CAS writes one word of 8 bytes for 16 of the source. -/
def Dma.dstBytes (m : Dma) : Nat := if m.op = 4 then m.len / 2 else m.len

/-- The checks of the descriptor in the order of R618. -/
def Dma.check (m : Dma) (opcode : Nat) (d : List Byte) : Except Nat Unit := do
  let copy := opcode == 0x0010
  let gather := opcode == 0x0012
  need (fieldAt d 0 0 8 == 1 && m.op ≤ 4 && (!gather || m.op == 0) && fieldAt d 1 3 5 == 0) St.descInvalid
  need (if m.op = 0 ∨ m.op = 4 then m.fmt == 0 else true) St.descInvalid
  need (zeroAt d 3 4) St.descInvalid
  need (if copy then m.elem == 0 else 1 ≤ m.elem && m.elem ≤ 2 ^ 20) St.descInvalid
  need (m.len ≥ 1 && (if copy then m.idx == 0 else m.idx % 8 == 0) &&
    (if m.op = 4 then m.res % 8 == 0 else m.res == 0) && zeroAt d 48 64) St.descInvalid
  need (m.op == 0 || m.op == 4 || m.fmt == FC.int32 || m.fmt == FC.fp32 || m.fmt == FC.bf16 ||
    (m.fmt == FC.x36 && copy)) St.fmtUnsupported
  need (copy || m.op == 0 || m.elem == (if m.op = 4 then 16 else redSize m.fmt)) St.descInvalid
  need (!copy || ((if m.op = 0 then true else m.dst % m.align == 0 && m.len % (if m.op = 4 then 16 else redSize m.fmt) == 0) &&
    !spansMeet (m.src, m.len) (m.dst, m.dstBytes))) St.descInvalid
  if copy then
    need (m.op != 4 || (!spansMeet (m.src, m.len) (m.res, m.len / 2) && !spansMeet (m.dst, m.len / 2) (m.res, m.len / 2)))
      St.descInvalid
  else
    let run := m.run opcode
    let side := if gather then m.dst else m.src
    need (!spansMeet (side, run) (m.idx, 8 * m.len) || !gather) St.descInvalid
    need (m.op != 4 || (!spansMeet (m.res, 8 * m.len) (m.src, run) && !spansMeet (m.res, 8 * m.len) (m.idx, 8 * m.len)))
      St.descInvalid

/-- The footprint: the contiguous sides, the index array and the result array (R107, R309). -/
def Dma.foot (m : Dma) (opcode : Nat) : List (Nat × Nat × Bool) :=
  let run := m.run opcode
  if opcode = 0x0010 then
    [footRange m.src m.len false, footRange m.dst m.dstBytes true] ++
    (if m.op = 4 then [footRange m.res (m.len / 2) true] else [])
  else
    [if opcode = 0x0012 then footRange m.dst run true else footRange m.src run false, footRange m.idx (8 * m.len) false] ++
    (if m.op = 4 then [footRange m.res (8 * m.len) true] else [])

/-! ### The units (R309, R310) -/

/-- An element of a reduction read from the source and applied at its destination. -/
structure RedElem where
  src : Nat
  bytes : Nat
  apply : List Byte → U PUnit

/-- The elements of a contiguous reduction whose source lies in bytes `[off, off + n)` of the run: an X36 element belongs
to the unit in which it starts (R309; log entry 11). -/
def Dma.elems (m : Dma) (off n : Nat) : List RedElem :=
  if m.op = 4 then (List.range (n / 16)).map (fun i => let j := off / 16 + i
    ({ src := m.src + 16 * j, bytes := 16, apply := uCas (m.dst + 8 * j) (m.res + 8 * j) } : RedElem))
  else if m.fmt = FC.x36 then
    let lo := ceilDiv (8 * off) 36
    (List.range (ceilDiv (8 * (off + n)) 36 - lo)).map (fun i => let e := lo + i
      ({ src := m.src + baleByte e, bytes := 5,
         apply := fun b => uReduce (m.dst + baleByte e) 5 (baleByte (e + 1) - baleByte e) (fun old => redElem m.op e old b) } : RedElem))
  else
    let z := redSize m.fmt
    (List.range (n / z)).map (fun i => let o := off + z * i
      ({ src := m.src + o, bytes := z, apply := fun b => uReduce (m.dst + o) z z (fun old => redBytes m.fmt m.op old b) } : RedElem))

/-- The reduction of a contiguous run: the source is read and the destination translated before any update (R310). An
element with a lost source granule is not applied (R296). -/
def Dma.copyReduce (m : Dma) (off n : Nat) : U PUnit := do
  if m.op = 4 then
    uProbe .atomic (m.dst + off / 2) (n / 2)
    uProbe .write (m.res + off / 2) (n / 2)
  else uProbe .atomic (m.dst + off) n
  let es := m.elems off n
  let bs ← es.mapM (fun e => uTryAll e.src e.bytes)
  if ← uGoes then
    (es.zip bs).forM (fun e => match e.2 with
      | some b => e.1.apply b
      | none => pure ⟨⟩)

/-- One element of a scatter with its destination. -/
def Dma.scatterOne (m : Dma) (i dst : Nat) (ps : List (Nat × Option (List Byte))) : U PUnit :=
  if m.op = 0 then uPut dst ps
  else match wholeOf ps with
    | none => pure ⟨⟩
    | some b =>
      if m.op = 4 then uCas dst (m.res + 8 * i) b
      else let z := redSize m.fmt; uReduce dst z z (fun old => redBytes m.fmt m.op old b)

/-- The elements `[i, i + n)` of a SCATTER: sources and indices are read and destinations translated first (R310).
An address that is not aligned stops the unit with DESC_INVALID (R309). -/
def Dma.scatter (m : Dma) (i n : Nat) : U PUnit := do
  let ix ← (List.range n).mapM (fun j => uTryAll (m.idx + 8 * (i + j)) 8)
  let es ← (List.range n).mapM (fun j => uTry (m.src + m.elem * (i + j)) m.elem)
  let dsts := ix.map (fun x => x.map (fun b => (m.dst + leNat b) % 2 ^ 64))
  dsts.forM (fun d => match d with
    | some d => uProbe (if m.op = 0 then .write else .atomic) d (if m.op = 4 then 8 else m.elem)
    | none => pure ⟨⟩)
  if m.op = 4 then uProbe .write (m.res + 8 * i) (8 * n)
  if dsts.any (fun d => match d with | some d => d % m.align != 0 | none => false) then uStop St.descInvalid
  else if ← uGoes then
    (dsts.zip es).zipIdx.forM (fun e => match e.1.1 with
      | some d => m.scatterOne (i + e.2) d e.1.2
      | none => pure ⟨⟩)

/-- The elements `[i, i + n)` of a GATHER. -/
def Dma.gather (m : Dma) (i n : Nat) : U PUnit := do
  let ix ← (List.range n).mapM (fun j => uTryAll (m.idx + 8 * (i + j)) 8)
  uProbe .write (m.dst + m.elem * i) (m.elem * n)
  let es ← ix.mapM (fun x => match x with
    | some b => uTry ((m.src + leNat b) % 2 ^ 64) m.elem
    | none => pure [])
  es.zipIdx.forM (fun e => uPut (m.dst + m.elem * (i + e.2)) e.1)

/-- The first element of unit `j` of a scatter or gather: an element belongs to the 4 KiB of the element array in
which it starts (log entry 11). -/
def Dma.first (m : Dma) (j : Nat) : Nat := min m.len (ceilDiv (4096 * j) m.elem)

/-- Unit `j` runs on member `j mod n` of the ring's tiles (R309). -/
def tileUnits (tiles : List Nat) (n : Nat) : List (Nat × Nat) :=
  (List.range n).map (fun j => (j, Unit.tile ((tiles[j % tiles.length]?).getD 0)))

/-- The units of a DMA command. -/
def Dma.plan (m : Dma) (opcode : Nat) (tiles : List Nat) : Plan :=
  if opcode = 0x0010 then
    { units := tileUnits tiles (ceilDiv m.len 4096)
      run := fun j =>
        let off := 4096 * j
        let n := min 4096 (m.len - off)
        if m.op = 0 then uCopy (m.src + off) (m.dst + off) n else m.copyReduce off n }
  else
    { units := tileUnits tiles (ceilDiv (m.len * m.elem) 4096)
      run := fun j =>
        let i := m.first j
        let n := m.first (j + 1) - i
        if opcode = 0x0011 then m.scatter i n else m.gather i n }

/-- The engine of the DMA commands. -/
def dmaEngine (opcode : Nat) : Engine where
  prep := fun _ _ x => do
    match ← readDesc x 64 8 with
    | .error e => return .error e
    | .ok d => return (do (Dma.parse d).check opcode d; .ok (d, []))
  foot := fun x => (Dma.parse x.desc).foot opcode
  tiled := true
  plan := fun _ x => (Dma.parse x.desc).plan opcode x.tiles

end Sys2Proof.Machine
end

