-- ==== Sys2Proof/Machine/HostBead.lean ====
section
/-!
DEFINITION. Beads and yo-yo queues as host software reaches them: CTX_BEAD_ADD, BEAD_ATTR and BEAD_VALUE, the bead
map, the reads and the control of a queue, and the beads of a context that is set aside or disabled.
-/
namespace Sys2Proof.Machine

/-! ### The beads of a context (R384, R385) -/

/-- The state with every listed bead register word changed. -/
def State.mapBeads (s : State) (f : Nat → Word → Word) : State :=
  { s with regs := s.regs.map (fun e =>
      if regKey Reg.beadAttr 0 ≤ e.1 ∧ e.1 < regKey Reg.beadAttr 65536 then (e.1, f (e.1 - regKey Reg.beadAttr 0) e.2)
      else e) }

/-- A bead's attribute word with its state changed. -/
def attrState (w : Word) (v : Nat) : Word := BitVec.ofNat 64 (setBits w.toNat 0 2 v)

/-- The owner and the state that an attribute word holds. -/
def attrOwner (w : Word) : Nat := bitsOf w.toNat 2 4
def attrSt (w : Word) : Nat := bitsOf w.toNat 0 2

/-- Every peer that waits on a bead hears of the start and of the end of its suspension, with the bead's value (R380). -/
def State.tellWaits (s : State) : State :=
  let now (s : State) (w : RWait) : Bool := s.beadState w.phys == BeadSt.suspended
  let t := (s.rwaits.filter (fun w => now s w != w.told)).foldl (fun t w =>
    t.sendGct w.conn (.suspend w.req (now s w) (s.beadValue w.phys))) s
  { t with rwaits := s.rwaits.map (fun w => { w with told := now s w }) }

/-- Every ACTIVE bead of an owner becomes SUSPENDED, and the clocks of the waits on it stop (R384). -/
def State.suspendBeads (s : State) (c : Nat) : State :=
  (s.mapBeads (fun _ w => if attrOwner w = c ∧ attrSt w = BeadSt.active then attrState w BeadSt.suspended else w)).retime.tellWaits

/-- Every SUSPENDED bead of an owner becomes ACTIVE, and the clocks run again (R384). -/
def State.resumeBeads (s : State) (c : Nat) : State :=
  (s.mapBeads (fun _ w => if attrOwner w = c ∧ attrSt w = BeadSt.suspended then attrState w BeadSt.active else w)).retime.tellWaits

/-- The physical beads of an owner that are ACTIVE or SUSPENDED. -/
def State.ownedBeads (s : State) (c : Nat) : List Nat :=
  (s.regs.filter (fun e => regKey Reg.beadAttr 0 ≤ e.1 && e.1 < regKey Reg.beadAttr 65536 && attrOwner e.2 == c &&
    (attrSt e.2 == BeadSt.active || attrSt e.2 == BeadSt.suspended))).map (fun e => e.1 - regKey Reg.beadAttr 0)

/-- One bead becomes BROKEN: every waiter is released with BEAD_BROKEN, in any context and on any module, and the
notice is raised (R385, R392). -/
def State.breakBead (s : State) (c n : Nat) : State :=
  let released := s.waiters n
  let s := s.setReg Reg.beadAttr n (attrState (s.reg Reg.beadAttr n) BeadSt.broken)
  let s := ((s.answerWaits n).release).armAll
  let d := n / 16384
  s.raise { code := 0x0502, sev := Sev.warn, data := Unit.die d, ctrl := Path.bar d, a1 := n, a2 := c, a3 := released }

/-- Every ACTIVE or SUSPENDED bead of an owner breaks (R385). -/
def State.breakBeads (s : State) (c : Nat) : State := (s.ownedBeads c).foldl (fun s n => s.breakBead c n) s

/-! ### Host accesses to beads -/

/-- A write of CTX_BEAD_ADD (R374, R367, R377): an amount of 0 has no effect, an unmapped vid raises BEAD_UNMAPPED,
and a refused addition changes nothing and raises its notice. -/
def State.hostAdd (s : State) (c vid amount : Nat) : State :=
  if amount = 0 then s
  else match s.vid c vid with
    | (none, e) => s.tellUnmapped c Unit.hub vid 0 e
    | (some n, _) =>
      let (e, s) := (s.keepVid c vid).beadAdd n amount
      match e with
      | .done => s.armAll
      | e => s.tellRefused e c Unit.hub vid n amount

/-- HOST_BEAD_ADD (R374). -/
def execHostBeadAdd (fn : Fn) (ctx : Fin 16) (vid : BitVec 14) (amount : BitVec 48) (s : State) :
    Host.Outcome State Fault Refusal :=
  .next (if Fn.reaches fn ctx.val then s.hostAdd ctx.val vid.toNat amount.toNat else s)

/-- The STATE that a write of BEAD_ATTRn leaves (R386, R390). -/
def State.attrNext (s : State) (n v : Nat) : Nat :=
  let cur := s.beadState n
  if v = BeadSt.free ∧ cur ≠ BeadSt.free then if s.waiters n = 0 then BeadSt.free else cur
  else if v = BeadSt.active ∧ cur = BeadSt.free then BeadSt.active
  else cur

/-- A write of BEAD_ATTRn (R390): each field by its own rule, judged against the state before the write. -/
def State.writeAttr (s : State) (n v : Nat) : State :=
  let st := s.attrNext n (bitsOf v 0 2)
  let base := if s.beadState n = BeadSt.free then setBits (s.reg Reg.beadAttr n).toNat 2 46 (bitsOf v 2 46)
              else (s.reg Reg.beadAttr n).toNat
  s.setReg Reg.beadAttr n (BitVec.ofNat 64 (setBits base 0 2 st))

/-- BEAD_ATTR_WRITE (R390). -/
def execBeadAttrWrite (n : BitVec 16) (value : Word) (s : State) : Host.Outcome State Fault Refusal :=
  .next (s.writeAttr n.toNat value.toNat)

/-- A write of CTX_BEAD_MAP (R366, R391): through PF0, and only while the context is IDLE or PREEMPTED. It discards the
cached entries. -/
def State.writeBeadMap (s : State) (fn : Fn) (c v : Nat) : State :=
  if fn = .pf0 ∧ (s.ctxState c = Ctx.idle ∨ s.ctxState c = Ctx.preempted) then
    ((s.wr F.ctxBeadMap_VALID c (bitsOf v 0 1)).wr F.ctxBeadMap_ADDR c (bitsOf v 12 36)).dropVids c
  else s

/-- BEAD_MAP_WRITE (R366). -/
def execBeadMapWrite (fn : Fn) (ctx : Fin 16) (value : Word) (s : State) : Host.Outcome State Fault Refusal :=
  .next (s.writeBeadMap fn ctx.val value.toNat)

/-! ### Host accesses to queues -/

/-- The function may reach a queue's registers: PF0 all, a virtual function those of its context that are visible
(R408, R411, R573). -/
def State.queReach (s : State) (fn : Fn) (q : Nat) : Bool :=
  match fn with
  | .pf0 => true
  | .vf k => s.flag F.queCfg_VF_VISIBLE q && s.rd F.queCfg_CTX q == k.val

/-- QUEUE_ENTRY_READ (R403): the reader gets word 3 of the current entry and the queue advances. -/
def execQueueEntryRead (fn : Fn) (q : Fin 256) (s : State) : Host.Outcome State Fault Refusal :=
  .next (if s.queReach fn q.val then
      { ((s.queAdvance q.val).quePointers q.val).2 with rdata := leNat (slice (s.que q.val).entry 24 8) }
    else { s with rdata := 0 })

/-- QUEUE_FLUSH (R411). -/
def execQueueFlush (fn : Fn) (q : Fin 256) (s : State) : Host.Outcome State Fault Refusal :=
  .next (if s.queReach fn q.val then s.queFlush q.val else s)

/-- QUEUE_SKIP (R403). -/
def execQueueSkip (fn : Fn) (q : Fin 256) (s : State) : Host.Outcome State Fault Refusal :=
  .next (if s.queReach fn q.val then ((s.queSkip q.val).quePointers q.val).2 else s)

end Sys2Proof.Machine
end

