-- ==== Sys2Proof/Machine/DispOps.lean ====
section
/-!
DEFINITION. The commands that run in a die bar's dispatcher: NOP, BEAD_OP (R373), PEG_OP (R388), BRANCH (R112 to
R114), QUEUE_PUT (R400, R401) and REMAP (R259 to R262).
-/
namespace Sys2Proof.Machine

/-! ### Which row of the table a command is -/

/-- A field of the descriptor of an unissued command, as the dispatcher would read it; 0 where it cannot be read. -/
def State.peekDesc (s : State) (k : Nat) (x : Cmd) (o lo w : Nat) : Nat :=
  let (bs, a) := (uRead (x.descAddr + o) ((lo + w + 7) / 8)).run (s.dispAcc k x)
  if a.fault.isSome || a.lost != [] then 0 else fieldAt bs 0 lo w

/-- The command is of the row with operation `op` among `rows`: a value that names no row falls to the first one. -/
def State.isRow (s : State) (id : CmdId) (o lo w : Nat) (rows : List Nat) (op : Nat) : Bool :=
  match s.cmd id with
  | some x =>
    let v := s.peekDesc (CmdKey id) x o lo w
    (if rows.contains v then v else rows.headD 0) == op
  | none => false

/-! ### Single-unit work of the dispatcher -/

/-- The unit code of the die whose bar fetches a ring. -/
def State.dieUnit (s : State) (k : Nat) : Nat := Unit.die (s.fetchDie k)

/-- A command of one unit of work. -/
def onePlan (src : Nat) (run : U PUnit) (fin : Cmd → State → State × Nat := fun _ s => (s, St.ok)) : Plan :=
  { units := [(0, src)], run := fun _ => run, fin := fin }

/-! ### BEAD_OP (R373) -/

/-- The checks of the BEAD_OP descriptor. -/
def beadOpCheck (d : List Byte) : Except Nat Unit := do
  let op := fieldAt d 0 0 2
  let v := fieldAt d 8 0 64
  let res := fieldAt d 16 0 64
  need (op < 3 && fieldAt d 0 2 6 == 0 && zeroAt d 1 2 && zeroAt d 4 8 && zeroAt d 24 32) St.descInvalid
  need (if op = 0 then 1 ≤ v && v < 2 ^ 48 else if op = 2 then v == 0 else true) St.descInvalid
  need (if op = 2 then res % 8 == 0 else res == 0) St.descInvalid

/-- READ: the value goes to memory (R373, R385). -/
def beadRead (d : List Byte) (k : Nat) : U PUnit := do
  let s ← uState
  match (s.vid (k / 64) (fieldAt d 2 0 16)).1 with
  | some n => uWrite (fieldAt d 16 0 64) (natLE 8 (s.beadValue n))
  | none => pure ⟨⟩

/-- BEAD_OP at issue: ADD applies its addition, WAIT_GE is armed, READ reads. -/
def State.startBeadOp (s : State) (k : Nat) (x : Cmd) : State :=
  let c := k / 64
  let d := x.desc
  let vid := fieldAt d 2 0 16
  match s.vid c vid with
  | (none, e) => (s.tellUnmapped c (s.dieUnit k) vid (s.ringIndexArg k x.count) e).rejectCmd k x.count St.descInvalid
  | (some n, _) =>
    let s := s.keepVid c vid
    match fieldAt d 0 0 2 with
    | 0 =>
      let (e, s) := s.beadAdd n (fieldAt d 8 0 64)
      match e with
      | .done => (s.finishCmd k x.count St.ok).armAll
      | e => (s.tellRefused e c (s.dieUnit k) vid n (fieldAt d 8 0 64)).finishCmd k x.count e.status
    | 1 =>
      let s := s.updCmd k x.count (fun y => s.arm c { y with phase := .waiting })
      (s.release).armRing k
    | _ => s.runPlan k x (onePlan x.unit (beadRead d k))

def beadOpEngine : Engine where
  prep := fun _ _ x => do
    match ← readDesc x 32 8 with
    | .error e => return .error e
    | .ok d => return (do beadOpCheck d; .ok (d, []))
  foot := fun x => if fieldAt x.desc 0 0 2 = 2 then [footRange (fieldAt x.desc 16 0 64) 8 true] else []
  plan := fun k x => onePlan x.unit (beadRead x.desc k)
  start := State.startBeadOp

/-! ### PEG_OP (R388, R389) -/

def pegOpCheck (d : List Byte) : Except Nat Unit :=
  need (fieldAt d 0 2 14 == 0 && fieldAt d 2 12 4 == 0 && zeroAt d 4 8) St.descInvalid

def State.startPegOp (s : State) (k : Nat) (x : Cmd) : State :=
  let c := k / 64
  let p := fieldAt x.desc 2 0 12
  match fieldAt x.desc 0 0 2 with
  | 0 => (s.pegChange c p true).finishCmd k x.count St.ok
  | 1 => (s.pegChange c p false).finishCmd k x.count St.ok
  | _ => ((s.updCmd k x.count (fun y => s.arm c { y with phase := .waiting })).release).armRing k

def pegOpEngine : Engine where
  prep := fun _ _ x => do
    match ← readDesc x 8 8 with
    | .error e => return .error e
    | .ok d => return (do pegOpCheck d; .ok (d, []))
  start := State.startPegOp

/-! ### BRANCH (R112 to R114) -/

/-- The key of a summary slot. -/
def slotKey (c t i : Nat) : Nat := (c * 48 + t) * 64 + i
/-- The X36 code that a summary slot holds; a slot nothing has written holds NaN (R111). -/
def State.slot (s : State) (c t i : Nat) : Nat := lookD s.slots (slotKey c t i) Fmt.x36.nanCode
def State.setSlot (s : State) (c t i v : Nat) : State := { s with slots := put s.slots (slotKey c t i) v }

/-- The comparison of R113. -/
def branchTaken (cmp : Nat) (a b : Num) : Bool :=
  match cmp, a.cmp b with
  | 0, some .lt => true
  | 1, some .lt => true
  | 1, some .eq => true
  | 2, some .eq => true
  | 3, some .eq => false
  | 3, _ => true
  | 4, some .gt => true
  | 4, some .eq => true
  | 5, some .gt => true
  | 6, none => true
  | _, _ => false

def branchCheck (s : State) (k : Nat) (d : List Byte) : Except Nat Unit := do
  need (fieldAt d 0 6 2 == 0 && (s.effTiles k).contains (fieldAt d 1 0 8)) St.descInvalid
  need (fieldAt d 2 0 3 < 7 && fieldAt d 2 3 5 == 0 && zeroAt d 3 4 && fieldAt d 4 0 32 != 0) St.descInvalid
  need (fieldAt d 8 36 28 == 0 && zeroAt d 16 32) St.descInvalid

def State.startBranch (s : State) (k : Nat) (x : Cmd) : State :=
  let d := x.desc
  let t := fieldAt d 1 0 8
  if !s.tilePresent t then s.rejectCmd k x.count St.unitAbsent
  else
    let taken := branchTaken (fieldAt d 2 0 3) (x36Of (s.slot (k / 64) t (fieldAt d 0 0 6))) (x36Of (fieldAt d 8 0 36))
    let head := (x.count + (if taken then fieldAt d 4 0 32 else 1)) % 2 ^ 32
    let s := (s.wr F.ctxRingStatus_HEAD k head).updCmd k x.count (fun y => { y with counts := b2n taken })
    let s := s.finishCmd k x.count St.ok
    (s.ringDomains k).foldl State.askWake s

def branchEngine : Engine where
  prep := fun s k x => do
    match ← readDesc x 32 8 with
    | .error e => return .error e
    | .ok d => return (do branchCheck s k d; .ok (d, []))
  start := State.startBranch

/-! ### QUEUE_PUT (R400, R401) -/

def queuePutCheck (s : State) (c : Nat) (d : List Byte) : Except Nat Unit := do
  let q := fieldAt d 0 0 8
  let n := fieldAt d 2 0 8
  need (q ≥ 17 && fieldAt d 1 3 5 == 0 && 1 ≤ n && n ≤ 64 && zeroAt d 3 4) St.descInvalid
  need ((fieldAt d 1 2 1 == 1 || fieldAt d 4 0 32 == 0) && fieldAt d 8 0 64 % 32 == 0 && zeroAt d 16 32) St.descInvalid
  need (s.flag F.queCfg_ENABLE q && s.flag F.queCfg_PUT_EN q && s.rd F.queCfg_CTX q == c) St.descInvalid

/-- The entries, read whole before the tail is taken. -/
def queuePutRead (d : List Byte) : U PUnit := do
  let bs ← uRead (fieldAt d 8 0 64) (32 * fieldAt d 2 0 8)
  uPart (bs.map (·.toNat))

/-- The packet put into the queue, or rewound on a CRC that does not match (R399, R401). -/
def queuePutFin (k : Nat) (d : List Byte) (x : Cmd) (s : State) : State × Nat :=
  let q := fieldAt d 0 0 8
  let bs : List Byte := (lookD x.parts 0 []).map (BitVec.ofNat 8)
  if x.lost ≠ [] then (s, St.ok)
  else if fieldAt d 1 2 1 = 1 ∧ crc32c bs ≠ fieldAt d 4 0 32 then (s.queRewind q (fieldAt d 2 0 8) 0, St.descInvalid)
  else
    let (e, s) := s.enqueue q (fieldAt d 1 0 2) (chunks 32 65 bs) 0
    match e with
    | .committed n => (s.updCmd k x.count (fun y => { y with counts := n }), St.ok)
    | .victim n => (s.updCmd k x.count (fun y => { y with counts := n + 2 ^ 32 }), St.dataLoss)
    | .dropped => (s, St.descInvalid)
    | .reset => (s, St.dataLoss)

def queuePutEngine : Engine where
  prep := fun s k x => do
    match ← readDesc x 32 8 with
    | .error e => return .error e
    | .ok d => return (do queuePutCheck s (k / 64) d; .ok (d, []))
  foot := fun x => [footRange (fieldAt x.desc 8 0 64) (32 * fieldAt x.desc 2 0 8) false]
  plan := fun k x => onePlan x.unit (queuePutRead x.desc) (queuePutFin k x.desc)

/-! ### REMAP (R259 to R262) -/

/-- The bindings of a REMAP: ring and tile mask. -/
def remapBinds (d : List Byte) : List (Nat × Nat) :=
  (List.range (fieldAt d 2 0 8)).map (fun b => (fieldAt d (64 + 8 * b) 48 6, fieldAt d (64 + 8 * b) 0 48))

/-- The moves of a REMAP: source, destination, bytes. -/
def remapMoves (d : List Byte) : List (Nat × Nat × Nat) :=
  (List.range (fieldAt d 3 0 8)).map (fun i =>
    (fieldAt d (192 + 24 * i) 0 64, fieldAt d (200 + 24 * i) 0 64, fieldAt d (208 + 24 * i) 0 64))

def remapCheck (s : State) (d : List Byte) : Except Nat Unit := do
  let nb := fieldAt d 2 0 8
  let nm := fieldAt d 3 0 8
  let view := fieldAt d 1 0 1
  let root := fieldAt d 8 0 64
  let binds := remapBinds d
  let moves := remapMoves d
  let spans := moves.flatMap (fun m => [(m.1, m.2.2), (m.2.1, m.2.2)])
  need (fieldAt d 0 0 8 == 6 && fieldAt d 1 1 7 == 0 && nb ≤ 16 && nm ≤ 8 && zeroAt d 4 8 &&
    (view == 1 || root == 0) && zeroAt d 16 64) St.descInvalid
  need ((List.range nb).all (fun b => fieldAt d (64 + 8 * b) 54 10 == 0) && zeroAt d (64 + 8 * nb) 192 &&
    moves.all (fun m => m.1 % 64 == 0 && m.2.1 % 64 == 0 && m.2.2 % 64 == 0) && zeroAt d (192 + 24 * nm) 384) St.descInvalid
  need ((nb != 0 || view == 1) && decide ((binds.map (·.1)).Nodup) && binds.all (fun b => b.2 != 0) &&
    bitsOf root 1 11 == 0 && bitsOf root 48 16 == 0 &&
    (!root.testBit 0 || s.inStackRange (bitsOf root 12 36 * 4096) 4096) &&
    spans.zipIdx.all (fun a => spans.zipIdx.all (fun b => a.2 == b.2 || !spansMeet a.1 b.1))) St.descInvalid
  need (binds.all (fun b => b.2 &&& s.tilesPresent != 0)) St.unitAbsent

/-- The rings that a REMAP of ring `k` affects (R261 step 1). -/
def remapRings (k : Nat) (d : List Byte) : List Nat :=
  let c := k / 64
  if fieldAt d 1 0 1 = 1 then (List.range 64).map (fun r => ringKey c r)
  else (k :: (remapBinds d).map (fun b => ringKey c b.1)).eraseDups

/-- A REMAP by the place of its command, as a ring holds it. -/
def remapMark (k count : Nat) : Nat := k * 2 ^ 32 + count

/-- Step 1: fetch stops on the affected rings. -/
def State.startRemap (s : State) (k : Nat) (x : Cmd) : State :=
  let s := (remapRings k x.desc).foldl (fun s r => s.setRing r { s.ring r with remap := some (remapMark k x.count) }) s
  s.updCmd k x.count (fun y => { y with phase := .waiting })

/-- Step 5: the moves in ascending order, by units of 4 KiB on the tiles of the ring's new effective set. A unit that
stalls holds those after it. -/
def remapPlan (d : List Byte) (tiles : List Nat) : Plan :=
  let pieces := (remapMoves d).flatMap (fun m => (List.range (ceilDiv m.2.2 4096)).map (fun j =>
    (m.1 + 4096 * j, m.2.1 + 4096 * j, min 4096 (m.2.2 - 4096 * j))))
  { units := tileUnits tiles pieces.length
    follows := fun _ _ => true
    run := fun j => let p := (pieces[j]?).getD (0, 0, 0); uCopy p.1 p.2.1 p.2.2 }

/-- REMAP_UNIT_ABSENT (R280): the first binding whose effective set would be empty. -/
def remapTell (s : State) (k : Nat) (_x : Cmd) (d : List Byte) : U PUnit := fun a =>
  match (remapBinds d).find? (fun b => b.2 &&& s.tilesPresent == 0) with
  | some b =>
    let die := s.fetchDie k
    (⟨⟩, { a with s := a.s.raise { code := 0x0A07, sev := Sev.warn, ctx := some (k / 64), data := Unit.die die, ctrl := Path.bar die,
                                   a1 := b.1, a2 := b.2 % 2 ^ 32, a3 := b.2 / 2 ^ 32 } })
  | none => (⟨⟩, a)

def remapEngine : Engine where
  prep := fun s k x => do
    match ← readDesc x 384 64 with
    | .error e => return .error e
    | .ok d =>
      let r := remapCheck s d
      if (match r with | .error e => e == St.unitAbsent | .ok _ => false) then remapTell s k x d
      return (do r; .ok (d, []))
  foot := fun x => (remapMoves x.desc).flatMap (fun m => [footRange m.1 m.2.2 false, footRange m.2.1 m.2.2 true])
  plan := fun _ x => remapPlan x.desc x.tiles
  start := State.startRemap

/-- Step 2 has ended: no command of the affected rings is left but the REMAP itself. -/
def State.remapDrained (s : State) (k : Nat) (x : Cmd) : Bool :=
  (remapRings k x.desc).all (fun r => (s.ring r).cmds.all (fun y => r == k && y.count == x.count))

/-- Step 4: the bindings and the view take effect. -/
def State.applyRemap (s : State) (k : Nat) (d : List Byte) : State :=
  let c := k / 64
  let s := (remapBinds d).foldl (fun s b =>
    let r := ringKey c b.1
    (s.wr F.ctxRingTiles_MASK r b.2).setRing r { s.ring r with eff := b.2 &&& s.tilesPresent }) s
  if fieldAt d 1 0 1 = 1 then s.setReg Reg.ctxMmuRoot c (BitVec.ofNat 64 (fieldAt d 8 0 64)) else s

/-- The end of the drain: steps 3 to 6 of R261. Moves that have no tile to run on, or a retired one, end the command
UNIT_ABSENT with the bindings in force (R6, R104; log entry 122). -/
def State.remapDrainEnd (s : State) (k : Nat) (x : Cmd) : State :=
  if x.opcode = 0x00A1 ∧ x.phase = .waiting ∧ s.remapDrained k x ∧ s.ctxState (k / 64) = Ctx.active then
    let s := (s.invalidate (k / 64) 0 0).applyRemap k x.desc
    let s := s.updCmd k x.count (fun y => { y with phase := .stalled, counts := fieldAt x.desc 2 0 8 * 2 ^ 59 })
    let s := s.updCmd k x.count (fun y => { y with tiles := s.effTiles k })
    let s := if remapMoves x.desc ≠ [] ∧ s.tilesGone k then s.finishCmd k x.count St.unitAbsent
             else s.runPlan k x (remapPlan x.desc (s.effTiles k))
    (remapRings k x.desc).foldl (fun s r => (s.ringDomains r).foldl State.askWake s) s
  else s

/-- REMAP_DRAIN_END (R261). -/
def execRemapDrainEnd (id : CmdId) (s : State) : Host.Outcome State Fault Refusal :=
  .next (match s.cmd id with
    | some x => s.remapDrainEnd (CmdKey id) x
    | none => s)

/-! ### NOP -/

/-- The engine of NOP: it has no descriptor and no effect (R588). -/
def nopEngine : Engine where
  prep := fun _ _ _ => pure (.ok ([], []))
  start := fun s k x => s.endCmd k x St.ok

end Sys2Proof.Machine
end

