-- ==== Sys2Proof/Machine/Lane.lean ====
section
/-!
DEFINITION. The lanes of a vector engine (R119 to R122), the fixed tree of reductions (R133 to R136), summaries (R144,
R145) and what the vector commands share in reading their operands.
-/
namespace Sys2Proof.Machine

/-! ### Lane operations with their flags -/

/-- Arithmetic that gathers the flags it raises. -/
abbrev W := StateM Fl

def wFlag (p : Num × Fl) : W Num := fun f => (p.1, f.or p.2)
/-- A result rounded to X36, with INVALID where it is a NaN made of no NaN (R69, R119). -/
def wRound (x : Num) (args : List Num) : W Num := let (y, f) := x36 x; wFlag (y, f.or (invalidIf x args))
def wAdd (a b : Num) : W Num := wRound (a.add b) [a, b]
def wSub (a b : Num) : W Num := wRound (a.sub b) [a, b]
def wMul (a b : Num) : W Num := wRound (a.mul b) [a, b]
/-- One rounding of the exact a·b + c. -/
def wFma (a b c : Num) : W Num := wRound ((a.mul b).add c) [a, b, c]
/-- A function of R120 by its code. -/
def wFn (op : Nat) (a : Num) : W Num := wFlag (opFn op a)
/-- A correctly rounded quotient by a positive finite number (R136, R141). -/
def wDivN (a b : Num) : W Num := match a with
  | .fin _ _ _ => wFlag (x36 (a.quot b))
  | x => pure x

/-- The largest integer not above a value, and the nearest integer with ties to even; zeros keep their sign. -/
def floorNum : Num → Num
  | .fin n m e => if e ≥ 0 then .fin n m e
    else let k := (-e).toNat; .fin n (m >>> k + (if n && m % 2 ^ k != 0 then 1 else 0)) 0
  | x => x
def rintNum : Num → Num
  | .fin n m e => if e ≥ 0 then .fin n m e
    else
      let k := (-e).toNat
      let q := m >>> k
      let r := 2 * (m % 2 ^ k)
      .fin n (if r > 2 ^ k ∨ (r = 2 ^ k ∧ q % 2 = 1) then q + 1 else q) 0
  | x => x

/-- How many operands an operation takes (R120); none for a code that is not listed. -/
def opArity (op : Nat) : Option Nat :=
  if op = 0x04 ∨ op = 0x17 then some 3
  else if (1 ≤ op ∧ op ≤ 7) ∨ (0x10 ≤ op ∧ op ≤ 0x16) then some 2
  else if (8 ≤ op ∧ op ≤ 0x0D) ∨ (0x20 ≤ op ∧ op ≤ 0x2E) then some 1
  else none

/-- One element operation (R120 to R122). -/
def wOp (op : Nat) (a b c : Num) : W Num :=
  match op with
  | 0x01 => wAdd a b
  | 0x02 => wSub a b
  | 0x03 => wMul a b
  | 0x04 => wFma a b c
  | 0x05 => wFlag (opDiv a b)
  | 0x06 => pure (a.max b)
  | 0x07 => pure (a.min b)
  | 0x08 => pure a.abs
  | 0x09 => pure a.neg
  | 0x0A => pure a
  | 0x0B => pure (floorNum a)
  | 0x0C => pure (rintNum a)
  | 0x0D => pure (a.max Num.zero)
  | 0x17 => pure (if a.isNan || b.isNan || c.isNan then .nan else if a.isZero then c else b)
  | _ => if 0x10 ≤ op ∧ op ≤ 0x16 then pure (if branchTaken (op - 0x10) a b then Num.one else Num.zero) else wFn op a

/-! ### The fixed tree (R133) -/

/-- One level of the tree: a node with one child absent passes the other. -/
def pairUp (f : Num → Num → W Num) : List (Option Num) → W (List (Option Num))
  | a :: b :: t => do
    let x ← match a, b with
      | some x, some y => do pure (some (← f x y))
      | some x, none => pure (some x)
      | none, y => pure y
    return x :: (← pairUp f t)
  | xs => pure xs

/-- A chunk of at most 32 elements over five levels. -/
def chunkTree (f : Num → Num → W Num) (xs : List (Option Num)) : W (Option Num) := do
  let a ← pairUp f xs
  let a ← pairUp f a
  let a ← pairUp f a
  let a ← pairUp f a
  let a ← pairUp f a
  return a.head?.join

/-- The chunks combined left to right. -/
def reduceTree (f : Num → Num → W Num) (xs : List (Option Num)) : W (Option Num) :=
  (chunks 32 (xs.length + 1) xs).foldlM (fun acc c => do
    match acc, ← chunkTree f c with
    | some a, some b => do return some (← f a b)
    | some a, none => return some a
    | none, b => return b) none

/-- The combining operations of reductions and scans by code (R129). -/
def redOp (op : Nat) (a b : Num) : W Num :=
  match op with
  | 2 => wMul a b
  | 3 => pure (a.max b)
  | 4 => pure (a.min b)
  | _ => wAdd a b

/-- The identity of a scan, and the result of a reduction over nothing (R132, R134). -/
def redId (op : Nat) : Num := match op with
  | 2 => Num.one
  | 3 => .inf true
  | 4 => .inf false
  | 7 => .nan
  | 8 => .inf true
  | _ => Num.zero

/-- LSE of R136 over the included elements. -/
def wLse (xs : List (Option Num)) : W Num := do
  match ← reduceTree (redOp 3) xs with
  | none => return .inf true
  | some m =>
    if !m.isFin then return m
    else
      let es ← xs.mapM (fun x => match x with
        | some v => do return some (← wFn 0x20 (← wSub v m))
        | none => return none)
      let s := (← reduceTree (redOp 0) es).getD Num.zero
      wAdd m (← wFn 0x22 s)

/-- `a` ranks above `b` (R135, R137): NaN first, then by value with +0 above −0. -/
def ranksAbove (a b : Num) : Bool :=
  if a.isNan then !b.isNan
  else if b.isNan then false
  else if a.isZero && b.isZero then !a.isNeg && b.isNeg
  else b.lt a

/-- The position that ARGMAX (or ARGMIN) returns, with its value, among elements with their positions (R135). -/
def argBest (low : Bool) (xs : List (Num × Nat)) : Option (Num × Nat) :=
  xs.foldl (fun best x => match best with
    | none => some x
    | some b =>
      let above := if low then (if x.1.isNan then !b.1.isNan else if b.1.isNan then false else ranksAbove b.1 x.1)
                   else ranksAbove x.1 b.1
      if above then some x else some b) none

/-- An element put in its place in a list that falls by rank; equals keep their order. -/
def rankInsert (x : Num × Nat) : List (Num × Nat) → List (Num × Nat)
  | [] => [x]
  | y :: t => if ranksAbove x.1 y.1 then x :: y :: t else y :: rankInsert x t

/-- Elements by falling rank (R137). -/
def byRank (xs : List (Num × Nat)) : List (Num × Nat) := xs.foldl (fun acc x => rankInsert x acc) []

/-- One reduction of R129 other than ARGMAX, ARGMIN, DISTILL and TOPK; an absent element is not included. -/
def wReduce (op : Nat) (xs : List (Option Num)) : W Num := do
  let n := (xs.filter Option.isSome).length
  if n = 0 then wFlag (redId op, { emptyReduce := true })
  else match op with
  | 1 => do
    let sq ← xs.mapM (fun x => match x with
      | some v => do return some (← wMul v v)
      | none => return none)
    return (← reduceTree (redOp 0) sq).getD Num.zero
  | 7 => do wDivN ((← reduceTree (redOp 0) xs).getD Num.zero) (Num.ofNat n)
  | 8 => wLse xs
  | 9 => wRound (Num.ofNat (xs.filter (fun x => match x with | some v => !v.isZero | none => false)).length) []
  | _ => return (← reduceTree (redOp op) xs).getD Num.zero

/-! ### Working on a unit -/

/-- Lane work of a unit: its flags join the unit's. -/
def uLane {α : Type} (m : W α) : U α := fun a =>
  let (v, f) := m.run {}
  (v, { a with flags := a.flags ||| f.bits })

/-- An absent reference is 64 zero bytes (R123, R128). -/
def optRef (d : List Byte) (o : Nat) : Option TRef := if zeroAt d o (o + 64) then none else some (TRef.parse d o)

/-- The checks of a reference that may be absent. -/
def optCheck (t : Option TRef) (dst : Bool) : Except Nat Unit := match t with
  | some t => t.check dst
  | none => .ok ⟨⟩

/-- A present reference has one of the accepted formats. -/
def optFmt (t : Option TRef) (ok : Nat → Bool) : Except Nat Unit := match t with
  | some t => need (ok t.fmt) St.fmtUnsupported
  | none => .ok ⟨⟩

def notInt (f : Nat) : Bool := f != FC.int32
def isWide (f : Nat) : Bool := f == FC.fp32 || f == FC.x36
def optFoot (t : Option TRef) (w : Bool) : List (Nat × Nat × Bool) := match t with
  | some t => t.foot w
  | none => []
/-- A present reference meets another one. -/
def optMeets (a b : Option TRef) : Bool := match a, b with
  | some a, some b => a.meets b
  | _, _ => false

/-- An X36 field of a descriptor (R44). -/
def x36Field (d : List Byte) (o : Nat) : Num := x36Of (fieldAt d o 0 36)
def x36FieldOk (d : List Byte) (o : Nat) : Bool := fieldAt d o 36 28 == 0

/-- DENORM of the destination governs the reading of sources (R119, R619). -/
def denormOf (d : Option TRef) : Bool := match d with
  | some d => (Cvt.ofByte d.cvt).denorm
  | none => false

/-- Elements of a row with their reading flags put on the unit. -/
def TRef.get (t : TRef) (denorm : Bool) (r j n : Nat) : U (List Num) := do
  let (xs, f) ← t.readNums denorm r j n
  uFlags f
  return xs

/-- Maximal runs of set marks: start and length. -/
def runsOf : List Bool → Nat → List (Nat × Nat)
  | [], _ => []
  | false :: t, j => runsOf t (j + 1)
  | true :: t, j => match runsOf t (j + 1) with
    | (a, n) :: rest => if a = j + 1 then (j, n + 1) :: rest else (j, 1) :: (a, n) :: rest
    | [] => [(j, 1)]

/-- Values put back where the marks stand. -/
def spread : List Bool → List Num → List (Option Num)
  | [], _ => []
  | false :: t, xs => none :: spread t xs
  | true :: t, x :: xs => some x :: spread t xs
  | true :: t, [] => some Num.zero :: spread t []

/-- The marked elements of a row from column `j`; the others are not read (R131). -/
def TRef.getSome (t : TRef) (denorm : Bool) (r j : Nat) (marks : List Bool) : U (List (Option Num)) := do
  let xs ← (runsOf marks j).mapM (fun p => t.get denorm r p.1 p.2)
  return spread marks xs.flatten

/-- Bits `[j, j + n)` of a bit plane's row. -/
def uBits (row j n : Nat) : U (List Bool) := do
  if n = 0 then return []
  else
    let x ← uNat (row + j / 8) ((j + n - 1) / 8 + 1 - j / 8)
    return (List.range n).map (fun i => x.testBit (j % 8 + i))

/-! ### Draws, strips and summaries -/

/-- The draw of a tile's generator that stands `pos` after the command's first on that tile (R64). -/
def Cmd.draw (x : Cmd) (tile pos : Nat) : Nat := srngDraw (lookD x.seeds tile 0) pos

/-- The member tile that runs unit `j`, and the units before it on that tile. -/
def Cmd.member (x : Cmd) (j : Nat) : Nat := (x.tiles[j % x.tiles.length]?).getD 0
def Cmd.before (x : Cmd) (j : Nat) : List Nat :=
  (List.range (j / x.tiles.length)).map (fun i => j % x.tiles.length + i * x.tiles.length)

/-- Strips of at most `w` elements per row, numbered row-major (R127): row, first column, length. -/
def stripOf (w cols j : Nat) : Nat × Nat × Nat :=
  let n := ceilDiv cols w
  (j / n, j % n * w, min w (cols - j % n * w))

/-- Values left for a summary. -/
def uVals (on : Bool) (xs : List Num) : U PUnit := if on then uPart (xs.map x36Code) else pure ⟨⟩

/-- The summary of a tile's values (R144): a NaN among them gives NaN. -/
def wSummary (kind : Nat) (xs : List Num) : W Num :=
  if xs.any Num.isNan then pure .nan
  else match kind with
  | 0 => pure (xs.foldl (fun a x => a.max x.abs) Num.zero)
  | 1 => match xs with
    | [] => pure Num.zero
    | x :: t => t.foldlM wAdd x
  | 2 => pure (xs.foldl Num.max (xs.headD Num.zero))
  | _ => pure (xs.foldl Num.min (xs.headD Num.zero))

/-- The summary of member `i` of a command: the values of the units whose turn is its own, in their order (R97, R144). A
tile whose share is empty leaves its slot. -/
def State.writeSummary (s : State) (k : Nat) (x : Cmd) (slot kind : Nat) (turn : Nat → Nat) (i : Nat) : State :=
  let vals := ((x.parts.filter (fun p => turn p.1 % x.tiles.length == i)).flatMap (·.2)).map x36Of
  if vals = [] then s
  else
    let (v, f) := (wSummary kind vals).run {}
    (s.setSlot (k / 64) ((x.tiles[i]?).getD 0) slot (x36Code v)).updCmd k x.count (fun y => { y with flags := y.flags ||| f.bits })

/-- What the end of unit `u` makes due in a command with summaries: unit `j` of `total` is of member `turn j mod n`, and
the last unit of a member's share writes the member's slot (R97, R145). -/
def shareSummary (on : Bool) (k slot kind : Nat) (turn : Nat → Nat) (total : Nat) (x : Cmd) (u : Nat) (s : State) : State :=
  let i := turn u % x.tiles.length
  if on && decide (u < total) &&
      (List.range total).all (fun w => turn w % x.tiles.length != i || x.doneUnits.contains w) then
    s.writeSummary k x slot kind turn i
  else s

end Sys2Proof.Machine
end

