-- ==== Sys2Proof/Machine/Vec.lean ====
section
/-!
DEFINITION. The vector commands VEC (R123 to R127), LSE_MERGE (R139, R140), SCAN, REDUCE with TOPK and DISTILL (R128 to
R138, R141, R142) and CONVERT (R143).
-/
namespace Sys2Proof.Machine

/-! ### VEC (R123 to R127) -/

/-- A VEC descriptor. -/
structure Vec where
  d : List Byte
  form : Nat
  nsteps : Nat
  parts : Nat
  x : Option TRef
  y : Option TRef
  z : Option TRef
  dst : Option TRef
  deriving DecidableEq, Repr

def Vec.parse (d : List Byte) : Vec :=
  { d := d, form := fieldAt d 1 0 2, nsteps := fieldAt d 2 0 3, parts := fieldAt d 8 0 16,
    x := optRef d 64, y := optRef d 128, z := optRef d 192, dst := optRef d 256 }

def Vec.sumEn (v : Vec) : Bool := fieldAt v.d 3 6 1 == 1
def Vec.fromSum (v : Vec) (n : Nat) : Bool := fieldAt v.d (4 + n) 6 1 == 1
def Vec.step (v : Vec) (i : Nat) : Nat := fieldAt v.d (8 + 4 * i) 0 32
def stepSel (w i : Nat) : Nat := bitsOf w (8 + 4 * i) 4

/-- A step word: its operation is listed, it uses exactly its selectors, and step 0 has no previous result (R124). -/
def stepOk (i w : Nat) : Bool :=
  match opArity (w % 256) with
  | none => false
  | some n => (List.range 3).all (fun j => if j < n then stepSel w j != 0 && stepSel w j ≤ 10 && !(i == 0 && stepSel w j == 1)
                                           else stepSel w j == 0) && w / 2 ^ 20 == 0

/-- The sources by selector code 2, 3, 4. -/
def Vec.src (v : Vec) (sel : Nat) : Option TRef := match sel with
  | 2 => v.x
  | 3 => v.y
  | _ => v.z

/-- The selectors that the steps name. -/
def Vec.sels (v : Vec) : List Nat := (List.range v.nsteps).flatMap (fun i => (List.range 3).map (stepSel (v.step i)))

/-- The shape of the computation (R125). -/
def Vec.shape (v : Vec) : Nat × Nat := match v.dst, v.x with
  | some d, _ => (d.rows, d.cols)
  | none, some x => (x.rows, x.cols)
  | none, none => (1, 1)

/-- A present source fits the shape or is broadcast (R125). -/
def fitsShape (sh : Nat × Nat) (t : Option TRef) : Bool := match t with
  | some t => (t.rows == sh.1 || t.rows == 1) && (t.cols == sh.2 || t.cols == 1)
  | none => true

/-- A destination overlaps a source without being identical to it in address, format and pitches (R126). -/
def overlapsOther (d s : Option TRef) : Bool := match d, s with
  | some d, some s => d.meets s && !(d.fmt == s.fmt && d.pay == s.pay && d.payPitch == s.payPitch && d.sc == s.sc &&
      d.scPitch == s.scPitch && d.esc == s.esc && d.escPitch == s.escPitch)
  | _, _ => false

/-- The header of the descriptor. -/
def Vec.headOk (v : Vec) : Bool :=
  let d := v.d
  fieldAt d 0 0 8 == 5 && v.form < 2 && fieldAt d 1 2 6 == 0 && fieldAt d 2 5 3 == 0 && fieldAt d 3 7 1 == 0 &&
  (List.range 4).all (fun n => fieldAt d (4 + n) 7 1 == 0 && (v.fromSum n || fieldAt d (4 + n) 0 6 == 0) &&
    (if v.fromSum n then fieldAt d (32 + 8 * n) 0 64 == 0 else x36FieldOk d (32 + 8 * n))) &&
  (if v.form = 0 then 1 ≤ v.nsteps && v.nsteps ≤ 6 &&
      (List.range 6).all (fun i => if i < v.nsteps then stepOk i (v.step i) else v.step i == 0)
   else v.nsteps == 0 && 2 ≤ v.parts && v.parts ≤ 64 && zeroAt d 10 32)

/-- The checks of VEC in the order of R618. -/
def Vec.check (v : Vec) : Except Nat Unit := do
  need v.headOk St.descInvalid
  optCheck v.x false
  optCheck v.y false
  optCheck v.z (v.form == 1)
  optCheck v.dst true
  optFmt v.x notInt
  optFmt v.y (if v.form = 0 then notInt else isWide)
  optFmt v.z (if v.form = 0 then notInt else isWide)
  optFmt v.dst notInt
  if v.form = 0 then
    need ((v.sels.all (fun c => !(2 ≤ c && c ≤ 4) || (v.src c).isSome)) &&
      fitsShape v.shape v.x && fitsShape v.shape v.y && fitsShape v.shape v.z && (v.dst.isSome || v.sumEn) &&
      !overlapsOther v.dst v.x && !overlapsOther v.dst v.y && !overlapsOther v.dst v.z) St.descInvalid
  else match v.x, v.y, v.dst with
    | some x, some y, some d =>
      let r := x.rows / v.parts
      need (x.rows % v.parts == 0 && y.rows == x.rows && y.cols == 1 && d.rows == r && d.cols == x.cols &&
        (match v.z with | some z => z.rows == r && z.cols == 1 | none => true) &&
        !d.meets x && !d.meets y && !optMeets v.z v.x && !optMeets v.z v.y && !optMeets v.z v.dst) St.descInvalid
    | _, _, _ => .error St.descInvalid

/-- A broadcast or full strip of a source; an absent one is never used. -/
def srcStrip (t : Option TRef) (dn : Bool) (r c n : Nat) : U (List Num) := match t with
  | none => pure (List.replicate n Num.zero)
  | some t => do
    let r := if t.rows = 1 then 0 else r
    if t.cols = 1 then return List.replicate n ((← t.get dn r 0 1).headD Num.zero) else t.get dn r c n

/-- The operand that a selector names. -/
def pick (sel : Nat) (prev : Num) (xyz : Num × Num × Num) (imms : List Num) (row col : Nat) : Num :=
  match sel with
  | 1 => prev
  | 2 => xyz.1
  | 3 => xyz.2.1
  | 4 => xyz.2.2
  | 9 => (x36 (Num.ofNat col)).1
  | 10 => (x36 (Num.ofNat row)).1
  | s => (imms[s - 5]?).getD Num.zero

/-- The steps on one element. -/
def Vec.eval (v : Vec) (imms : List Num) (row col : Nat) (xyz : Num × Num × Num) : W Num :=
  (List.range v.nsteps).foldlM (fun prev i =>
    let w := v.step i
    let arg (j : Nat) := pick (stepSel w j) prev xyz imms row col
    wOp (w % 256) (arg 0) (arg 1) (arg 2)) Num.zero

/-- The immediates of a tile: constants, or summary slots as its share found them, kept with the command by member
(R123). -/
def Vec.imms (v : Vec) (x : Cmd) (member : Nat) : List Num :=
  (List.range 4).map (fun n => if v.fromSum n then x36Of (x.aux.getD (4 * member + n) 0) else x36Field v.d (32 + 8 * n))

/-- Draws of the strips that a tile handled before unit `j`. -/
def stripsBefore (x : Cmd) (w cols j : Nat) : Nat := ((x.before j).map (fun i => (stripOf w cols i).2.2)).sum

/-- One strip of ELEMENTWISE (R127, R147). -/
def Vec.strip (v : Vec) (x : Cmd) (j : Nat) : U PUnit := uStrict do
  let (r, c, n) := stripOf 4096 v.shape.2 j
  let dn := denormOf v.dst
  let xs ← srcStrip v.x dn r c n
  let ys ← srcStrip v.y dn r c n
  let zs ← srcStrip v.z dn r c n
  let imms := v.imms x (j % x.tiles.length)
  let out ← uLane (((xs.zip (ys.zip zs)).zipIdx).mapM (fun e => v.eval imms r (c + e.2) e.1))
  uVals v.sumEn out
  match v.dst with
  | some d => d.writeRow (fun i => x.draw (x.member j) (stripsBefore x 4096 v.shape.2 j + i)) r c out
  | none => pure ⟨⟩

/-- One query row of LSE_MERGE (R139, R140); its draws go to the row of D and then to the row of Z (log entry
133). -/
def Vec.merge (v : Vec) (x : Cmd) (j : Nat) : U PUnit := uStrict do
  match v.x, v.y, v.dst with
  | some tx, some ty, some d =>
    let r := tx.rows / v.parts
    let dn := denormOf v.dst
    let ls := (← (List.range v.parts).mapM (fun p => ty.get dn (p * r + j) 0 1)).map (fun l => l.headD Num.zero)
    let live := ls.zipIdx.filter (fun l => l.1 != .inf true)
    let row (n : Num) := List.replicate tx.cols n
    let (out, l) ←
      if ls.any Num.isNan then pure (row .nan, Num.nan)
      else if ls.any (· == .inf false) then do
        uFlags { invalid := true }
        pure (row .nan, Num.inf false)
      else if live = [] then pure (row Num.zero, Num.inf true)
      else do
        let l ← uLane (wLse (ls.map (fun l => if l = .inf true then none else some l)))
        let acc ← live.foldlM (fun acc p => do
          let xs ← tx.get dn (p.2 * r + j) 0 tx.cols
          uLane (do
            let w ← wFn 0x20 (← wSub p.1 l)
            (acc.zip xs).mapM (fun e => wFma w e.2 e.1))) (row Num.zero)
        pure (acc, l)
    uVals v.sumEn out
    let per := (if d.draws then tx.cols else 0) + (match v.z with | some z => if z.draws then 1 else 0 | none => 0)
    let base := (j / x.tiles.length) * per
    let draw (i : Nat) := x.draw (x.member j) (base + i)
    d.writeRow draw j 0 out
    match v.z with
    | some z => z.writeRow (fun i => draw ((if d.draws then tx.cols else 0) + i)) j 0 [l]
    | none => pure ⟨⟩
  | _, _, _ => pure ⟨⟩

def Vec.plan (k : Nat) (x : Cmd) : Plan :=
  let v := Vec.parse x.desc
  let n := if v.form = 0 then v.shape.1 * ceilDiv v.shape.2 4096
           else (match v.x with | some t => t.rows | none => 0) / v.parts
  { units := tileUnits x.tiles n
    run := fun j => if v.form = 0 then v.strip x j else v.merge x j
    share := shareSummary v.sumEn k (fieldAt v.d 3 0 6) (fieldAt v.d 2 3 2) id n }

/-- The slots that the immediates of each member come from, read once as the shares start (R123). -/
def State.vecSlots (s : State) (k : Nat) (x : Cmd) : List Nat :=
  let v := Vec.parse x.desc
  x.tiles.flatMap (fun t => (List.range 4).map (fun n => if v.fromSum n then s.slot (k / 64) t (fieldAt v.d (4 + n) 0 6) else 0))

/-- The engine of VEC. -/
def vecEngine : Engine where
  prep := fun _ _ x => do
    match ← readDesc x 320 64 with
    | .error e => return .error e
    | .ok d => return (do (Vec.parse d).check; .ok (d, []))
  foot := fun x =>
    let v := Vec.parse x.desc
    optFoot v.x false ++ optFoot v.y false ++ optFoot v.z (v.form == 1) ++ optFoot v.dst true
  rows := fun _ => Res.vec
  tiled := true
  plan := Vec.plan
  start := fun s k x =>
    let x := { x with aux := s.vecSlots k x }
    (s.updCmd k x.count (fun _ => x)).runPlan k x (Vec.plan k x)

/-! ### SCAN and REDUCE (R128 to R138) -/

/-- A descriptor of SCAN or REDUCE. -/
structure Red where
  d : List Byte
  scan : Bool
  op : Nat
  axis : Nat
  excl : Bool
  segMode : Nat
  grad : Bool
  topk : Bool
  mask : Nat
  maskPitch : Nat
  segPitch : Nat
  seg : Nat
  segCount : Nat
  k : Nat
  x : Option TRef
  y : Option TRef
  z : Option TRef
  dst : Option TRef
  e : Option TRef
  deriving DecidableEq, Repr

def Red.parse (scan : Bool) (d : List Byte) : Red :=
  { d := d, scan := scan, op := fieldAt d 1 0 4, axis := fieldAt d 2 0 1, excl := fieldAt d 2 1 1 == 1,
    segMode := fieldAt d 2 2 2, grad := fieldAt d 2 4 1 == 1, topk := fieldAt d 2 5 1 == 1,
    mask := fieldAt d 24 0 64, maskPitch := fieldAt d 32 0 32, segPitch := fieldAt d 36 0 32, seg := fieldAt d 40 0 64,
    segCount := fieldAt d 48 0 32, k := fieldAt d 52 0 32,
    x := optRef d 64, y := optRef d 128, z := optRef d 192, dst := optRef d 256, e := optRef d 320 }

abbrev RedOp.argmax : Nat := 5
abbrev RedOp.argmin : Nat := 6
abbrev RedOp.count : Nat := 9
abbrev RedOp.distill : Nat := 10
abbrev RedOp.topk : Nat := 11

def Red.sumEn (q : Red) : Bool := fieldAt q.d 3 6 1 == 1

/-- The header (R128, R129). The temperature must be a positive finite normal value and the scale finite (R141). -/
def Red.headOk (q : Red) : Bool :=
  let d := q.d
  let dis := q.op == RedOp.distill
  fieldAt d 0 0 8 == 6 && q.op ≤ 11 && fieldAt d 1 4 4 == 0 &&
  (if q.scan then q.axis == 0 && (q.op == 0 || q.op == 2 || q.op == 3 || q.op == 4) else !q.excl) &&
  q.segMode != 3 && (dis || (!q.grad && !q.topk)) && fieldAt d 2 6 2 == 0 && fieldAt d 3 7 1 == 0 && fieldAt d 4 2 30 == 0 &&
  (if dis then x36FieldOk d 8 && x36FieldOk d 16 && (x36Field d 16).isFin &&
      (match x36Field d 8 with | .fin n m _ => !n && decide (m ≥ 2 ^ 24) | _ => false)
   else zeroAt d 8 24) &&
  q.mask % 8 == 0 && (if q.mask = 0 then q.maskPitch == 0 else q.maskPitch % 8 == 0) &&
  (if q.segMode = 0 then q.seg == 0 else q.seg % 8 == 0) && (q.segMode == 2 || q.segCount == 0) &&
  (if q.op = RedOp.topk ∨ q.topk then 1 ≤ q.k && q.k ≤ 4096 else q.k == 0) && zeroAt d 56 64

/-- The formats that the roles accept (R130). -/
def Red.dstFmt (q : Red) (f : Nat) : Bool :=
  if q.op = RedOp.argmax ∨ q.op = RedOp.argmin then f == FC.int32
  else if q.op = RedOp.count then f == FC.int32 || isWide f
  else if q.op = RedOp.distill then isWide f
  else notInt f

/-- The bytes of the mask and of the segment data. -/
def Red.maskSpan (q : Red) (rows cols : Nat) : Nat × Nat := (q.mask, if q.mask = 0 then 0 else (rows - 1) * q.maskPitch + ceilDiv cols 8)
def Red.segSpan (q : Red) (rows cols : Nat) : Nat × Nat :=
  (q.seg, if q.segMode = 0 then 0 else (rows - 1) * q.segPitch + (if q.segMode = 1 then ceilDiv cols 8 else 4 * q.segCount))

/-- A destination shares no byte with a span. -/
def TRef.clear (t : TRef) (p : Nat × Nat) : Bool := p.2 == 0 || t.spans.all (fun q => !spansMeet q p)

/-- The shapes and overlaps (R130). -/
def Red.shapeOk (q : Red) (x d : TRef) : Bool :=
  let m := q.maskSpan x.rows x.cols
  let g := q.segSpan x.rows x.cols
  let dis := q.op == RedOp.distill
  let top := q.op == RedOp.topk
  d.clear m && d.clear g && (if q.scan then !overlapsOther (some d) (some x) else !d.meets x) &&
  (if q.scan then d.rows == x.rows && d.cols == x.cols
   else if q.axis = 1 then d.rows == 1 && d.cols == x.cols && q.segMode == 0 && !dis && !top
   else if top then d.rows == x.rows && d.cols == q.k && q.segMode == 0
   else d.rows == x.rows && (q.segMode != 0 || d.cols == 1) && (q.segMode != 2 || d.cols ≥ q.segCount)) &&
  (!(q.op == RedOp.argmax || q.op == RedOp.argmin) || (if q.axis = 1 then x.rows else x.cols) ≤ 2 ^ 32 - 2) &&
  !(q.sumEn && d.fmt == FC.int32) &&
  (match q.e with
   | some e => if top then e.rows == x.rows && e.cols == q.k && !e.meets x && !e.meets d && e.clear m
               else dis && q.grad && e.rows == x.rows && e.cols == x.cols
   | none => !top && !(dis && q.grad)) &&
  (if dis then
     match q.y, q.z, q.topk with
      | some y, none, false => y.rows == x.rows && y.cols == x.cols
      | some y, some z, true => y.rows == x.rows && y.cols == q.k && z.rows == x.rows && z.cols == q.k
      | _, _, _ => false
   else q.y.isNone && q.z.isNone)

/-- The accepted formats of the roles that the operation uses (R130); a role that it does not use is judged with the
shapes. For Y and E of DISTILL the spec lists none: every format but INT32 is taken (log entry 115). -/
def Red.fmtOk (q : Red) : Except Nat Unit := do
  let dis := q.op == RedOp.distill
  optFmt q.x notInt
  if dis then
    optFmt q.y notInt
    if q.topk then optFmt q.z (· == FC.int32)
  optFmt q.dst (if q.scan then notInt else q.dstFmt)
  if q.op = RedOp.topk then optFmt q.e (· == FC.int32)
  if dis && q.grad then optFmt q.e notInt

/-- The checks in the order of R618. -/
def Red.check (q : Red) : Except Nat Unit := do
  need q.headOk St.descInvalid
  optCheck q.x false
  optCheck q.y false
  optCheck q.z false
  optCheck q.dst true
  optCheck q.e true
  q.fmtOk
  match q.x, q.dst with
  | some x, some d => need (q.shapeOk x d) St.descInvalid
  | _, _ => .error St.descInvalid

/-! ### Masks and segments (R131) -/

/-- The marks of elements `[j, j + n)` of a row. -/
def Red.marks (q : Red) (r j n : Nat) : U (List Bool) :=
  if q.mask = 0 then pure (List.replicate n true) else uBits (q.mask + r * q.maskPitch) j n

/-- Segments of given lengths from a column on, cut at the end of the row: start and length. -/
def cutSegs (cols : Nat) : Nat → List Nat → List (Nat × Nat)
  | _, [] => []
  | j, l :: t => (j, min l (cols - j)) :: cutSegs cols (min cols (j + l)) t

/-- Segments from start marks. -/
def bitSegs (cols : Nat) : List Nat → List (Nat × Nat)
  | [] => []
  | [a] => [(a, cols - a)]
  | a :: b :: t => (a, b - a) :: bitSegs cols (b :: t)

/-- The segments of a row. -/
def Red.segs (q : Red) (r cols : Nat) : U (List (Nat × Nat)) :=
  match q.segMode with
  | 0 => pure [(0, cols)]
  | 1 => do
    let bs ← uBits (q.seg + r * q.segPitch) 0 cols
    return bitSegs cols ((List.range cols).zip bs |>.filterMap (fun p => if p.1 = 0 ∨ p.2 then some p.1 else none))
  | _ => do
    let bs ← uRead (q.seg + r * q.segPitch) (4 * q.segCount)
    return cutSegs cols 0 ((List.range q.segCount).map (fun i => fieldAt bs (4 * i) 0 32))

/-- The end of the last of some segments. -/
def segsEnd (segs : List (Nat × Nat)) : Nat := (segs.map (fun g => g.1 + g.2)).foldl max 0

/-! ### SCAN (R132) -/

/-- The running state of a scan: place in the chunk, carry, local prefix. -/
structure ScanSt where
  pos : Nat := 0
  carry : Num
  loc : Option Num := none
  deriving DecidableEq, Repr

/-- The running value. -/
def ScanSt.value (op : Nat) (t : ScanSt) : W Num := match t.loc with
  | some l => redOp op t.carry l
  | none => pure t.carry

/-- The state after an element; at the end of a chunk its inclusive output is the carry. -/
def ScanSt.next (op : Nat) (t : ScanSt) (x : Option Num) : W ScanSt := do
  let loc ← match t.loc, x with
    | some l, some v => do pure (some (← redOp op l v))
    | none, some v => pure (some v)
    | l, none => pure l
  let u : ScanSt := { t with pos := t.pos + 1, loc := loc }
  if u.pos = 32 then return { pos := 0, carry := ← u.value op } else return u

/-- Elements with marks where a segment starts: the outputs and the state after them. -/
def scanRun (op : Nat) (excl : Bool) (t : ScanSt) (xs : List (Bool × Option Num)) : W (List Num × ScanSt) :=
  xs.foldlM (fun (acc : List Num × ScanSt) x => do
    let t := if x.1 then { carry := redId op } else acc.2
    let before ← if excl then t.value op else pure Num.zero
    let u ← t.next op x.2
    -- At the end of a chunk the carry is the inclusive output.
    let out ← if excl then pure before else if u.pos = 0 then pure u.carry else u.value op
    return (acc.1 ++ [out], u)) ([], t)

/-- A scan's state as numbers, with the next piece in front. -/
def ScanSt.save (t : ScanSt) (piece : Nat) : List Nat :=
  [piece, t.pos, x36Code t.carry, b2n t.loc.isSome, x36Code (t.loc.getD Num.zero)]
def ScanSt.load (op : Nat) (c : List Nat) : ScanSt :=
  if c = [] then { carry := redId op }
  else { pos := c.getD 1 0, carry := x36Of (c.getD 2 0), loc := if c.getD 3 0 = 1 then some (x36Of (c.getD 4 0)) else none }

/-- Elements `[j, j + n)` of a row scanned and put out: the state after them. -/
def Red.scanPiece (q : Red) (x d : TRef) (draw : Nat → Nat) (r j n : Nat) (t : ScanSt) : U ScanSt := do
  let segs ← q.segs r x.cols
  let starts := (segs.filter (fun g => g.2 != 0)).map (·.1)
  let n := min n (segsEnd segs - j)
  let marks ← q.marks r j n
  let xs ← x.getSome (denormOf (some d)) r j marks
  let els := (xs.zipIdx j).map (fun e => (starts.contains e.2, e.1))
  let (out, u) ← uLane (scanRun q.op q.excl t els)
  uVals q.sumEn out
  if n = 0 then return u
  else do
    d.writePart draw r j out
    return u

/-- One row of a SCAN in pieces of 4,096 elements (R146). A piece that reads lost data leaves its outputs unchanged, and
its elements take no part in the values that follow (R296). -/
def Red.scanRow (q : Red) (x d : TRef) (draw : Nat → Nat) (r : Nat) : U PUnit := do
  (List.range (ceilDiv x.cols 4096)).forM (fun p => do
    let c ← uCarried
    if (← uGoes) ∧ c.getD 0 0 = p then do
      let t := ScanSt.load q.op c
      let len := min 4096 (x.cols - 4096 * p)
      let (u, bad) ← uLossy (uStrict (q.scanPiece x d (fun i => draw (4096 * p + i)) r (4096 * p) len t))
      if ← uGoes then do
        let u := if bad then ((scanRun q.op q.excl t (List.replicate len (false, none))).run {}).1.2 else u
        uCarry (u.save (p + 1))
        uFlush)
  if ← uGoes then uCarry []

/-! ### Rows and columns of REDUCE (R133 to R137) -/

/-- The reduction of elements with their positions: a value, or a position as a number. -/
def Red.one (q : Red) (xs : List (Option Num)) : W (Num × Nat) := do
  if q.op = RedOp.argmax ∨ q.op = RedOp.argmin then
    match argBest (q.op == RedOp.argmin) ((xs.zipIdx).filterMap (fun e => e.1.map (fun v => (v, e.2)))) with
    | some b => return (b.1, b.2)
    | none => do
      let _ ← wFlag (Num.zero, { emptyReduce := true })
      return (Num.zero, 0xFFFFFFFF)
  else
    let v ← wReduce q.op xs
    return (v, (xs.filter (fun x => match x with | some v => !v.isZero | none => false)).length)

/-- Results written to a destination row from column `c`; a row may have fewer results than columns (R131). -/
def Red.put (q : Red) (d : TRef) (draw : Nat → Nat) (r c : Nat) (vs : List (Num × Nat)) : U PUnit := do
  uVals q.sumEn (vs.map (·.1))
  if vs = [] then pure ⟨⟩
  else if d.fmt = FC.int32 then d.writeInts r c (vs.map (·.2)) else d.writePart draw r c (vs.map (·.1))

/-- Elements kept between pieces, as numbers: 0 stands for an excluded one. -/
def keepEls (xs : List (Option Num)) : List Nat := xs.map (fun x => match x with | some v => x36Code v + 1 | none => 0)
def keptEls (c : List Nat) : List (Option Num) := c.map (fun n => if n = 0 then none else some (x36Of (n - 1)))

/-- Segments kept between pieces, in front of the elements. -/
def keepSegs (segs : List (Nat × Nat)) : List Nat := segs.length :: segs.flatMap (fun g => [g.1, g.2])
def keptSegs (c : List Nat) : List (Nat × Nat) := (List.range (c.headD 0)).map (fun i => (c.getD (1 + 2 * i) 0, c.getD (2 + 2 * i) 0))
def keptRest (c : List Nat) : List Nat := c.drop (1 + 2 * c.headD 0)

/-- One row of a reduction along COLS, segment by segment, in pieces of 4,096 elements (R146). -/
def Red.row (q : Red) (x d : TRef) (draw : Nat → Nat) (r : Nat) : U PUnit :=
  uPieces (ceilDiv x.cols 4096)
    (fun p kept => do
      let segs ← if p = 0 then q.segs r x.cols else pure (keptSegs kept)
      let n := min 4096 (x.cols - 4096 * p)
      let m := min n (segsEnd (segs.take d.cols) - 4096 * p)
      let marks ← q.marks r (4096 * p) m
      let xs ← x.getSome (denormOf (some d)) r (4096 * p) marks
      return (if p = 0 then keepSegs segs else []) ++ keepEls xs ++ List.replicate (n - m) 0)
    (fun kept => do
      let segs := keptSegs kept
      let els := keptEls (keptRest kept)
      let used := segs.take d.cols
      let vs ← used.mapM (fun g => uLane (q.one ((els.drop g.1).take g.2)))
      if q.segMode = 1 then uCount (segs.length - used.length)
      q.put d draw r 0 vs)

/-- Elements `[lo, hi)` of a strip of `n` columns, numbered row by row. -/
def Red.stripPart (q : Red) (x d : TRef) (c n lo hi : Nat) : U (List (Option Num)) := do
  let rows ← (List.range (ceilDiv hi n - lo / n)).mapM (fun i => do
    let r := lo / n + i
    let a := max lo (r * n) - r * n
    let b := min hi (r * n + n) - r * n
    let marks ← q.marks r (c + a) (b - a)
    x.getSome (denormOf (some d)) r (c + a) marks)
  return rows.flatten

/-- A strip of columns of a reduction along ROWS, in pieces of 4,096 elements (R146). -/
def Red.cols (q : Red) (x d : TRef) (draw : Nat → Nat) (c n : Nat) : U PUnit :=
  uPieces (ceilDiv (x.rows * n) 4096)
    (fun p _ => do return keepEls (← q.stripPart x d c n (4096 * p) (min (x.rows * n) (4096 * p + 4096))))
    (fun kept => do
      let rows := chunks n (x.rows + 1) (keptEls kept)
      let vs ← (List.range n).mapM (fun j => uLane (q.one (rows.map (fun row => (row[j]?).join))))
      q.put d draw 0 c vs)

/-- One row of TOPK (R137). -/
def Red.topRow (q : Red) (x d e : TRef) (draw : Nat → Nat) (r : Nat) : U PUnit := uStrict do
  let marks ← q.marks r 0 x.cols
  let xs ← x.getSome (denormOf (some d)) r 0 marks
  let els := (xs.zipIdx).filterMap (fun p => p.1.map (fun v => (v, p.2)))
  if els = [] then uFlags { emptyReduce := true }
  let best := ((byRank els).take q.k)
  let best := best ++ List.replicate (q.k - best.length) (.inf true, 0xFFFFFFFF)
  uVals q.sumEn (best.map (·.1))
  d.writeRow draw r 0 (best.map (·.1))
  e.writeInts r 0 (best.map (·.2))

/-! ### DISTILL (R141, R142) -/

/-- What a row of DISTILL gives: the loss and the gradients at the included positions. -/
structure Distilled where
  loss : Num
  grad : List (Option Num)
  deriving DecidableEq, Repr

/-- A scaled logit; −Inf stays −Inf. -/
def wScaled (t : Num) (x : Option Num) : W (Option Num) := match x with
  | some v => do return some (← wDivN v t)
  | none => return none

/-- The log-probability of a scaled logit; that of −Inf is −Inf. -/
def wLogp (l : Num) (u : Num) : W Num := if u = .inf true then pure (.inf true) else wSub u l

/-- A probability; that of −Inf is +0. -/
def wProb (lp : Num) : W Num := if lp = .inf true then pure Num.zero else wFn 0x20 lp

/-- The loss and the gradient of a row whose inputs are in order: `us` the student's logits by position, `es` the
teacher's entries (value, position). -/
def distillRow (t s : Num) (us : List (Option Num)) (es : List (Option (Num × Nat))) (grad : Bool) : W Distilled := do
  let u ← us.mapM (wScaled t)
  let lu ← wLse u
  let logq ← u.mapM (fun x => match x with
    | some v => do return some (← wLogp lu v)
    | none => return none)
  let v ← (es.map (fun e => e.map (·.1))).mapM (wScaled t)
  let lv ← wLse v
  let ps ← (v.zip es).mapM (fun e => match e with
    | (some w, some (_, i)) => do
      let lp ← wLogp lv w
      return some (lp, ← wProb lp, i)
    | _ => return none)
  let terms ← ps.mapM (fun p => match p with
    | some (lp, p, i) => if p.isZero then return none else do
      return some (← wMul p (← wSub lp ((logq[i]?).join.getD (.inf true))))
    | none => return none)
  let sum := (← reduceTree (redOp 0) terms).getD Num.zero
  let loss ← wMul s sum
  if !grad then return { loss := loss, grad := [] }
  else
    let gs ← (logq.zipIdx).mapM (fun e => match e.1 with
      | some lq => do
        let mine := ps.filterMap (fun p => match p with | some (_, p, i) => if i = e.2 then some p else none | none => none)
        let pi ← match mine with
          | [] => pure Num.zero
          | p :: r => r.foldlM wAdd p
        return some (← wDivN (s.mul (← wSub (← wProb lq) pi)) t)
      | none => return none)
    return { loss := loss, grad := gs }

/-- The loss and the gradient of one segment of a row, special inputs first (R142): the row's logits by position, none
where excluded, and the teacher's entries. -/
def Red.distillSeg (q : Red) (us : List (Option Num)) (es : List (Option (Num × Nat))) (cols : Nat) : U Distilled := do
  let vals := us.filterMap id ++ es.filterMap (fun e => e.map (·.1))
  let far := es.any (fun e => match e with | some (_, i) => decide (i ≥ cols) | none => false)
  let inf := vals.any (fun v => v == .inf false)
  if us.all Option.isNone then do
    uFlags { emptyReduce := true }
    return { loss := Num.zero, grad := us }
  else if far || inf || vals.any Num.isNan then do
    if far || inf then uFlags { invalid := true }
    return { loss := .nan, grad := us.map (fun u => u.map (fun _ => .nan)) }
  else uLane (distillRow (x36Field q.d 8) (x36Field q.d 16) us es q.grad)

/-- The position lies in a segment. -/
def inSeg (g : Nat × Nat) (i : Nat) : Bool := decide (g.1 ≤ i ∧ i < g.1 + g.2)

/-- One row of DISTILL. With segments each segment is a vocabulary of its own: elements and entries outside it are
excluded from it (log entry 115). The draws of a row go to D and then to E (log entry 133). -/
def Red.distill (q : Red) (x y d : TRef) (draw : Nat → Nat) (r : Nat) : U PUnit := uStrict do
  let dn := denormOf (some d)
  let segs ← q.segs r x.cols
  let used := segs.take d.cols
  let n := segsEnd used
  let marks ← q.marks r 0 n
  let us ← x.getSome dn r 0 marks
  let es : List (Option (Num × Nat)) ←
    if q.topk then do
      let ix ← match q.z with
        | some z => z.readInts r 0 q.k
        | none => pure []
      let ys ← y.get dn r 0 q.k
      pure ((ys.zip ix).map (fun e => if e.2 < x.cols ∧ (marks[e.2]?).getD false = false then none else some e))
    else do
      let ys ← y.getSome dn r 0 marks
      pure ((ys.zipIdx).map (fun e => e.1.map (fun v => (v, e.2))))
  let es := es.map (fun e => match e with
    | some (v, i) => if v = Num.inf true then none else some (v, i)
    | none => none)
  let res ← used.mapM (fun g => q.distillSeg
    (us.zipIdx.map (fun u => if inSeg g u.2 then u.1 else none))
    (es.map (fun e => e.filter (fun e => inSeg g e.2 || decide (e.2 ≥ x.cols)))) x.cols)
  if q.segMode = 1 then uCount (segs.length - used.length)
  q.put d draw r 0 (res.map (fun z => (z.loss, 0)))
  match q.e with
  | some e =>
    let grads := (List.range n).map (fun i => ((res.filterMap (fun z => (z.grad[i]?).join)).head?).getD Num.zero)
    e.writePart (fun i => draw ((if d.draws then used.length else 0) + i)) r 0 grads
  | none => pure ⟨⟩

/-! ### The engine of SCAN and REDUCE -/

/-- Elements that a row writes to D and to E: with segments they depend on the row's segments, which are read again. -/
def Red.rowOuts (q : Red) (x d : TRef) (r : Nat) : U (Nat × Nat) := fun a =>
  let segs := ((q.segs r x.cols).run a).1
  let used := segs.take d.cols
  (if q.scan then (segsEnd segs, 0)
   else if q.op = RedOp.topk then (q.k, q.k)
   else (used.length, segsEnd used), a)

/-- Draws of the rows that the tile handled before unit `j`. -/
def Red.rowBase (q : Red) (x : Cmd) (tx d : TRef) (j : Nat) : U Nat := do
  let on (t : Option TRef) : Nat := match t with | some t => b2n t.draws | none => 0
  if on q.dst + on q.e = 0 then return 0
  else
    let ns ← (x.before j).mapM (q.rowOuts tx d)
    return (ns.map (fun n => on q.dst * n.1 + on q.e * n.2)).sum

/-- Unit `j`: a row, or a strip of 512 columns. -/
def Red.unit (q : Red) (c : Cmd) (j : Nat) : U PUnit :=
  match q.x, q.dst with
  | some x, some d =>
    if q.axis = 1 then
      let (_, col, n) := stripOf 512 x.cols j
      q.cols x d (fun i => c.draw (c.member j) (stripsBefore c 512 x.cols j + i)) col n
    else do
      let base ← q.rowBase c x d j
      let draw (i : Nat) := c.draw (c.member j) (base + i)
      if q.scan then q.scanRow x d draw j
      else if q.op = RedOp.topk then match q.e with
        | some e => q.topRow x d e draw j
        | none => pure ⟨⟩
      else if q.op = RedOp.distill then match q.y with
        | some y => q.distill x y d draw j
        | none => pure ⟨⟩
      else q.row x d draw j
  | _, _ => pure ⟨⟩

def Red.plan (q : Red) (k : Nat) (c : Cmd) : Plan :=
  let x := q.x.getD (TRef.parse [] 0)
  let n := if q.axis = 1 then ceilDiv x.cols 512 else x.rows
  { units := tileUnits c.tiles n
    run := q.unit c
    share := shareSummary q.sumEn k (fieldAt q.d 3 0 6) (fieldAt q.d 4 0 2) id n }

/-- The engine of SCAN (`scan`) and REDUCE. -/
def redEngine (scan : Bool) : Engine where
  prep := fun _ _ x => do
    match ← readDesc x 384 64 with
    | .error e => return .error e
    | .ok d => return (do (Red.parse scan d).check; .ok (d, []))
  foot := fun c =>
    let q := Red.parse scan c.desc
    let x := q.x.getD (TRef.parse [] 0)
    let m := q.maskSpan x.rows x.cols
    let g := q.segSpan x.rows x.cols
    optFoot q.x false ++ optFoot q.y false ++ optFoot q.z false ++ optFoot q.dst true ++ optFoot q.e true ++
    [footRange m.1 m.2 false, footRange g.1 g.2 false]
  rows := fun _ => Res.vec
  tiled := true
  plan := fun k c => (Red.parse scan c.desc).plan k c

/-! ### CONVERT (R143) -/

def convRefs (d : List Byte) : TRef × TRef := (TRef.parse d 64, TRef.parse d 128)

def convertCheck (d : List Byte) : Except Nat Unit := do
  let (a, b) := convRefs d
  need (fieldAt d 0 0 8 == 3 && zeroAt d 1 64) St.descInvalid
  a.check false
  b.check true
  need (notInt a.fmt && notInt b.fmt) St.fmtUnsupported
  need (a.rows == b.rows && a.cols == b.cols && !a.meets b) St.descInvalid

/-- One strip. A block element goes to an unscaled format with one rounding of its exact value (R61), and to another block
through X36 (R68). -/
def convertStrip (c : Cmd) (j : Nat) : U PUnit := uStrict do
  let (a, b) := convRefs c.desc
  let (r, col, n) := stripOf 4096 a.cols j
  let (es, f) ← a.readEls (denormOf (some b)) r col n
  uFlags f
  b.writeRow (fun i => c.draw (c.member j) (stripsBefore c 4096 a.cols j + i)) r col
    (es.map (if fmtBlocked b.fmt then El.num else El.exact))

/-- The engine of CONVERT: its count is that of VANISHED elements (R70, R143). -/
def convertEngine : Engine where
  prep := fun _ _ x => do
    match ← readDesc x 192 64 with
    | .error e => return .error e
    | .ok d => return (do convertCheck d; .ok (d, []))
  foot := fun c => let (a, b) := convRefs c.desc; a.foot false ++ b.foot true
  rows := fun _ => Res.vec
  tiled := true
  plan := fun _ c =>
    let (a, _) := convRefs c.desc
    { units := tileUnits c.tiles (a.rows * ceilDiv a.cols 4096), run := convertStrip c }

end Sys2Proof.Machine
end

