-- ==== Sys2Proof/Machine/MediaFn.lean ====
section
/-!
DEFINITION. What a media front end computes on a sample (R415, R421 to R432, R438): the tokenizer, the checks of a
sample, the image stages from the crop to the pyramid, the framing of sound, and the sizes of pyramid levels.
-/
namespace Sys2Proof.Machine

/-! ### Reasons (R434) and codecs (R415) -/

abbrev Why.header : Nat := 1
abbrev Why.dimension : Nat := 2
abbrev Why.unsupported : Nat := 3
abbrev Why.expansion : Nat := 4
abbrev Why.budget : Nat := 5
abbrev Why.bitstream : Nat := 6
abbrev Why.truncated : Nat := 7
abbrev Why.timeout : Nat := 8
abbrev Why.oversize : Nat := 9
abbrev Why.augRange : Nat := 10
abbrev Why.inputLost : Nat := 11
abbrev Why.noFrame : Nat := 12
abbrev Why.time : Nat := 13
abbrev Why.kind : Nat := 14
abbrev Why.utf8 : Nat := 15

abbrev MKind.image : Nat := 0
abbrev MKind.video : Nat := 1
abbrev MKind.audio : Nat := 2
abbrev MKind.text : Nat := 3

/-- A codec belongs to a kind of media (R415). -/
def codecOk (kind codec : Nat) : Bool :=
  match kind with
  | 0 => codec == 1 || codec == 2
  | 1 => codec == 3 || codec == 4 || codec == 5
  | 2 => codec == 6 || codec == 7 || codec == 8
  | _ => codec == 9

/-! ### The tokenizer (R427 to R430) -/

/-- The merges of a tokenizer table, by rank. -/
def tabMerges (t : List Byte) : List (Nat × Nat) :=
  (List.range (fieldAt t 8 0 32)).map (fun r => (fieldAt t (320 + 8 * r) 0 32, fieldAt t (324 + 8 * r) 0 32))

/-- BOS or EOS: a token, or none for −1. -/
def tabMark (t : List Byte) (o : Nat) : Option Nat :=
  let v := fieldAt t o 0 32
  if v = 0xFFFFFFFF then none else some v

/-- Checks 1 to 6 of R429 on a table's bytes, in their order: the first that fails and the byte it fails at. -/
def tabCheck (t : List Byte) : Option (Nat × Nat) :=
  let m := fieldAt t 8 0 32
  let badRes := ([6, 7] ++ (List.range 44).map (· + 20)).find? (fun o => (t.getD o 0).toNat / (if o = 20 then 2 else 1) != 0)
  let badCls := (List.range 256).find? (fun i => decide ((t.getD (64 + i) 0).toNat > 15))
  let badMark := [12, 16].find? (fun o => match tabMark t o with | some v => decide (v ≥ 256 + m) | none => false)
  let badMerge := (tabMerges t).zipIdx.find? (fun p => decide (p.1.1 ≥ 256 + p.2 ∨ p.1.2 ≥ 256 + p.2))
  if fieldAt t 0 0 32 ≠ 0x54584247 then some (1, 0)
  else if fieldAt t 4 0 16 ≠ 1 then some (1, 4)
  else if m > 262144 then some (2, 8)
  else match badRes, badCls, badMark, badMerge with
    | some o, _, _, _ => some (3, o)
    | none, some i, _, _ => some (4, 64 + i)
    | none, none, some o, _ => some (5, o)
    | none, none, none, some p => some (6, if p.1.1 ≥ 256 + p.2 then 320 + 8 * p.2 else 324 + 8 * p.2)
    | none, none, none, none => none

/-- The class of a byte. -/
def tabClass (t : List Byte) (b : Byte) : Nat := (t.getD (64 + b.toNat) 0).toNat

/-- Chunks end between two bytes of different classes; bytes of class 0 join the chunk that follows them (R430). The
run so far stands in reverse order. -/
def splitByClass (cls : Byte → Nat) : List Byte → List Byte → List (List Byte)
  | [], [] => []
  | run, [] => [run.reverse]
  | [], b :: t => splitByClass cls [b] t
  | a :: run, b :: t =>
    if cls a ≠ cls b ∧ cls a ≠ 0 then (a :: run).reverse :: splitByClass cls [b] t
    else splitByClass cls (b :: a :: run) t

/-- The pairs of neighbours. -/
def neighbours : List Nat → List (Nat × Nat)
  | a :: b :: t => (a, b) :: neighbours (b :: t)
  | _ => []

/-- Every occurrence of a pair replaced, left to right, not overlapping. -/
def replacePair (p : Nat × Nat) (new : Nat) : List Nat → List Nat
  | a :: b :: t => if (a, b) = p then new :: replacePair p new t else a :: replacePair p new (b :: t)
  | xs => xs

/-- The merges of a chunk (R430): the lowest rank present is applied until none is; each round shortens the chunk. -/
def mergeAll (ms : List (Nat × Nat)) : Nat → List Nat → List Nat
  | 0, xs => xs
  | f + 1, xs =>
    let ps := neighbours xs
    match ms.zipIdx.find? (fun m => ps.contains m.1) with
    | some m => mergeAll ms f (replacePair m.1 (256 + m.2) xs)
    | none => xs

/-- The tokens of a text (R430), without BOS and EOS. -/
def tokenize (t : List Byte) (bs : List Byte) : List Nat :=
  let chunks := if fieldAt t 20 0 1 = 1 then splitByClass (tabClass t) [] bs else [bs]
  chunks.flatMap (fun c => mergeAll (tabMerges t) c.length (c.map (·.toNat)))

/-- The continuation bytes of a UTF-8 sequence: how many, and the range of the first (Unicode). -/
def utf8Lead (b : Nat) : Option (Nat × Nat × Nat) :=
  if b < 0x80 then some (0, 0, 0)
  else if 0xC2 ≤ b ∧ b ≤ 0xDF then some (1, 0x80, 0xBF)
  else if b = 0xE0 then some (2, 0xA0, 0xBF)
  else if b = 0xED then some (2, 0x80, 0x9F)
  else if 0xE1 ≤ b ∧ b ≤ 0xEF then some (2, 0x80, 0xBF)
  else if b = 0xF0 then some (3, 0x90, 0xBF)
  else if 0xF1 ≤ b ∧ b ≤ 0xF3 then some (3, 0x80, 0xBF)
  else if b = 0xF4 then some (3, 0x80, 0x8F)
  else none

/-- The bytes are valid UTF-8: `n` continuation bytes are due, the next of them in `[lo, hi]`. -/
def utf8Ok : Nat → Nat → Nat → List Byte → Bool
  | n, _, _, [] => n == 0
  | 0, _, _, b :: t => match utf8Lead b.toNat with
    | some (n, lo, hi) => utf8Ok n lo hi t
    | none => false
  | n + 1, lo, hi, b :: t => decide (lo ≤ b.toNat ∧ b.toNat ≤ hi) && utf8Ok n 0x80 0xBF t

/-! ### FP32 arithmetic, rounded to nearest at every step (R422) -/

def f32 (x : Num) : Num := (Fmt.fp32.round {} none x).1
def fAdd (a b : Num) : Num := f32 (a.add b)
def fSub (a b : Num) : Num := f32 (a.sub b)
def fMul (a b : Num) : Num := f32 (a.mul b)
/-- A quotient; a divisor of 0 does not occur in R423, and a value that is not finite gives NaN. -/
def fDiv (a b : Num) : Num := f32 (a.quot b)
abbrev Num.half : Num := .fin false 1 (-1)

/-- The integer that a value with no fraction holds. -/
def Num.toInt : Num → Int
  | .fin n m e => sgn n (m <<< e.toNat)
  | _ => 0
def floorInt (x : Num) : Int := (floorNum x).toInt
def ceilInt (x : Num) : Int := -(floorNum x.neg).toInt

/-! ### Image stages (R422 to R424, R438) -/

abbrev Plane := List (List Num)

/-- One output sample of R423. -/
def resampleAt (src : List Num) (s r : Num) (j : Nat) : Num :=
  let c := fSub (fMul (fAdd (Num.ofNat j) Num.half) s) Num.half
  let lo := ceilInt (fSub c r)
  let hi := floorInt (fAdd c r)
  let n : Int := src.length
  let acc := (List.range (hi - lo + 1).toNat).foldl (fun (a : Num × Num) (k : Nat) =>
    let i : Int := lo + k
    let w := Num.max Num.zero (fSub Num.one (fDiv (fSub (Num.ofInt i) c).abs r))
    let x := (src[(min (max i 0) (n - 1)).toNat]?).getD Num.zero
    (fAdd a.1 (fMul w x), fAdd a.2 w)) (Num.zero, Num.zero)
  fDiv acc.1 acc.2

/-- `m` samples from a row of samples (R423). -/
def resample (src : List Num) (m : Nat) : List Num :=
  let s := fDiv (Num.ofNat src.length) (Num.ofNat m)
  let r := if s.lt Num.one then Num.one else s
  (List.range m).map (resampleAt src s r)

/-- Rows and columns exchanged, for a plane `w` wide. -/
def transpose {α : Type} (d : α) (w : Nat) (p : List (List α)) : List (List α) :=
  (List.range w).map (fun x => p.map (fun r => r.getD x d))

/-- A plane resized to `w × h`, horizontally first (R423). -/
def resize (p : Plane) (w h : Nat) : Plane :=
  let q := p.map (fun r => resample r w)
  transpose Num.zero h ((transpose Num.zero w q).map (fun r => resample r h))

/-- One step of clockwise rotation. -/
def rotate (w : Nat) (p : Plane) : Plane := transpose Num.zero w p.reverse

/-- Flips, then rotation (R422); `w` and `h` are the sizes before it. -/
def orient (flipH flipV : Bool) (rot w h : Nat) (p : Plane) : Plane :=
  let p := if flipH then p.map List.reverse else p
  let p := if flipV then p.reverse else p
  match rot with
  | 0 => p
  | 1 => rotate w p
  | 2 => rotate h (rotate w p)
  | _ => rotate w (rotate h (rotate w p))

/-- Normalisation (R422). -/
def normalise (bits : Nat) (mean scale x : Num) : Num :=
  fMul (fSub (fDiv x (Num.ofNat (2 ^ bits - 1))) mean) scale

/-- A plane placed in a slot of `w × h`; every other position takes the padding value (R422). -/
def placed {α : Type} (pad : α) (w h ox oy : Nat) (p : List (List α)) : List (List α) :=
  (List.range h).map (fun y => (List.range w).map (fun x =>
    if ox ≤ x ∧ oy ≤ y then ((p.getD (y - oy) []).getD (x - ox) pad) else pad))

/-- The size of level `l` from the size of level 0 (R438). -/
def levelSize (half : Bool) (d l : Nat) : Nat :=
  max 1 (if half then d / 2 ^ l
         else if l % 2 = 0 then d / 2 ^ (l / 2)
         else d * 11863283 / 2 ^ (24 + (l - 1) / 2))

/-- The mask of a level from the mask of level 0 (R438): half positions in exact arithmetic. -/
def levelMask (w0 h0 w h : Nat) (m : List (List Bool)) : List (List Bool) :=
  (List.range h).map (fun y => (List.range w).map (fun x =>
    (m.getD ((2 * y + 1) * h0 / (2 * h)) []).getD ((2 * x + 1) * w0 / (2 * w)) false))

/-! ### Augmentation (R421) -/

structure Aug where
  cropX : Nat := 0
  cropY : Nat := 0
  cropW : Nat := 0
  cropH : Nat := 0
  outW : Nat := 0
  outH : Nat := 0
  offX : Nat := 0
  offY : Nat := 0
  flipH : Bool := false
  flipV : Bool := false
  rot : Nat := 0
  frameStart : Nat := 0
  frameStep : Nat := 1
  ok : Bool := true
  deriving DecidableEq, Repr

def Aug.parse (d : List Byte) : Aug :=
  { cropX := fieldAt d 0 0 32, cropY := fieldAt d 4 0 32, cropW := fieldAt d 8 0 32, cropH := fieldAt d 12 0 32,
    outW := fieldAt d 16 0 16, outH := fieldAt d 18 0 16, offX := fieldAt d 20 0 16, offY := fieldAt d 22 0 16,
    flipH := fieldAt d 24 0 1 == 1, flipV := fieldAt d 24 1 1 == 1, rot := fieldAt d 24 2 2,
    frameStart := fieldAt d 25 0 24, frameStep := if fieldAt d 28 0 8 = 0 then 1 else fieldAt d 28 0 8,
    ok := fieldAt d 24 4 4 == 0 && fieldAt d 29 0 24 == 0 }

/-- The span of a crop over `n` positions (R421); none when a fraction is above 2^16 or the crop is empty. -/
def cropSpan (x w n : Nat) : Option (Nat × Nat) :=
  let w' := if w = 0 then 65536 - x else w
  let x0 := x * n / 65536
  let x1 := min n (ceilDiv ((x + w') * n) 65536)
  if x > 65536 ∨ w > 65536 ∨ x1 ≤ x0 then none else some (x0, x1)

/-! ### A batch (R417) -/

structure Media where
  d : List Byte
  kind : Nat
  live : Bool
  refill : Bool
  oversize : Bool
  utf8 : Bool
  levels : Nat
  half : Bool
  chans : Nat
  slots : Nat
  spares : Nat
  x : Nat
  y : Nat
  t : Nat
  rate : Nat
  hop : Nat
  samples : Nat
  spareTab : Nat
  status : Nat
  levelTab : Nat
  tokens : Nat
  queue : Nat
  maxAge : Nat
  liveWait : Nat
  pad : Nat
  deriving DecidableEq, Repr

def Media.parse (d : List Byte) : Media :=
  { d := d, kind := fieldAt d 1 0 2, live := fieldAt d 1 2 1 == 1, refill := fieldAt d 1 3 1 == 1,
    oversize := fieldAt d 1 4 1 == 1, utf8 := fieldAt d 1 5 1 == 1, levels := fieldAt d 2 4 3,
    half := fieldAt d 2 7 1 == 1, chans := fieldAt d 3 0 8, slots := fieldAt d 4 0 32, spares := fieldAt d 8 0 32,
    x := fieldAt d 12 0 32, y := fieldAt d 16 0 32, t := fieldAt d 20 0 32, rate := fieldAt d 24 0 32,
    hop := fieldAt d 28 0 32, samples := fieldAt d 32 0 64, spareTab := fieldAt d 40 0 64, status := fieldAt d 48 0 64,
    levelTab := fieldAt d 56 0 64, tokens := fieldAt d 64 0 64, queue := fieldAt d 72 0 8, maxAge := fieldAt d 76 0 32,
    liveWait := fieldAt d 80 0 32, pad := fieldAt d 84 0 32 }

def Media.isPic (m : Media) : Bool := m.kind == MKind.image || m.kind == MKind.video
def Media.mean (m : Media) (c : Nat) : Num := Fmt.fp32.decode (fieldAt m.d (88 + 8 * c) 0 32)
def Media.scale (m : Media) (c : Nat) : Num := Fmt.fp32.decode (fieldAt m.d (92 + 8 * c) 0 32)
def Media.padNum (m : Media) : Num := Fmt.fp32.decode m.pad

/-- Width and height of a level. -/
def Media.size (m : Media) (l : Nat) : Nat × Nat := (levelSize m.half m.x l, levelSize m.half m.y l)

/-- Rows of a slot at a level, and the columns of a row (R418). -/
def Media.slotRows (m : Media) (l : Nat) : Nat :=
  if m.isPic then let (w, h) := m.size l; m.t * h * w else m.x
def Media.cols (m : Media) : Nat :=
  if m.isPic then m.chans else if m.kind = MKind.audio then m.y * m.chans else 1

/-- What a slot holds at one level: its rows, each a list of values (or one token), and its mask bits. -/
structure SlotOut where
  rows : List (List Num) := []
  ints : List Nat := []
  mask : List Bool := []
  deriving DecidableEq, Repr

/-- A slot of padding. -/
def Media.voidSlot (m : Media) (l : Nat) : SlotOut :=
  let n := m.slotRows l
  if m.kind = MKind.text then { ints := List.replicate n m.pad, mask := List.replicate n false }
  else { rows := List.replicate n (List.replicate m.cols m.padNum), mask := List.replicate n false }

/-- How a sample ends: a reason with its byte offset, or its levels and whether it was clipped. -/
inductive SampleEnd where
  | bad (reason detail : Nat)
  | good (levels : List SlotOut) (clipped : Bool)
  deriving DecidableEq, Repr

/-- The failure of a sample that the front end finds in the input. -/
def badAt (why codec : Nat) (bs : List Byte) : SampleEnd := .bad why (Config.mediaOffset why codec bs).toNat
/-- The failure of a sample that is not found at a byte of the input. -/
def badHere (why : Nat) : SampleEnd := .bad why 0xFFFFFFFF

/-- The limits of KFE_LIMITS: EXPANSION_MAX, the pixels of PIXEL_BUDGET, SAMPLE_TIME_MAX in nanoseconds. -/
structure Limits where
  expansion : Nat
  pixels : Nat
  ns : Nat
  deriving DecidableEq, Repr

/-- The frames of a video slot (R425), and how many frames are decoded for them. -/
def Media.frames (m : Media) (a : Aug) : List Nat :=
  if m.kind = MKind.video then (List.range m.t).map (fun i => a.frameStart + i * a.frameStep) else [0]
def Media.decoded (m : Media) (a : Aug) : Nat := ((m.frames a).getLast?).getD 0 + 1

/-- The declared output of a sample (R431): four times it, for the quarters of chroma. -/
def Media.declared4 (m : Media) (h : Config.MediaHead) (frames : Nat) : Option Nat :=
  match m.kind with
  | 0 => some (4 * h.width * h.height * h.comps)
  | 1 => some (6 * h.width * h.height * frames)
  | 2 => h.declared.map (fun n => 4 * n * h.channels)
  | _ => none

/-- The checks of R431 in their order. -/
def Media.headCheck (m : Media) (l : Limits) (h : Config.MediaHead) (frames bytes : Nat) : Option Nat :=
  if !h.parses then some Why.header
  else if m.kind = MKind.image ∧ (h.width > 16384 ∨ h.height > 16384) then some Why.dimension
  else if m.kind = MKind.video ∧ (h.width > 8192 ∨ h.height > 4320) then some Why.dimension
  else if !h.supported then some Why.unsupported
  else if (match m.declared4 h frames with | some d => decide (d > 4 * l.expansion * bytes) | none => false) then some Why.expansion
  else if m.kind = MKind.image ∧ h.width * h.height > l.pixels then some Why.budget
  else if m.kind = MKind.video ∧ h.width * h.height * frames > l.pixels then some Why.budget
  else none

/-- What decoding finds (R432). -/
def Media.decodeCheck (m : Media) (l : Limits) (h : Config.MediaHead) (codec : Nat) (bs : List Byte) (frames : Nat) : Option Nat :=
  let f := Config.mediaFault codec bs frames
  if Config.mediaNs codec bs frames > l.ns then some Why.timeout
  else if f = Why.unsupported ∨ f = Why.bitstream ∨ f = Why.truncated then some f
  else if m.kind = MKind.audio ∧ h.declared.isNone ∧ h.length * h.channels > l.expansion * bs.length then some Why.expansion
  else none

/-- One frame of a picture in its slot: the planes of the channels and the mask (R422). -/
def Media.frame (m : Media) (a : Aug) (h : Config.MediaHead) (codec : Nat) (bs : List Byte) (sx sy : Nat × Nat) (f : Nat) :
    List Plane × List (List Bool) :=
  let w := sx.2 - sx.1
  let ht := sy.2 - sy.1
  let ow := if a.outW = 0 then w else a.outW
  let oh := if a.outH = 0 then ht else a.outH
  let plane (c : Nat) : Plane :=
    let src := (List.range ht).map (fun y => (List.range w).map (fun x =>
      Fmt.fp32.decode (Config.mediaPixel codec bs m.chans f c (sy.1 + y) (sx.1 + x)).toNat))
    let p := orient a.flipH a.flipV a.rot ow oh (resize src ow oh)
    placed m.padNum m.x m.y a.offX a.offY (p.map (fun r => r.map (normalise h.bits (m.mean c) (m.scale c))))
  let (rw, rh) := if a.rot % 2 = 0 then (ow, oh) else (oh, ow)
  ((List.range m.chans).map plane,
   placed false m.x m.y a.offX a.offY (List.replicate rh (List.replicate rw true)))

/-- A frame of padding. -/
def Media.padFrame (m : Media) : List Plane × List (List Bool) :=
  (List.replicate m.chans (List.replicate m.y (List.replicate m.x m.padNum)), List.replicate m.y (List.replicate m.x false))

/-- Level `l` of a slot's frames (R418, R438): rows by frame, row and column. -/
def Media.level (m : Media) (fs : List (List Plane × List (List Bool))) (l : Nat) : SlotOut :=
  let (w, h) := m.size l
  let at_ (f : List Plane × List (List Bool)) : List Plane × List (List Bool) :=
    if l = 0 then f else (f.1.map (fun p => resize p w h), levelMask m.x m.y w h f.2)
  let gs := fs.map at_
  { rows := gs.flatMap (fun g => (List.range h).flatMap (fun y => (List.range w).map (fun x =>
      g.1.map (fun p => (p.getD y []).getD x Num.zero)))),
    mask := gs.flatMap (fun g => g.2.flatten) }

/-- A picture (R421 to R425). -/
def Media.picture (m : Media) (a : Aug) (h : Config.MediaHead) (codec : Nat) (bs : List Byte) : SampleEnd :=
  match cropSpan a.cropX a.cropW h.width, cropSpan a.cropY a.cropH h.height with
  | some sx, some sy =>
    let w := if a.outW = 0 then sx.2 - sx.1 else a.outW
    let ht := if a.outH = 0 then sy.2 - sy.1 else a.outH
    let (rw, rh) := if a.rot % 2 = 0 then (w, ht) else (ht, w)
    let isOver := decide (a.offX + rw > m.x ∨ a.offY + rh > m.y)
    let short := m.kind == MKind.video && decide (h.frames < m.decoded a)
    if m.kind = MKind.video ∧ h.frames ≤ a.frameStart then badAt Why.truncated codec bs
    else if isOver && !m.oversize then badHere Why.oversize
    else
      let fs := (m.frames a).map (fun f =>
        if m.kind = MKind.video ∧ f ≥ h.frames then m.padFrame else m.frame a h codec bs sx sy f)
      .good ((List.range (m.levels + 1)).map (m.level fs)) (isOver || short)
  | _, _ => badHere Why.augRange

/-- The mean of values, added in ascending order. -/
def fMean (xs : List Num) : Num := fDiv (xs.foldl fAdd Num.zero) (Num.ofNat xs.length)

/-- Sound (R426). -/
def Media.sound (m : Media) (a : Aug) (h : Config.MediaHead) (codec : Nat) (bs : List Byte) : SampleEnd :=
  match cropSpan a.cropX a.cropW h.length with
  | none => badHere Why.augRange
  | some (s0, s1) =>
    let n := Config.mediaSoundLen codec bs s0 s1 m.rate
    let frames := ceilDiv n m.hop
    let src (c i : Nat) : Num := Fmt.fp32.decode (Config.mediaSound codec bs s0 s1 m.rate c i).toNat
    let at_ (c i : Nat) : Num :=
      if i ≥ n then m.padNum
      else if m.chans = 1 then (if h.channels = 1 then src 0 i else fMean ((List.range h.channels).map (fun k => src k i)))
      else src (if h.channels = 1 then 0 else c) i
    if frames > m.x && !m.oversize then badHere Why.oversize
    else .good [{
      rows := (List.range m.x).map (fun f =>
        if f < frames then (List.range m.y).flatMap (fun j => (List.range m.chans).map (fun c => at_ c (f * m.hop + j)))
        else List.replicate m.cols m.padNum),
      mask := (List.range m.x).map (fun f => decide (f < frames)) }] (decide (frames > m.x))

/-- Text (R427, R430). -/
def Media.text (m : Media) (tab : List Byte) (bs : List Byte) : SampleEnd :=
  if m.utf8 && !utf8Ok 0 0 0 bs then badAt Why.utf8 9 bs
  else
    let bos := (tabMark tab 12).toList
    let body := bos ++ tokenize tab bs
    let all := body ++ (tabMark tab 16).toList
    let isOver := decide (all.length > m.x)
    if isOver && !m.oversize then badHere Why.oversize
    else
      let ts := (if isOver then body else all).take m.x
      .good [{ ints := ts ++ List.replicate (m.x - ts.length) m.pad,
               mask := List.replicate ts.length true ++ List.replicate (m.x - ts.length) false }] isOver

/-- A sample from its bytes (R422 to R432). -/
def Media.sample (m : Media) (l : Limits) (a : Aug) (tab : List Byte) (codec : Nat) (bs : List Byte) : SampleEnd :=
  if m.kind = MKind.text then
    if Config.mediaNs codec bs 1 > l.ns then badAt Why.timeout codec bs else m.text tab bs
  else
    let h := Config.mediaHead codec bs
    let frames := m.decoded a
    match m.headCheck l h frames bs.length with
    | some w => badAt w codec bs
    | none =>
      match m.decodeCheck l h codec bs (min frames h.frames) with
      | some w => badAt w codec bs
      | none => if m.isPic then m.picture a h codec bs else m.sound a h codec bs

end Sys2Proof.Machine
end

