-- ==== Sys2Proof/Machine/Group.lean ====
section
/-!
DEFINITION. Parameter groups (R213 to R227, R251): the entries of the group table and their checks, the slots of a
version, and the version that a marked operand reads.
-/
namespace Sys2Proof.Machine

/-- A group entry (R215). -/
structure PGroup where
  elems : Nat
  versions : Nat
  frozen : Bool
  tier : Nat
  castEn : Bool
  headFmt : Nat
  castFmt : Nat
  castCvt : Nat
  castCoarse : Int
  castEvery : Nat
  momCvt : Nat
  mCoarse : Int
  rCoarse : Int
  head : Nat
  headStride : Nat
  tailStride : Nat
  tail : Nat
  mom : Nat
  momStride : Nat
  castStride : Nat
  cast : Nat
  grad : Nat
  /-- LR, WD, BETA1, BETA2, EPS, RATIO_LO, RATIO_HI. -/
  consts : List Num
  lender : Nat
  remote : Nat
  headCoarse : Int
  bytes : List Byte
  deriving DecidableEq, Repr

def fp32At (d : List Byte) (o : Nat) : Num := Fmt.fp32.decode (fieldAt d o 0 32)

def PGroup.parse (d : List Byte) : PGroup :=
  { elems := fieldAt d 0 0 32, versions := fieldAt d 4 0 3, frozen := fieldAt d 4 3 1 == 1, tier := fieldAt d 4 4 1,
    castEn := fieldAt d 4 5 1 == 1, headFmt := fieldAt d 5 0 8, castFmt := fieldAt d 6 0 8, castCvt := fieldAt d 7 0 8,
    castCoarse := signed 16 (fieldAt d 8 0 16), castEvery := fieldAt d 10 0 5, momCvt := fieldAt d 11 0 8,
    mCoarse := signed 16 (fieldAt d 12 0 16), rCoarse := signed 16 (fieldAt d 14 0 16), head := fieldAt d 16 0 64,
    headStride := fieldAt d 24 0 32 * 64, tailStride := fieldAt d 28 0 32 * 64, tail := fieldAt d 32 0 64,
    mom := fieldAt d 40 0 64, momStride := fieldAt d 48 0 32 * 64, castStride := fieldAt d 52 0 32 * 64,
    cast := fieldAt d 56 0 64, grad := fieldAt d 64 0 64,
    consts := [72, 76, 80, 84, 88, 92, 96].map (fp32At d), lender := fieldAt d 100 0 16, remote := fieldAt d 104 0 64,
    headCoarse := signed 16 (fieldAt d 112 0 16), bytes := d }

def PGroup.const (g : PGroup) (i : Nat) : Num := (g.consts[i]?).getD Num.zero

/-- The bytes of a slot of a format: payload, scale plane and escape plane, each from a 64-byte boundary (R216). -/
def slotScale (fmt n : Nat) : Nat := roundUp (payBytes fmt n) 64
def slotEsc (fmt n : Nat) : Nat := slotScale fmt n + roundUp (ceilDiv n 32) 64
def slotBytes (fmt n : Nat) : Nat :=
  if fmtEscaped fmt then slotEsc fmt n + 3 * ceilDiv n 32
  else if fmtBlocked fmt then slotScale fmt n + ceilDiv n 32
  else payBytes fmt n

/-- A slot as a tensor of one row. -/
def slotRef (fmt cvt : Nat) (coarse : Int) (n addr : Nat) : TRef :=
  { fmt := fmt, cvt := cvt, coarse := coarse, rows := 1, cols := n, pay := addr, payPitch := 0, scPitch := 0,
    sc := if fmtBlocked fmt then addr + slotScale fmt n else 0,
    esc := if fmtEscaped fmt then addr + slotEsc fmt n else 0, escPitch := 0, res := true }

/-- Offset of the r payload in a moment buffer, and the bytes of the buffer (R216). -/
def momR (n : Nat) : Nat := roundUp (slotBytes 3 n) 64
def momBytes (n : Nat) : Nat := momR n + slotBytes 3 n

def coarseOk (c : Int) : Bool := -768 ≤ c && c ≤ 768
/-- The codes that B_CAST accepts (R92). -/
def castCode (f : Nat) : Bool := (1 ≤ f && f ≤ 6) || f == FC.fp16
/-- The operand formats of R81. -/
def operandCode (f : Nat) : Bool := (1 ≤ f && f ≤ 6) || (0x0A ≤ f && f ≤ 0x0D)

def finPos (x : Num) : Bool := x.isFin && (x.isZero || !x.isNeg)

/-- The field rules of R215, R216 and R251. -/
def PGroup.ok (g : PGroup) : Bool :=
  let d := g.bytes
  1 ≤ g.elems && g.elems ≤ 2 ^ 31 && fieldAt d 4 6 2 == 0 && fieldAt d 10 5 3 == 0 && fieldAt d 102 0 16 == 0 && zeroAt d 114 128 &&
  g.head % 64 == 0 &&
  (if g.frozen then
    g.versions == 1 && fieldAt d 4 4 2 == 0 && operandCode g.headFmt && zeroAt d 6 16 && zeroAt d 28 112 &&
    (if fmtBlocked g.headFmt then coarseOk g.headCoarse else g.headCoarse == 0)
  else
    1 ≤ g.versions && g.versions ≤ 4 && g.headFmt == FC.bf16 && g.headCoarse == 0 &&
    g.headStride ≥ slotBytes FC.bf16 g.elems &&
    (if g.castEn then
      castCode g.castFmt && cvtOk g.castCvt && (if fmtBlocked g.castFmt then coarseOk g.castCoarse else g.castCoarse == 0) &&
      1 ≤ g.castEvery && g.castEvery ≤ 16 && g.castStride ≥ slotBytes g.castFmt g.elems
     else g.castFmt == 0 && g.castCvt == 0 && g.castCoarse == 0 && g.castEvery == 0 && g.cast == 0) &&
    cvtOk g.momCvt && coarseOk g.mCoarse && coarseOk g.rCoarse &&
    (g.tier == 1 && g.tail == 0 || g.tailStride ≥ 2 * g.elems) && (g.tier == 1 && g.mom == 0 || g.momStride ≥ momBytes g.elems) &&
    g.tail % 64 == 0 && g.mom % 64 == 0 && g.cast % 64 == 0 && g.grad % 64 == 0 &&
    g.consts.all finPos && (g.const 2).lt Num.one && (g.const 3).lt Num.one &&
    (if g.tier = 0 then g.lender == 0 && g.remote == 0 else g.lender < 4096 && g.remote % 65536 == 0))

/-- The entry of group `n` read by the dispatcher (R213, R217); none where the context has no such group. -/
def uGroup (c n : Nat) : U (Option PGroup) := do
  let s ← uState
  let t := s.rd F.ctxPgroup_TABLE_ADDR c
  if t = 0 ∨ n > s.rd F.ctxPgroup_LAST c then return none
  else return some (PGroup.parse (← uRead (t + 128 * n) 128))

/-! ### The slots of a version (R222, R227) -/

def PGroup.headAt (g : PGroup) (n : Nat) : Nat := if g.frozen then g.head else g.head + n % (g.versions + 1) * g.headStride
def PGroup.tailAt (g : PGroup) (n : Nat) : Nat := g.tail + n % 2 * g.tailStride
def PGroup.momAt (g : PGroup) (n : Nat) : Nat := g.mom + n % 2 * g.momStride
def PGroup.castAt (g : PGroup) (n : Nat) : Nat := g.cast + n / g.castEvery % 2 * g.castStride

/-- Bytes `[a, a + n)` lie in the slot `[lo, lo + m)`. -/
def spanIn (lo m : Nat) (p : Nat × Nat) : Bool := decide (lo ≤ p.1 ∧ p.1 + p.2 ≤ lo + m)

/-- The offset that a marked operand is read at (R223, R227): `cast` says that the command casts it on load. -/
def PGroup.offset (g : PGroup) (t : TRef) (rel v : Nat) (cast : Bool) : Except Nat Nat := do
  need (g.ok && !g.frozen && rel < g.versions && rel ≤ v) St.descInvalid
  if t.spans.all (spanIn g.head (slotBytes g.headFmt g.elems)) then .ok ((v - rel) % (g.versions + 1) * g.headStride)
  else
    need (g.castEn && t.spans.all (spanIn g.cast (slotBytes g.castFmt g.elems)) && t.fmt == g.castFmt &&
      t.coarse == g.castCoarse && !cast && rel < g.castEvery) St.descInvalid
    .ok ((v - rel) / g.castEvery % 2 * g.castStride)

/-- The version group of the page of an address, as the dispatcher finds it: a resolvable fault stalls it, a fatal
one belongs to the unit that reads the operand (R100). -/
def uMark (va : Nat) : U Nat := fun a =>
  match a.xlat va .read with
  | (.ok _ e, a) => (Pte.vgroup e, a)
  | (.lost g, a) => (0, a.addLost g)
  | (.fault f, a) => match f.why with
    | .stall _ => (0, a.addFault f)
    | .fatal _ => (0, a)

/-- The offset of an operand that may be a parameter head or cast (R223, R227). -/
def uVersion (c : Nat) (t : TRef) (rel : Nat) (cast : Bool) : U (Except Nat Nat) := do
  let m ← uMark t.pay
  if m = 0 then return (do need (rel == 0) St.descInvalid; .ok 0)
  else match ← uGroup c (m - 1) with
    | none => return .error St.descInvalid
    | some g =>
      let s ← uState
      return g.offset t rel (s.rd F.ctxVersion_CURRENT c) cast

/-- A reference with every plane moved. -/
def TRef.moved (t : TRef) (off : Nat) : TRef :=
  { t with pay := t.pay + off, sc := if t.sc = 0 then 0 else t.sc + off, esc := if t.esc = 0 then 0 else t.esc + off }

end Sys2Proof.Machine
end

