-- ==== Sys2Proof/Machine/Sha3.lean ====
section
/-!
DEFINITION. SHA3-256 (FIPS 202), which the manual names for the hash chain of prefix sharing (R195), for measurements
and identities, and for mirrors.
-/
namespace Sys2Proof.Machine

abbrev Lane64 := BitVec 64

/-- The rotation of each lane, with lane (x, y) at 5y + x. -/
def keccakRot : List Nat :=
  [0, 1, 62, 28, 27, 36, 44, 6, 55, 20, 3, 10, 43, 25, 39, 41, 45, 15, 21, 8, 18, 2, 61, 56, 14]

/-- The round constants. -/
def keccakRc : List Nat :=
  [0x0000000000000001, 0x0000000000008082, 0x800000000000808A, 0x8000000080008000, 0x000000000000808B, 0x0000000080000001,
   0x8000000080008081, 0x8000000000008009, 0x000000000000008A, 0x0000000000000088, 0x0000000080008009, 0x000000008000000A,
   0x000000008000808B, 0x800000000000008B, 0x8000000000008089, 0x8000000000008003, 0x8000000000008002, 0x8000000000000080,
   0x000000000000800A, 0x800000008000000A, 0x8000000080008081, 0x8000000000008080, 0x0000000080000001, 0x8000000080008008]

def laneAt (a : List Lane64) (x y : Nat) : Lane64 := a.getD (5 * (y % 5) + x % 5) 0

/-- The 25 lanes given by place. -/
def lanes (f : Nat → Nat → Lane64) : List Lane64 := (List.range 25).map (fun i => f (i % 5) (i / 5))

/-- One round of Keccak-f[1600]. -/
def keccakRound (a : List Lane64) (rc : Nat) : List Lane64 :=
  let c := (List.range 5).map (fun x => laneAt a x 0 ^^^ laneAt a x 1 ^^^ laneAt a x 2 ^^^ laneAt a x 3 ^^^ laneAt a x 4)
  let d := (List.range 5).map (fun x => c.getD ((x + 4) % 5) 0 ^^^ (c.getD ((x + 1) % 5) 0).rotateLeft 1)
  let t := lanes (fun x y => (laneAt a x y ^^^ d.getD x 0).rotateLeft (keccakRot.getD (5 * y + x) 0))
  -- The lane at (x, y) moves to (y, 2x + 3y); so (x, y) takes the one from (x + 3y, x).
  let b := lanes (fun x y => laneAt t (x + 3 * y) x)
  let e := lanes (fun x y => laneAt b x y ^^^ (~~~(laneAt b (x + 1) y) &&& laneAt b (x + 2) y))
  match e with
  | h :: t => (h ^^^ BitVec.ofNat 64 rc) :: t
  | [] => []

def keccakF (a : List Lane64) : List Lane64 := keccakRc.foldl keccakRound a

/-- A block of 136 bytes taken in. -/
def keccakAbsorb (a : List Lane64) (blk : List Byte) : List Lane64 :=
  keccakF (a.zipIdx.map (fun l => l.1 ^^^ BitVec.ofNat 64 (leNat ((blk.drop (8 * l.2)).take 8))))

/-- The message with its padding, in blocks. -/
def sha3Blocks : Nat → List Byte → List (List Byte)
  | 0, _ => []
  | f + 1, m =>
    if m.length < 136 then
      let n := 136 - m.length
      [if n = 1 then m ++ [0x86] else m ++ [0x06] ++ List.replicate (n - 2) 0 ++ [0x80]]
    else m.take 136 :: sha3Blocks f (m.drop 136)

/-- SHA3-256: 32 bytes. -/
def sha3 (m : List Byte) : List Byte :=
  (((sha3Blocks (m.length + 1) m).foldl keccakAbsorb (List.replicate 25 0)).take 4).flatMap (fun l => natLE 8 l.toNat)

end Sys2Proof.Machine
end

