-- ==== Sys2Proof/Machine/Kv.lean ====
section
/-!
DEFINITION. Key-value pages (R172 to R195): pools, sequence tables, page-table walks with their restarts, appends with
their copy-on-write faults, the raising of lengths, and the failure of single sequences (R201).
-/
namespace Sys2Proof.Machine

/-! ### Small things units do -/

/-- A notice raised by a unit. -/
def uRaise (n : Ntc) : U PUnit := fun a => (⟨⟩, { a with s := a.s.raise n })
def uFree : U Nat := fun a => let (v, s) := a.s.fresh; (v.toNat, { a with s := s })
def uBump (f : Fld) (i : Nat) : U PUnit := fun a => (⟨⟩, { a with s := a.s.count f i 1 })
def uFault (f : Flt) : U PUnit := fun a => (⟨⟩, a.addFault f)
def uOk : U Bool := fun a => (a.fault.isNone, a)
def uSaved : U (List Nat) := fun a => (a.carry, a)

/-! ### The pool (R177, R178) -/

structure Pool where
  fmt : Nat
  cvt : Nat
  kCoarse : Int
  vCoarse : Int
  heads : Nat
  dim : Nat
  tppLog : Nat
  die : Nat
  pages : Nat
  base : Nat
  scale : Nat
  pft : Nat
  free : Nat
  tree : Nat
  token : Nat
  salt : Nat
  treeLog : Nat
  bytes : List Byte
  deriving DecidableEq, Repr

def Pool.parse (d : List Byte) : Pool :=
  { fmt := fieldAt d 0 0 8, cvt := fieldAt d 1 0 8, kCoarse := signed 16 (fieldAt d 2 0 16),
    vCoarse := signed 16 (fieldAt d 4 0 16), heads := fieldAt d 6 0 16, dim := fieldAt d 8 0 16, tppLog := fieldAt d 10 0 8,
    die := fieldAt d 11 0 2, pages := fieldAt d 12 0 32, base := fieldAt d 16 0 64, scale := fieldAt d 24 0 64,
    pft := fieldAt d 32 0 64, free := fieldAt d 40 0 64, tree := fieldAt d 48 0 64, token := fieldAt d 56 0 64,
    salt := fieldAt d 64 0 64, treeLog := fieldAt d 72 0 8, bytes := d }

def Pool.blocked (p : Pool) : Bool := p.fmt == 3 || p.fmt == 4
/-- Bytes of an element, elements and bytes of a token's keys. -/
def Pool.elemBytes (p : Pool) : Nat := if p.blocked then 1 else 2
def Pool.width (p : Pool) : Nat := p.heads * p.dim
def Pool.row (p : Pool) : Nat := p.width * p.elemBytes
def Pool.tpp (p : Pool) : Nat := 2 ^ p.tppLog

/-- The prefix-sharing mode of a context: 0 NONE, 1 REF, 2 TREE (R192, R210). -/
def State.kvMode (s : State) (c : Nat) : Nat := s.item 4 1 c 0

/-- The rules of R177 and R178. -/
def Pool.ok (p : Pool) (mode : Nat) : Bool :=
  let d := p.bytes
  (p.fmt == FC.bf16 || p.fmt == FC.fp16 || p.blocked) && cvtOk p.cvt &&
  (if p.blocked then coarseOk p.kCoarse && coarseOk p.vCoarse else p.kCoarse == 0 && p.vCoarse == 0) &&
  1 ≤ p.heads && p.heads ≤ 256 && 16 ≤ p.dim && p.dim ≤ 512 && p.dim % (if p.blocked then 32 else 16) == 0 &&
  p.row ≤ 32768 && p.tppLog ≤ 16 && p.tpp * 2 * p.row ≤ 65536 && 65536 < p.tpp * 4 * p.row &&
  fieldAt d 11 2 6 == 0 && 1 ≤ p.pages && p.pages ≤ 2 ^ 28 && p.base % 65536 == 0 &&
  (if p.blocked then p.scale % 2048 == 0 else p.scale == 0) &&
  (if mode = 0 then p.pft == 0 && p.free == 0 else p.pft % 8 == 0 && p.free % 8 == 0) &&
  (if mode = 2 then p.tree % 64 == 0 && p.token % 64 == 0 && 10 ≤ p.treeLog && p.treeLog ≤ 30
   else p.tree == 0 && p.token == 0 && p.salt == 0 && p.treeLog == 0) && zeroAt d 73 128

/-- The addresses of a slot's keys or values in a page, and of their fine codes (R179). -/
def Pool.slotAt (p : Pool) (page slot : Nat) (v : Bool) : Nat :=
  p.base + page * 65536 + (if v then p.tpp * p.row else 0) + slot * p.row
def Pool.codeAt (p : Pool) (page slot : Nat) (v : Bool) : Nat :=
  p.scale + page * 2048 + (if v then p.tpp * (p.width / 32) else 0) + slot * (p.width / 32)

/-- A token's keys or values as a tensor of one row. -/
def Pool.slotRef (p : Pool) (cvt page slot : Nat) (v : Bool) : TRef :=
  { fmt := p.fmt, cvt := cvt, coarse := if v then p.vCoarse else p.kCoarse, rows := 1, cols := p.width,
    pay := p.slotAt page slot v, payPitch := 0, scPitch := 0, sc := if p.blocked then p.codeAt page slot v else 0,
    esc := 0, escPitch := 0, res := true }

/-! ### Sequences (R172, R173) -/

structure Seq where
  qLen : Nat
  kvLen : Nat
  pt : Nat
  qRow : Nat
  keyStart : Nat
  bidir : Nat
  kvRow : Nat
  deriving DecidableEq, Repr

def Seq.parse (d : List Byte) (i : Nat) : Seq :=
  let o := 32 * i
  { qLen := fieldAt d o 0 32, kvLen := fieldAt d (o + 4) 0 32, pt := fieldAt d (o + 8) 0 64, qRow := fieldAt d (o + 16) 0 32,
    keyStart := fieldAt d (o + 20) 0 32, bidir := fieldAt d (o + 24) 0 32, kvRow := fieldAt d (o + 28) 0 32 }

def seqTable (d : List Byte) (n : Nat) : List Seq := (List.range n).map (Seq.parse d)

def Seq.ok (q : Seq) : Bool :=
  q.qLen ≤ 2 ^ 24 && q.qLen ≤ q.kvLen && q.kvLen ≤ 2 ^ 31 && q.pt % 64 == 0 && (q.pt != 0 || q.kvLen == 0) &&
  q.keyStart ≤ q.kvLen && q.bidir ≤ q.kvLen

/-- Row ranges, given by start and length, lie in `n` rows and do not overlap. -/
def rangesOk (n : Nat) (rs : List (Nat × Nat)) : Bool :=
  let rs := rs.filter (fun r => r.2 != 0)
  rs.all (fun r => r.1 + r.2 ≤ n) && rs.zipIdx.all (fun a => rs.zipIdx.all (fun b => a.2 == b.2 || !spansMeet a.1 b.1))

/-- The sequence of a token row, with its index and the position of the row in it (R187). -/
def rowSeq (qs : List Seq) (r : Nat) : Option (Nat × Seq × Nat) :=
  (qs.zipIdx.find? (fun q => decide (q.1.qRow ≤ r ∧ r < q.1.qRow + q.1.qLen))).map
    (fun q => (q.2, q.1, q.1.kvLen - q.1.qLen + (r - q.1.qRow)))

/-! ### Page-table entries (R181) -/

abbrev Kpe.page (e : Nat) : Nat := e % 2 ^ 28
abbrev Kpe.tag (e : Nat) : Nat := bitsOf e 28 32
abbrev Kpe.valid (e : Nat) : Bool := e.testBit 60
abbrev Kpe.shared (e : Nat) : Bool := e.testBit 61
def kpe (page tag : Nat) (valid shared : Bool) : Nat := page + tag * 2 ^ 28 + b2n valid * 2 ^ 60 + b2n shared * 2 ^ 61
/-- A TAG is newer than a generation (R181). -/
def tagNewer (tag gen : Nat) : Bool := let d := (tag + 2 ^ 32 - gen) % 2 ^ 32; 1 ≤ d && d < 2 ^ 31
def ptEntry (pt k : Nat) : Nat := pt + 64 + 8 * k

/-! ### Failure of a sequence (R201) -/

/-- The failures that a command keeps: sequence and status. Status 0 marks a sequence whose data was lost: its length is
not raised. -/
def failuresIn (aux : List Nat) : List (Nat × Nat) := (chunks 2 (aux.length + 1) aux).map (fun p => (p.getD 0 0, p.getD 1 0))
def failures (x : Cmd) : List (Nat × Nat) := failuresIn x.aux

/-- Whether a sequence has failed, as the command and the unit at work stand now. -/
def uFailed (k count i : Nat) : U Bool := fun a =>
  ((failuresIn (((a.s.unitCmd k count).map (·.aux)).getD [] ++ a.note)).any (fun f => f.1 == i && f.2 != 0), a)

/-- A sequence fails, with the notice that names it. -/
def uFailSeq (c src ctrl i st code sev a2 a3 : Nat) : U PUnit := do
  uNote [i, st]
  uRaise { code := code, sev := sev, ctx := some c, data := src, ctrl := ctrl, a1 := i, a2 := a2 % 2 ^ 32, a3 := a3 % 2 ^ 32 }

/-- The status of a command by its failed sequences, and their number in COUNTS. -/
def State.failedSeqs (s : State) (k : Nat) (x : Cmd) : State × Nat :=
  let fs := (failures x).filter (fun f => f.2 != 0)
  (s.updCmd k x.count (fun y => { y with counts := (fs.map (·.1)).eraseDups.length }),
   match fs with
   | f :: _ => f.2
   | [] => St.ok)

/-! ### Walks (R183 to R185) -/

/-- How a walk ends. -/
inductive WalkEnd where
  | entries (es : List Nat)
  /-- A stall, with the restarts that the walk has made so far. -/
  | stalled (tries : Nat)
  /-- The sequence has failed. -/
  | failed
  /-- A granule that the walk reads is lost (R296). -/
  | lost
  deriving DecidableEq, Repr

/-- A walk for the entries `need` of a sequence that has restarted `tries` times (R183 to R185). -/
def uWalkOnce (c src : Nat) (p : Pool) (poolAddr i : Nat) (q : Seq) (need : List Nat) (attn : Bool) (tries : Nat) : U WalkEnd := do
  let s ← uState
  let ((h, es), bad) ← uLossy (do
    let h ← uRead q.pt 32
    return (h, ← need.mapM (fun k => if k < fieldAt h 8 0 32 then uNat (ptEntry q.pt k) 8 else pure 0)))
  let gen := fieldAt h 0 0 32
  let mode := fieldAt h 12 0 2
  if !(← uGoes) then return .stalled tries
  else if bad then return .lost
  else if fieldAt h 16 0 64 ≠ poolAddr ∨ (mode ≠ 0 ∧ mode ≠ s.kvMode c) then do
    uFailSeq c src (unitPath src) i St.faultPermission 0x0807 Sev.error mode (s.kvMode c)
    return .failed
  else
    let newer := es.find? (fun e => tagNewer (Kpe.tag e) gen)
    if newer.isSome || (attn && q.kvLen > fieldAt h 4 0 32) then
      if tries < 2 then do
        uBump F.ctxKvCounts_WALK_RESTARTS c
        uFault { why := .stall .kvWalk, va := i, write := false, entry := if tries = 0 then 2000 else 8000 }
        return .stalled (tries + 1)
      else do
        uBump F.ctxKvCounts_UNSTABLE c
        let tag ← match newer with
          | some e => pure (Kpe.tag e)
          | none => uFree
        uFailSeq c src (unitPath src) i St.ptUnstable 0x0801 Sev.warn gen tag
        return .failed
    else match (need.zip es).find? (fun e => !(Kpe.valid e.2 && Kpe.page e.2 < p.pages && e.1 < fieldAt h 8 0 32)) with
      | some e => do
        uFailSeq c src (unitPath src) i St.faultTranslation 0x0802 Sev.error e.1 e.2
        return .failed
      | none => return .entries es

/-- The walk of an item, made once: its page list is kept (R208). -/
def uWalk (c src : Nat) (p : Pool) (poolAddr i : Nat) (q : Seq) (need : List Nat) : U (Option (List Nat)) := do
  let saved ← uSaved
  if saved.getD 1 0 == 1 then return some (saved.drop 2)
  else
    let tries := saved.getD 0 0
    match ← uWalkOnce c src p poolAddr i q need true tries with
    | .entries es => do
      uCarry (tries :: 1 :: es)
      return some es
    | .stalled n => do
      uCarry (if n = 0 then [] else [n, 0])
      return none
    | _ => return none

/-! ### Appends (R186 to R191) -/

/-- A KV write block (R186). -/
structure KvBlock where
  target : Nat
  update : Bool
  pool : Nat
  seq : Nat
  count : Nat
  resOk : Bool
  deriving DecidableEq, Repr

def KvBlock.parse (d : List Byte) : KvBlock :=
  { target := fieldAt d 0 0 2, update := fieldAt d 1 0 1 == 1, pool := fieldAt d 8 0 64, seq := fieldAt d 16 0 64,
    count := fieldAt d 24 0 32,
    resOk := fieldAt d 0 2 6 == 0 && fieldAt d 1 1 7 == 0 && zeroAt d 2 8 && zeroAt d 28 64 }

def KvBlock.ok (b : KvBlock) : Bool :=
  b.resOk && b.target < 3 && b.pool % 64 == 0 && b.seq % 8 == 0 && 1 ≤ b.count && b.count ≤ 65536

/-- The columns of a source row. -/
def KvBlock.cols (b : KvBlock) (p : Pool) : Nat := if b.target = 2 then 2 * p.width else p.width

/-- The pool and the sequence table, read once at dispatch (R173): both as bytes. -/
def uKvTables (pool seq count : Nat) : U (List Byte × List Byte) := do
  let p ← uRead pool 128
  let t ← uRead seq (32 * count)
  return (p, t)

/-- An entry that an append writes through (R191): a shared page fails the sequence, one with more references in REF mode
is copied first. -/
def uWritable (c src : Nat) (p : Pool) (i : Nat) (q : Seq) (k e : Nat) : U (Option WalkEnd) := do
  let s ← uState
  if Kpe.shared e then do
    uFailSeq c src (unitPath src) i St.faultPermission 0x0803 Sev.error k (Kpe.page e)
    return some .failed
  else if s.kvMode c ≠ 1 then return none
  else do
    let (refs, bad) ← uLossy (uNat (p.pft + 4 * Kpe.page e) 4)
    if !(← uGoes) then return some (.stalled 0)
    else if bad then return some .lost
    else if refs > 1 then do
      uFault { why := .stall .kvCow, va := i * 2 ^ 32 + k, write := true, pte := ptEntry q.pt k, entry := e }
      return some (.stalled 0)
    else return none

/-- The walk of an append, its entries fit to be written through. After a copy it is a new walk (R194). -/
def uAppendWalk (c src : Nat) (p : Pool) (poolAddr i : Nat) (q : Seq) (need : List Nat) (tries : Nat) : U WalkEnd := do
  match ← uWalkOnce c src p poolAddr i q need false tries with
  | .entries es => do
    let bad ← (need.zip es).foldlM (fun r e => match r with
      | none => uWritable c src p i q e.1 e.2
      | r => pure r) none
    return bad.getD (.entries es)
  | r => return r

/-- Columns `[j, j + xs)` of a source row written to its slot: keys, values, or both one after the other. -/
def uSlotWrite (p : Pool) (b : KvBlock) (cvt page slot j : Nat) (draw : Nat → Nat) (xs : List Num) : U PUnit := do
  if b.target = 2 then
    let nk := min xs.length (p.width - j)
    if nk ≠ 0 then (p.slotRef cvt page slot false).writeRow draw 0 j (xs.take nk)
    if nk < xs.length then
      (p.slotRef cvt page slot true).writeRow (fun i => draw (nk + i)) 0 (j + nk - p.width) (xs.drop nk)
  else (p.slotRef cvt page slot (b.target == 1)).writeRow draw 0 j xs

/-- Sequences that a unit has lost data of: they are not complete, and their lengths are not raised. -/
def uLostSeqs (is : List Nat) : U PUnit := is.forM (fun i => uNote [i, 0])

/-- The sequences of rows `[r, r + n)`: index, sequence, first row from `r`, rows, first position. -/
def kvRuns (qs : List Seq) (r n : Nat) : List (Nat × Seq × Nat × Nat × Nat) :=
  (List.range n).filterMap (fun j => match rowSeq qs (r + j) with
    | some (i, q, pos) => if j = 0 ∨ q.qRow = r + j then some (i, q, j, min (q.qRow + q.qLen - (r + j)) (n - j), pos) else none
    | none => none)

/-- Two sequences of a command name one position of one page table (R191). -/
def kvAlias (qs : List Seq) : Bool :=
  qs.zipIdx.any (fun a => qs.zipIdx.any (fun b => decide (a.2 < b.2) && a.1.pt == b.1.pt &&
    spansMeet (a.1.kvLen - a.1.qLen, a.1.qLen) (b.1.kvLen - b.1.qLen, b.1.qLen)))

/-- An output tile of a GEMM with KV_OUT once its values are finished (R100, R188): sequences walked, restarts of the walk
under way, lost data met, rows written, the page of each row plus 1 (0: it is not written), and the values. -/
structure KvTile where
  run : Nat := 0
  tries : Nat := 0
  bad : Nat := 0
  row : Nat := 0
  pages : List Nat
  vals : List Nat
  deriving DecidableEq, Repr

def KvTile.save (t : KvTile) : List Nat := [t.run, t.tries, t.bad, t.row] ++ t.pages ++ t.vals
def KvTile.load (n : Nat) (c : List Nat) : KvTile :=
  { run := c.getD 0 0, tries := c.getD 1 0, bad := c.getD 2 0, row := c.getD 3 0, pages := (c.drop 4).take n, vals := c.drop (4 + n) }

/-- The walks of a tile, one for each of its sequences, before anything is written. -/
def uTileWalks (k count src : Nat) (p : Pool) (b : KvBlock) (qs : List Seq) (r n : Nat) : U PUnit :=
  (kvRuns qs r n).zipIdx.forM (fun e => do
    let t := KvTile.load n (← uCarried)
    if (← uGoes) && t.run == e.2 && t.bad == 0 then
      let (i, q, j, m, pos) := e.1
      let next : KvTile := { t with run := t.run + 1, tries := 0 }
      if ← uFailed k count i then uCarry next.save
      else
        let need := ((List.range m).map (fun x => (pos + x) / p.tpp)).eraseDups
        match ← uAppendWalk (k / 64) src p b.pool i q need t.tries with
        | .entries es =>
          let pageOf (x : Nat) : Nat := (((need.zip es).find? (fun e => e.1 == (pos + x) / p.tpp)).map (fun e => Kpe.page e.2 + 1)).getD 0
          uCarry { next with pages := t.pages.zipIdx.map (fun (g : Nat × Nat) => if j ≤ g.2 ∧ g.2 < j + m then pageOf (g.2 - j) else g.1) }.save
        | .stalled tries => uCarry { t with tries := tries }.save
        | .failed => uCarry next.save
        | .lost => do
          uLostSeqs ((kvRuns qs r n).map (·.1))
          uCarry { t with bad := 1 }.save)

/-- The rows of a tile written in turn, each value once: a write that faults is taken up at its granule (R100). Two rows
that name one position are written in ascending order (R191). -/
def uTileRows (k count : Nat) (p : Pool) (b : KvBlock) (qs : List Seq) (cvt r n j cols : Nat) (draw : Nat → Nat → Nat) : U PUnit :=
  (List.range n).forM (fun i => do
    let t := KvTile.load n (← uCarried)
    if (← uGoes) && t.row == i && t.bad == 0 then
      match t.pages.getD i 0, rowSeq qs (r + i) with
      | page + 1, some (q, _, pos) =>
        if !(← uFailed k count q) then
          uSlotWrite p b cvt page (pos % p.tpp) j (draw i) (((t.vals.drop (i * cols)).take cols).map x36Of)
      | _, _ => pure ⟨⟩
      uCarry { t with row := i + 1 }.save
      uFlush)

/-- LENGTH of a sequence's page table raised (R189). -/
def uRaiseLength (q : Seq) (i : Nat) : U PUnit := do
  let (h, bad) ← uLossy (uNat q.pt 8)
  let s ← uState
  let root ← (fun a => (a.root, a) : U Nat)
  match s.translate root q.pt .atomic with
  | .fault { why := .fatal 12, .. } => uNote [i, St.faultPermission]
  | _ => if !bad && decide (bitsOf h 32 32 < q.kvLen) then uWriteK .atomic q.pt (natLE 8 (h % 2 ^ 32 + q.kvLen * 2 ^ 32))

/-- The late units of an append: one per sequence whose writes are complete, numbered from `base`. -/
def lengthUnits (b : KvBlock) (qs : List Seq) (base : Nat) (x : Cmd) : List (Nat × Nat) :=
  if !b.update then []
  else (qs.zipIdx.filter (fun q => q.1.pt != 0 && !(failures x).any (fun f => f.1 == q.2))).map
    (fun q => (base + q.2, x.unit))

/-- The footprint of an append (R209). -/
def KvBlock.foot (b : KvBlock) (p : Pool) (qs : List Seq) (append : Bool) : List (Nat × Nat × Bool) :=
  [footRange b.seq (32 * b.count) false, footRange b.pool 128 false, footRange p.base (p.pages * 65536) append] ++
  (if p.blocked then [footRange p.scale (p.pages * 2048) append] else []) ++
  qs.flatMap (fun q => if q.pt = 0 then [] else
    [footRange q.pt (64 + 8 * ceilDiv q.kvLen p.tpp) false] ++ (if b.update then [footRange q.pt 8 true] else []))

/-! ### KV_APPEND_SCATTER (R190) -/

def appendParts (x : Cmd) : KvBlock × TRef × Pool × List Seq :=
  let b := KvBlock.parse (slice x.desc 64 64)
  (b, TRef.parse x.desc 128, Pool.parse ((x.tables[0]?).getD []), seqTable ((x.tables[1]?).getD []) b.count)

/-- The checks against the tables. -/
def appendTables (s : State) (c : Nat) (b : KvBlock) (rows cols : Nat) (pb tb : List Byte) : Except Nat Unit := do
  let p := Pool.parse pb
  let qs := seqTable tb b.count
  need (p.ok (s.kvMode c) && cols == b.cols p && qs.all Seq.ok && rangesOk rows (qs.map (fun q => (q.qRow, q.qLen)))) St.descInvalid

def appendCheck (d : List Byte) : Except Nat Unit := do
  let t := TRef.parse d 128
  need (fieldAt d 0 0 8 == 3 && zeroAt d 1 64 && (KvBlock.parse (slice d 64 64)).ok) St.descInvalid
  t.check false
  need (notInt t.fmt) St.fmtUnsupported

/-- The units of a source row: the pieces of 4 KiB of the strips of R127, as first column, columns and strip. An X36 piece
is cut at whole bales (log entry 126). -/
def appendCuts (t : TRef) : List (Nat × Nat × Nat) :=
  let g := if fmtBlocked t.fmt then 4096 else if t.fmt = FC.x36 then 896 else 4096 / payBytes t.fmt 1
  (List.range (ceilDiv t.cols 4096)).flatMap (fun s =>
    let m := min 4096 (t.cols - 4096 * s)
    (List.range (ceilDiv m g)).map (fun i => (4096 * s + g * i, min g (m - g * i), s)))

def appendUnits (t : TRef) : Nat := t.rows * (appendCuts t).length

/-- Unit `j`: row, first column, columns. -/
def appendAt (t : TRef) (j : Nat) : Nat × Nat × Nat :=
  let cuts := appendCuts t
  let (c, n, _) := (cuts[j % cuts.length]?).getD (0, 0, 0)
  (j / cuts.length, c, n)

/-- The member that takes unit `j`: that of its strip. -/
def appendMember (x : Cmd) (t : TRef) (j : Nat) : Nat :=
  let cuts := appendCuts t
  let (_, _, s) := (cuts[j % cuts.length]?).getD (0, 0, 0)
  x.member (j / cuts.length * ceilDiv t.cols 4096 + s)

/-- Draws that a tile has taken for the command so far. -/
def uDrawn (k count tile : Nat) : U Nat := fun a => (((a.s.unitCmd k count).map (fun x => lookD x.drawn tile 0)).getD 0, a)

/-- One unit of a source row appended: nothing where the row belongs to no sequence or its sequence has failed. Every page
is translated before any byte is written (R336), and a tile takes its draws in the order of its units. -/
def appendUnit (k : Nat) (x : Cmd) (j : Nat) : U PUnit :=
  let (b, t, p, qs) := appendParts x
  if j ≥ appendUnits t then
    let i := j - appendUnits t
    match qs[i]? with
    | some q => uRaiseLength q i
    | none => pure ⟨⟩
  else
    let (r, c, n) := appendAt t j
    let tile := appendMember x t j
    match rowSeq qs r with
    | none => pure ⟨⟩
    | some (i, q, pos) => do
      if ← uFailed k x.count i then pure ⟨⟩
      else match ← uAppendWalk (k / 64) (Unit.tile tile) p b.pool i q [pos / p.tpp] ((← uCarried).headD 0) with
        | .entries es => do
          uCarry []
          let (_, bad) ← uLossy (uStrict (do
            let (xs, f) ← t.readEls (Cvt.ofByte p.cvt).denorm r c n
            uFlags f
            let base ← uDrawn k x.count tile
            uSlotWrite p b p.cvt (Kpe.page (es.headD 0)) (pos % p.tpp) c (fun i => x.draw tile (base + i))
              (xs.map (if p.blocked then El.num else El.exact))
            uProbeOut))
          if bad then uLostSeqs [i]
        | .stalled n => uCarry (if n = 0 then [] else [n])
        | .failed => pure ⟨⟩
        | .lost => uLostSeqs [i]

def appendEngine : Engine where
  prep := fun s k x => do
    match ← readDesc x 192 64 with
    | .error e => return .error e
    | .ok d =>
      match appendCheck d with
      | .error e => return .error e
      | .ok _ =>
        let b := KvBlock.parse (slice d 64 64)
        let t := TRef.parse d 128
        let (pb, tb) ← uKvTables b.pool b.seq b.count
        return (do appendTables s (k / 64) b t.rows t.cols pb tb; .ok (d, [pb, tb]))
  foot := fun x => let (b, t, p, qs) := appendParts x; t.foot false ++ b.foot p qs true
  tiled := true
  early := fun _ => pure false
  plan := fun k x =>
    let (b, t, _, qs) := appendParts x
    let n := appendUnits t
    { units := (List.range n).map (fun j => (j, Unit.tile (appendMember x t j)))
      run := appendUnit k x
      follows := fun u w => u < n && (appendMember x t u == appendMember x t w || kvAlias qs)
      late := lengthUnits b qs n
      fin := fun x s => s.failedSeqs k x }

/-! ### The owner bar's copy-on-write (R193, R194) -/

/-- How the resolution of a KV copy-on-write fault ends. -/
inductive KvCowEnd where
  | replay
  | exhausted
  deriving DecidableEq, Repr

/-- A 64 KiB page or a 2 KiB scale page copied granule by granule; a lost granule is written poisoned (R194, R297). -/
def uCopyGrans (src dst n : Nat) : U PUnit :=
  (List.range (n / 64)).forM (fun g => do
    match ← uTryAll (src + 64 * g) 64 with
    | some b => uWrite (dst + 64 * g) b
    | none => fun a => match a.xlat (dst + 64 * g) .write with
      | (.ok pa _, a) => (⟨⟩, { a with s := a.s.poisonGran pa })
      | (_, a) => (⟨⟩, a))

/-- The four steps of R194 for the entry at `pte` that held `entry`. The pages that they need are translated before they
start. -/
def uKvCow (c : Nat) (p : Pool) (pt pte entry : Nat) : U KvCowEnd := do
  let page := Kpe.page entry
  let refs ← uNat (p.pft + 4 * page) 4
  if refs ≤ 1 then return .replay
  else
    let top ← uNat p.free 4
    if top = 0 then return .exhausted
    else
      let new ← uNat (p.free + 8 + 4 * (top - 1)) 4
      let old ← uNat (p.pft + 4 * new) 4
      uProbe .write (p.base + 65536 * new) 65536
      if p.blocked then uProbe .write (p.scale + 2048 * new) 2048
      uProbe .write p.free 4
      uProbe .write (p.pft + 4 * new) 4
      uProbe .write (p.pft + 4 * page) 4
      uProbe .write pte 8
      uWrite p.free (natLE 4 (top - 1))
      uCopyGrans (p.base + 65536 * page) (p.base + 65536 * new) 65536
      if p.blocked then uCopyGrans (p.scale + 2048 * page) (p.scale + 2048 * new) 2048
      uWrite (p.pft + 4 * new) (natLE 4 1)
      uWrite (p.pft + 4 * page) (natLE 4 (refs - 1))
      let gen ← uNat pt 4
      if (← uNat pte 8) = entry then do
        uWrite pte (natLE 8 (kpe new gen true false))
        if ← uOk then uBump F.ctxKvCounts_COW c
      else do
        uWrite p.free (natLE 4 top)
        uWrite (p.pft + 4 * new) (natLE 4 old)
        uWrite (p.pft + 4 * page) (natLE 4 refs)
      return .replay

end Sys2Proof.Machine
end

