-- ==== Sys2Proof/Machine/Gemm.lean ====
section
/-!
DEFINITION. The matrix cores (R81 to R103): operand blocks and their products, the accumulation of the three classes,
casts on load, sparsity, the output path, and GEMM and GEMM_GROUPED with the division of their output tiles.
-/
namespace Sys2Proof.Machine

/-! ### Operand classes (R81) -/

inductive GClass where
  | block | half | wide
  deriving DecidableEq, Repr

def gClass (f : Nat) : Option GClass :=
  if fmtBlocked f then some .block
  else if f = FC.bf16 ∨ f = FC.fp16 then some .half
  else if f = FC.fp32 ∨ f = FC.x36 then some .wide
  else none

/-! ### Operand blocks (R46 to R50, R82 to R87) -/

/-- A block as a core holds it: element format, coarse scale and fine code, payload codes, and its escape. -/
structure GBlk where
  f : Fmt
  coarse : Int
  fine : Nat
  codes : List Nat
  esc : Option (Nat × Num)
  deriving DecidableEq, Repr

/-- A block from its bytes, `n` elements of it real. -/
def GBlk.ofBytes (c : Nat) (coarse : Int) (n : Nat) (pay : List Byte) (fine : Nat) (esc : List Byte) : GBlk :=
  let ev := Fmt.bf16.decode (fieldAt esc 1 0 16)
  let ei := fieldAt esc 0 0 5
  { f := fmtOf c, coarse := coarse, fine := fine, codes := (List.range n).map (blockCode (fmtOf c) pay),
    esc := if fmtEscaped c && !ev.isZero && ei < n then some (ei, ev) else none }

/-- A block made by a cast on load. -/
def GBlk.ofBlock (c : Nat) (coarse : Int) (b : Block) : GBlk :=
  { f := fmtOf c, coarse := coarse, fine := b.fine, codes := b.codes,
    esc := b.esc.bind (fun p => let v := Fmt.bf16.decode p.2; if v.isZero then none else some (p.1, v)) }

def GBlk.scale (b : GBlk) : Int := b.coarse + b.fine - 128
/-- Payload element `i`; the slot of the escape counts as zero. -/
def GBlk.pay (b : GBlk) (i : Nat) : Num :=
  if b.esc.any (fun e => e.1 == i) then Num.zero else b.f.decode ((b.codes[i]?).getD 0)
/-- Element `i` as read into X36. -/
def GBlk.el (b : GBlk) (i : Nat) : Num :=
  if b.fine = 0xFE then .inf (bit ((b.codes[i]?).getD 0) (b.f.bits - 1))
  else if b.fine = 0xFF then .nan
  else match b.esc with
    | some (j, v) => if i = j then v else ({ v := b.pay i, s := b.scale } : El).num
    | none => ({ v := b.pay i, s := b.scale } : El).num
/-- Code 0xFE, or an element that is Inf or NaN (R86). -/
def GBlk.special (b : GBlk) : Bool :=
  b.fine == 0xFE || (List.range b.codes.length).any (fun i => !(b.pay i).isFin) || b.esc.any (fun e => !e.2.isFin)

/-- The exact sum of products, with INVALID where a NaN comes of no NaN (R84, R86). -/
def wDot (ps : List (Num × Num)) : W Num := do
  let s := ps.foldl (fun a p => a.add (p.1.mul p.2)) Num.zero
  if s.isNan && ps.all (fun p => !p.1.isNan && !p.2.isNan) then wFlag (s, { invalid := true }) else pure s

/-- The contribution of a block pair to an accumulator (R82, R83, R86, R87); `pairs` are the elements that meet. Of a
sparse operand those are its stored values, so that a special element of the other operand that no stored value names
takes no part; the products of a special pair are summed exactly and rounded once (log entry 113). -/
def wPair (pairs : List (Nat × Nat)) (a b : GBlk) (acc : Num) : W Num := do
  if a.fine = 0 ∨ b.fine = 0 then return acc
  else if a.fine = 0xFF ∨ b.fine = 0xFF then wAdd acc .nan
  else if a.special || b.special then wAdd acc (← wDot (pairs.map (fun p => (a.el p.1, b.el p.2))))
  else
    let p ← wDot (pairs.map (fun p => (a.pay p.1, b.pay p.2)))
    let f ← wRound (unscale p (a.scale + b.scale)) []
    let acc ← wAdd acc f
    let both : Option (Num × Num) := match a.esc, b.esc with
      | some (j, v), some (k, w) => if j = k then some (v, w) else none
      | _, _ => none
    let terms : List (Num × Num) := match both with
      | some t => [t]
      | none =>
        (match a.esc with
         | some (j, v) => (pairs.filter (fun p => p.1 == j)).map (fun p => (v, b.el p.2))
         | none => []) ++
        (match b.esc with
         | some (k, w) => (pairs.filter (fun p => p.2 == k)).map (fun p => (a.el p.1, w))
         | none => [])
    terms.foldlM (fun acc t => do wAdd acc (← wMul t.1 t.2)) acc

/-- One output element of the half class: groups of 32 reduction steps summed exactly (R84). -/
def wHalf (groups : List (List (Num × Num))) : W Num :=
  groups.foldlM (fun acc g => do wAdd acc (← wDot g)) Num.zero

/-- One output element of the wide class: each product rounded and added in turn (R84). -/
def wWide (ps : List (Num × Num)) : W Num :=
  ps.foldlM (fun acc p => do wAdd acc (← wMul p.1 p.2)) Num.zero

/-! ### Operand rows -/

/-- A row of an operand in its class: blocks (absent where nothing is fetched), or elements. -/
structure GRow where
  blocks : List (Option GBlk) := []
  els : List Num := []
  deriving DecidableEq, Repr

/-- The elements that are stored of logical block `b`, and the first of them in the row. -/
def storedIn (half : Bool) (cols b : Nat) : Nat × Nat :=
  if half then (16 * b, min 16 ((cols - 32 * b) / 2)) else (32 * b, min 32 (cols - 32 * b))

/-- The fine codes of a row. -/
def TRef.codes (t : TRef) (r : Nat) : U (List Nat) := do
  return (← uRead (t.sc + r * t.scPitch) (ceilDiv t.cols 32)).map (·.toNat)

/-- Block `b` of a row whose fine code is known. -/
def TRef.fetch (t : TRef) (r b fine : Nat) : U GBlk := do
  let w := if t.half then blockBytes t.fmt / 2 else blockBytes t.fmt
  let pay ← uRead (t.pay + r * t.payPitch + b * w) w
  let esc ← if fmtEscaped t.fmt then uRead (t.esc + r * t.escPitch + 3 * b) 3 else pure []
  return GBlk.ofBytes t.fmt t.coarse (storedIn t.half t.cols b).2 pay fine esc

/-- Stored elements of a row of an unscaled operand. -/
def TRef.stored (t : TRef) : Nat := if t.half then t.cols / 2 else t.cols

/-- A cast on load (R92, R226): target, CVT byte, coarse scale. -/
structure Cast where
  fmt : Nat
  cvt : Nat
  coarse : Int
  deriving DecidableEq, Repr

def Cast.draws (c : Cast) : Bool := c.fmt != 0 && (Cvt.ofByte c.cvt).stoch

/-- A BF16 row cast on load: its blocks, or its FP16 elements, and the flags, vanished elements not counted (R98). -/
def Cast.row (c : Cast) (half : Bool) (cols : Nat) (draw : Nat → Nat) (xs : List Num) : GRow × Fl :=
  let cvt := Cvt.ofByte c.cvt
  let d (i : Nat) := if cvt.stoch then some (draw i) else none
  if fmtBlocked c.fmt then
    let bs := (List.range (ceilDiv cols 32)).map (fun b =>
      let (o, n) := storedIn half cols b
      encodeBlock c.fmt c.coarse cvt (fun i => d (o + i)) ((xs.drop o).take n))
    ({ blocks := bs.map (fun b => some (GBlk.ofBlock c.fmt c.coarse b)) }, bs.foldl (fun a b => a.or b.flags) {})
  else
    let ys := xs.zipIdx.map (fun p => (fmtOf c.fmt).round cvt (d p.2) p.1)
    ({ els := ys.map (·.1) }, ys.foldl (fun a y => a.or y.2) {})

/-- The metadata words of a row of a sparse operand (R90). -/
def metaWords (addr pitch r cols : Nat) : U (List Nat) := do
  let bs ← uRead (addr + r * pitch) (4 * ceilDiv cols 32)
  return (List.range (ceilDiv cols 32)).map (fun b => fieldAt bs (4 * b) 0 32)

/-- The stored values of a group of four positions, by ascending position: (position, stored value) (R84, R90). -/
def groupPairs (w n g : Nat) : List (Nat × Nat) :=
  let at_ (v : Nat) : Nat × Nat := (4 * g + bitsOf w (2 * v) 2, v)
  let a := at_ (2 * g)
  let b := at_ (2 * g + 1)
  if n ≤ 2 * g + 1 then [a] else if b.1 < a.1 then [b, a] else [a, b]

/-- The elements of block `b` that meet, by ascending position in A's block: (position in A's block, position in B's
stored block). -/
def blockPairs (half : Bool) (cols b w : Nat) : List (Nat × Nat) :=
  let n := (storedIn half cols b).2
  if half then (List.range (ceilDiv n 2)).flatMap (groupPairs w n) else (List.range n).map (fun i => (i, i))

/-! ### The descriptor (R92, R101) -/

/-- One group of rows: first row, rows, B reference. -/
structure GGroup where
  base : Nat
  rows : Nat
  idx : Nat
  deriving DecidableEq, Repr

structure Gemm where
  d : List Byte
  grouped : Bool
  acc : Bool
  sparse : Bool
  kv : Bool
  rel : Nat
  cast : Cast
  act : Nat
  bias : Nat
  biasFmt : Nat
  biasAddr : Nat
  metaAddr : Nat
  metaPitch : Nat
  a : TRef
  bs : List TRef
  c : TRef
  out : TRef
  groups : List GGroup
  deriving DecidableEq, Repr

def Gemm.sumEn (g : Gemm) : Bool := fieldAt g.d 10 6 1 == 1
/-- The format in which B is multiplied. -/
def Gemm.bFmt (g : Gemm) (b : TRef) : Nat := if g.cast.fmt = 0 then b.fmt else g.cast.fmt

/-- Groups from the table: rows follow one another (R101). -/
def groupRows (t : List Byte) (n : Nat) : List GGroup :=
  ((List.range n).foldl (fun (a : Nat × List GGroup) g =>
    let r := fieldAt t (8 * g) 0 32
    (a.1 + r, a.2 ++ [{ base := a.1, rows := r, idx := fieldAt t (8 * g + 4) 0 16 }])) (0, [])).2

/-- A descriptor with its tables: the B references, the group table, and the offsets of the versions read. -/
def Gemm.parse (grouped : Bool) (d refs gt offs : List Byte) : Gemm :=
  let sparse := fieldAt d 1 1 1 == 1
  let a := TRef.parse d 64
  { d := d, grouped := grouped, acc := fieldAt d 1 0 1 == 1, sparse := sparse, kv := fieldAt d 1 2 1 == 1,
    rel := fieldAt d 1 3 2, cast := { fmt := fieldAt d 2 0 8, cvt := fieldAt d 3 0 8, coarse := signed 16 (fieldAt d 4 0 16) },
    act := fieldAt d 7 0 8, bias := fieldAt d 8 0 2, biasFmt := fieldAt d 9 0 8, biasAddr := fieldAt d 16 0 64,
    metaAddr := fieldAt d 24 0 64, metaPitch := fieldAt d 32 0 32, a := a,
    bs := (List.range (refs.length / 64)).map (fun i =>
      ({ TRef.parse refs (64 * i) with half := sparse } : TRef).moved (fieldAt offs (8 * i) 0 64)),
    c := TRef.parse d 192, out := TRef.parse d 256,
    groups := if grouped then groupRows gt (gt.length / 8) else [{ base := 0, rows := a.rows, idx := 0 }] }

/-- The header (R92, R96, R101). -/
def Gemm.headOk (g : Gemm) : Bool :=
  let d := g.d
  fieldAt d 0 0 8 == 5 && fieldAt d 1 5 3 == 0 &&
  (if g.cast.fmt = 0 then g.cast.cvt == 0 && g.cast.coarse == 0
   else cvtOk g.cast.cvt && (if fmtBlocked g.cast.fmt then coarseOk g.cast.coarse else g.cast.coarse == 0)) &&
  fieldAt d 6 0 3 ≤ 5 && fieldAt d 6 3 5 == 0 && g.act ≤ 6 && g.bias ≤ 2 && fieldAt d 8 2 6 == 0 &&
  (g.bias != 0 || g.biasFmt == 0) && fieldAt d 10 7 1 == 0 && zeroAt d 11 16 && g.biasAddr % 64 == 0 &&
  (g.sparse || (g.metaAddr == 0 && g.metaPitch == 0)) && g.metaPitch % 8 == 0 && zeroAt d 36 40 &&
  (if g.kv then fieldAt d 40 0 64 % 64 == 0 else fieldAt d 40 0 64 == 0) && zeroAt d 48 64 && (g.acc || zeroAt d 192 256) &&
  (!g.grouped || (fieldAt d 128 0 64 % 64 == 0 && fieldAt d 136 0 64 % 8 == 0 && 1 ≤ fieldAt d 144 0 16 && fieldAt d 144 0 16 ≤ 1024 &&
    1 ≤ fieldAt d 146 0 16 && fieldAt d 146 0 16 ≤ 1024 && zeroAt d 148 192))

/-- The D reference under KV_OUT (R99). -/
def kvOutRef (d : List Byte) (t : TRef) : Except Nat Unit := do
  need (fmtListed t.fmt) St.fmtUnsupported
  need (cvtOk t.cvt && (if fmtBlocked t.fmt then coarseOk t.coarse else t.coarse == 0) && t.rows ≥ 1 && t.cols ≥ 1 &&
    zeroAt d 268 320) St.descInvalid

def biasCode (f : Nat) : Bool := f == FC.bf16 || f == FC.fp32 || f == FC.x36

/-- The formats of the roles (R81, R89, R93). -/
def Gemm.fmtOk (g : Gemm) : Bool :=
  (gClass g.a.fmt).isSome &&
  g.bs.all (fun b => gClass (g.bFmt b) == gClass g.a.fmt &&
    (g.cast.fmt == 0 || (castCode g.cast.fmt && b.fmt == FC.bf16)) && !(g.sparse && fmtEscaped (g.bFmt b))) &&
  (!g.acc || biasCode g.c.fmt) && notInt g.out.fmt && (g.bias == 0 || biasCode g.biasFmt)

/-- The bias vector of a B reference, as a tensor of one row (R92, R101). -/
def Gemm.biasRef (g : Gemm) (idx : Nat) : TRef :=
  let n := if g.bias = 1 then g.out.cols else g.out.rows
  let p := if g.grouped ∧ g.bias = 1 then idx * roundUp (payBytes g.biasFmt n) 64 else 0
  { fmt := g.biasFmt, cvt := 0, coarse := 0, rows := 1, cols := n, pay := g.biasAddr + p, payPitch := 0, scPitch := 0,
    sc := 0, esc := 0, escPitch := 0, res := true }

/-- The bytes of the bias vectors and of the metadata planes. -/
def Gemm.sideSpans (g : Gemm) : List (Nat × Nat) :=
  (if g.bias = 0 then [] else (List.range g.bs.length).flatMap (fun i => (g.biasRef i).spans)) ++
  (if g.sparse then g.bs.map (fun b => (g.metaAddr, (b.rows - 1) * g.metaPitch + 4 * ceilDiv b.cols 32)) else [])

/-- Shapes and overlaps (R94, R102). -/
def Gemm.shapeOk (g : Gemm) : Bool :=
  let k := g.a.cols
  g.bs.all (fun b => b.cols == k && b.rows == g.out.cols && (match g.bs.head? with | some h => b.fmt == h.fmt | none => true)) &&
  g.out.rows == g.a.rows && (!g.acc || (g.c.rows == g.out.rows && g.c.cols == g.out.cols)) &&
  (!g.sparse || k % 4 == 0) && g.groups.all (fun r => r.idx < g.bs.length) &&
  (g.groups.map (·.rows)).sum ≤ g.a.rows &&
  (g.kv || (!g.out.meets g.a && g.bs.all (fun b => !g.out.meets b) && !(g.acc && overlapsOther (some g.out) (some g.c)) &&
    g.sideSpans.all g.out.clear))

/-! ### The output tiles (R95, R103) -/

def Gemm.nt (g : Gemm) : Nat := ceilDiv g.out.cols 64
def Gemm.tiles (g : Gemm) : Nat := (g.groups.map (fun r => ceilDiv r.rows 64 * g.nt)).sum

/-- Output tile `j`: first row, rows, first column, columns, B reference. -/
structure OutTile where
  m : Nat
  rows : Nat
  n : Nat
  cols : Nat
  idx : Nat
  deriving DecidableEq, Repr

def Gemm.locate (g : Gemm) : List GGroup → Nat → OutTile
  | [], _ => { m := 0, rows := 0, n := 0, cols := 0, idx := 0 }
  | r :: t, j =>
    let k := ceilDiv r.rows 64 * g.nt
    if j < k then
      let mt := j / g.nt
      let n := j % g.nt * 64
      { m := r.base + 64 * mt, rows := min 64 (r.rows - 64 * mt), n := n, cols := min 64 (g.out.cols - n), idx := r.idx }
    else g.locate t (j - k)

def Gemm.tile (g : Gemm) (j : Nat) : OutTile := g.locate g.groups j

/-- Draws that output tile `j` takes: those of the cast, then those of D (R95). -/
def Gemm.castDraws (g : Gemm) (o : OutTile) : Nat :=
  if g.cast.draws then o.cols * (match g.bs[o.idx]? with | some b => b.stored | none => 0) else 0
def Gemm.outDraws (g : Gemm) (qs : Option (List Seq)) (o : OutTile) : Nat :=
  if !g.out.draws then 0
  else match qs with
    | some qs => ((List.range o.rows).filter (fun i => (rowSeq qs (o.m + i)).isSome)).length * o.cols
    | none => o.rows * o.cols

/-! ### One output tile (R82 to R100) -/

/-- The rows of both operands of an output tile: fine codes first, so that blocks which all rows of a side have as
zero are skipped and zero blocks are not fetched (R88). -/
def Gemm.operands (g : Gemm) (x : Cmd) (src base : Nat) (b : TRef) (o : OutTile) (dn : Bool) :
    U (List GRow × List GRow × List Bool) := do
  let nb := ceilDiv g.a.cols 32
  let castRows ← if g.cast.fmt = 0 then pure [] else
    (List.range o.cols).mapM (fun i => do
      let xs ← b.get dn (o.n + i) 0 b.stored
      let (row, f) := g.cast.row b.half b.cols (fun p => x.draw (tileOf src) (base + i * b.stored + p)) xs
      uFlags f
      return row)
  if g.cast.draws then uDraws (g.castDraws o)
  if gClass g.a.fmt = some .block then do
    let ca ← (List.range o.rows).mapM (fun i => g.a.codes (o.m + i))
    let cb ← if g.cast.fmt = 0 then (List.range o.cols).mapM (fun i => b.codes (o.n + i))
             else pure (castRows.map (fun r => r.blocks.map (fun k => match k with | some k => k.fine | none => 0)))
    let live := (List.range nb).map (fun q => ca.any (fun c => c.getD q 0 != 0) && cb.any (fun c => c.getD q 0 != 0))
    let rows (t : TRef) (first : Nat) (cs : List (List Nat)) : U (List GRow) :=
      cs.zipIdx.mapM (fun c => do
        let bl ← (c.1.zip live).zipIdx.mapM (fun e =>
          if e.1.2 && e.1.1 != 0 then do return some (← t.fetch (first + c.2) e.2 e.1.1) else pure none)
        return { blocks := bl })
    let ra ← rows g.a o.m ca
    let rb ← if g.cast.fmt = 0 then rows b o.n cb
             else pure (castRows.map (fun r => { r with blocks := (r.blocks.zip live).map (fun p => if p.2 then p.1 else none) }))
    return (ra, rb, live)
  else do
    let ra ← (List.range o.rows).mapM (fun i => do return ({ els := ← g.a.get dn (o.m + i) 0 g.a.cols } : GRow))
    let rb ← if g.cast.fmt = 0 then (List.range o.cols).mapM (fun i => do return ({ els := ← b.get dn (o.n + i) 0 b.stored } : GRow))
             else pure castRows
    return (ra, rb, [])

/-- The products of an unscaled pair of rows, in groups of 32 reduction steps. -/
def unscaledGroups (half : Bool) (cols : Nat) (words : List Nat) (a b : List Num) : List (List (Num × Num)) :=
  (List.range (ceilDiv cols 32)).map (fun q =>
    let o := (storedIn half cols q).1
    let as := (a.drop (32 * q)).take 32
    let bs := (b.drop o).take 32
    (blockPairs half cols q (words.getD q 0)).map (fun p => (as.getD p.1 Num.zero, bs.getD p.2 Num.zero)))

/-- One output element before the output path. -/
def Gemm.element (g : Gemm) (words : List Nat) (a b : GRow) : W Num :=
  let k := g.a.cols
  match gClass g.a.fmt with
  | some .block =>
    ((a.blocks.zip b.blocks).zipIdx).foldlM (fun acc e => match e.1 with
      | (some x, some y) => wPair (blockPairs g.sparse k e.2 (words.getD e.2 0)) x y acc
      | _ => pure acc) Num.zero
  | some .half => wHalf (unscaledGroups g.sparse k words a.els b.els)
  | _ => wWide (unscaledGroups g.sparse k words a.els b.els).flatten

/-- The activations of R96 by code. -/
def actOp (act : Nat) (x : Num) : W Num :=
  match act with
  | 1 => wOp 0x0D x x x
  | 2 => wOp 0x29 x x x
  | 3 => wOp 0x2A x x x
  | 4 => wOp 0x2B x x x
  | 5 => wOp 0x28 x x x
  | 6 => wOp 0x27 x x x
  | _ => pure x

/-- The output path on one element (R96): the value captured at step 4. -/
def outPath (acc : Option Num) (bias : Option Num) (act : Nat) (x : Num) : W Num := do
  let x ← match acc with | some c => wAdd x c | none => pure x
  let x ← match bias with | some b => wAdd x b | none => pure x
  actOp act x

/-- The key-value tables of a GEMM with KV_OUT. -/
def Gemm.kvParts (x : Cmd) : KvBlock × Pool × List Seq :=
  let b := KvBlock.parse ((x.tables[3]?).getD [])
  (b, Pool.parse ((x.tables[4]?).getD []), seqTable ((x.tables[5]?).getD []) b.count)

/-- Draws that a tile takes before output tile `j` (R95). -/
def Gemm.base (g : Gemm) (x : Cmd) (qs : List Seq) (j : Nat) : Nat :=
  ((x.before j).map (fun i => let t := g.tile i; g.castDraws t + g.outDraws (if g.kv then some qs else none) t)).sum

/-- The values of output tile `j`, through its reduction and the output path up to the conversion (R96, R100). -/
def Gemm.values (g : Gemm) (x : Cmd) (b : TRef) (j base : Nat) : U (List (List Num)) := do
  let o := g.tile j
  let dn := (Cvt.ofByte g.out.cvt).denorm
  let (ra, rb, _) ← g.operands x (Unit.tile (x.member j)) base b o dn
  let words ← if g.sparse then (List.range o.cols).mapM (fun i => metaWords g.metaAddr g.metaPitch (o.n + i) b.cols)
              else pure []
  let cs ← if g.acc then (List.range o.rows).mapM (fun i => g.c.get dn (o.m + i) o.n o.cols) else pure []
  let bias ← if g.bias = 0 then pure []
             else if g.bias = 1 then (g.biasRef o.idx).get dn 0 o.n o.cols else (g.biasRef o.idx).get dn 0 o.m o.rows
  let out ← ra.zipIdx.mapM (fun a => rb.zipIdx.mapM (fun c => uLane (do
    let v ← g.element (words.getD c.2 []) a.1 c.1
    outPath (if g.acc then some ((cs.getD a.2 []).getD c.2 Num.zero) else none)
      (if g.bias = 0 then none else some (bias.getD (if g.bias = 1 then c.2 else a.2) Num.zero)) g.act v)))
  uVals g.sumEn out.flatten
  return out

/-- Output tile `j` taken through its reduction, its epilogue and its write (R100). With KV_OUT the finished values are
held while the page tables are walked and the slots are written. -/
def Gemm.unit (g : Gemm) (k : Nat) (x : Cmd) (j : Nat) : U PUnit := do
  let o := g.tile j
  let (kb, pool, qs) := Gemm.kvParts x
  match g.bs[o.idx]? with
  | none => pure ⟨⟩
  | some b =>
    let base := g.base x qs j
    let first := base + g.castDraws o
    if !g.kv then uStrict (do
      let out ← g.values x b j base
      out.zipIdx.forM (fun r =>
        g.out.writeRow (fun i => x.draw (x.member j) (first + r.2 * o.cols + i)) (o.m + r.2) o.n r.1))
    else do
      if (← uCarried) = [] then do
        let (out, bad) ← uLossy (uStrict (g.values x b j base))
        if ← uGoes then
          if bad then uLostSeqs ((kvRuns qs o.m o.rows).map (·.1))
          else uCarry ({ pages := List.replicate o.rows 0, vals := out.flatten.map x36Code } : KvTile).save
      if (← uCarried) ≠ [] then
        let before (r : Nat) : Nat := ((List.range r).filter (fun i => (rowSeq qs (o.m + i)).isSome)).length
        uTileWalks k x.count (Unit.tile (x.member j)) pool kb qs o.m o.rows
        uTileRows k x.count pool kb qs g.out.cvt o.m o.rows o.n o.cols
          (fun r i => x.draw (x.member j) (first + before r * o.cols + i))

/-! ### The engine -/

/-- The command with its tables. -/
def Gemm.ofCmd (grouped : Bool) (x : Cmd) : Gemm :=
  Gemm.parse grouped x.desc ((x.tables[0]?).getD []) ((x.tables[1]?).getD []) ((x.tables[2]?).getD [])

/-- The key-value checks of a GEMM with KV_OUT (R173, R187, R188). -/
def Gemm.kvCheck (g : Gemm) (s : State) (c : Nat) (kb pb tb : List Byte) : Except Nat Unit := do
  let b := KvBlock.parse kb
  let p := Pool.parse pb
  need (g.out.fmt == p.fmt) St.fmtUnsupported
  need ((b.target == 1 || g.out.coarse == p.kCoarse) && (b.target == 0 || g.out.coarse == p.vCoarse)) St.descInvalid
  appendTables s c b g.out.rows g.out.cols pb tb

/-- The checks in the order of R618. -/
def Gemm.check (g : Gemm) : Except Nat Unit := do
  g.a.check false
  g.bs.forM (fun b => b.check false)
  if g.acc then g.c.check false
  if g.kv then kvOutRef g.d g.out else g.out.check true
  need g.fmtOk St.fmtUnsupported
  need g.shapeOk St.descInvalid

/-- The dispatcher's reading of a GEMM: references, group table, versions, key-value tables (R102, R173, R223). -/
def gemmPrep (grouped : Bool) (s : State) (k : Nat) (x : Cmd) : U Prep := do
  match ← readDesc x 320 64 with
  | .error e => return .error e
  | .ok d =>
    let raw := Gemm.parse grouped d (slice d 128 64) [] []
    if !raw.headOk then return .error St.descInvalid
    else
      let refs ← if grouped then uRead (fieldAt d 128 0 64) (64 * fieldAt d 146 0 16) else pure (slice d 128 64)
      let gt ← if grouped then uRead (fieldAt d 136 0 64) (8 * fieldAt d 144 0 16) else pure []
      let g := Gemm.parse grouped d refs gt []
      if grouped && (List.range (gt.length / 8)).any (fun i => fieldAt gt (8 * i + 6) 0 16 != 0) then return .error St.descInvalid
      else match g.check with
      | .error e => return .error e
      | .ok _ =>
        let offs ← g.bs.mapM (fun b => uVersion (k / 64) b g.rel (g.cast.fmt != 0))
        match offs.mapM (fun o => o) with
        | .error e => return .error e
        | .ok os =>
          let ob := os.flatMap (natLE 8)
          let h := Gemm.parse grouped d refs gt ob
          if !h.shapeOk then return .error St.descInvalid
          else if !g.kv then return .ok (d, [refs, gt, ob])
          else
            let kb ← uRead (fieldAt d 40 0 64) 64
            let b := KvBlock.parse kb
            if !b.ok then return .error St.descInvalid
            else
              let (pb, tb) ← uKvTables b.pool b.seq b.count
              return (do g.kvCheck s (k / 64) kb pb tb; .ok (d, [refs, gt, ob, kb, pb, tb]))

/-- The footprint: of the B tensors of GEMM_GROUPED those that its group table names (R256). -/
def Gemm.foot (g : Gemm) (x : Cmd) : List (Nat × Nat × Bool) :=
  let named := g.bs.zipIdx.filter (fun b => !g.grouped || g.groups.any (fun r => r.idx == b.2))
  g.a.foot false ++ named.flatMap (fun b => b.1.foot false) ++ (if g.acc then g.c.foot false else []) ++
  g.sideSpans.map (fun p => footRange p.1 p.2 false) ++
  (if g.grouped then [footRange (fieldAt g.d 128 0 64) (64 * fieldAt g.d 146 0 16) false,
                      footRange (fieldAt g.d 136 0 64) (8 * fieldAt g.d 144 0 16) false] else []) ++
  (if g.kv then let (b, p, qs) := Gemm.kvParts x; footRange (fieldAt g.d 40 0 64) 64 false :: b.foot p qs true
   else g.out.foot true)

/-- The engine of GEMM and GEMM_GROUPED. -/
def gemmEngine (grouped : Bool) : Engine where
  prep := gemmPrep grouped
  foot := fun x => (Gemm.ofCmd grouped x).foot x
  rows := fun x => let r := fieldAt x.desc 6 0 3; if r = 0 then 5 else r
  tiled := true
  early := fun x => if grouped then pure false else do return !(fieldAt (← uRead x.descAddr 8) 1 2 1 == 1)
  plan := fun k x =>
    let g := Gemm.ofCmd grouped x
    let (b, _, qs) := Gemm.kvParts x
    { units := tileUnits x.tiles g.tiles
      run := fun j => if j < g.tiles then g.unit k x j else match qs[j - g.tiles]? with
        | some q => uRaiseLength q (j - g.tiles)
        | none => pure ⟨⟩
      follows := fun u _ => g.kv && u < g.tiles && kvAlias qs
      late := fun y => if g.kv then lengthUnits b qs g.tiles y else []
      share := shareSummary g.sumEn k (fieldAt g.d 10 0 6) 0 id g.tiles
      fin := fun y s => if g.kv then s.failedSeqs k y else (s, St.ok) }

end Sys2Proof.Machine
end

