-- ==== Sys2Proof/Machine/Conv.lean ====
section
/-!
DEFINITION. Window operators (R148 to R171): image layouts, geometry and taps, CONV in its three modes and its
depthwise form, and POOL.
-/
namespace Sys2Proof.Machine

/-! ### Geometry (R149, R152, R154, R158) -/

/-- One spatial dimension: input size, filter, stride, dilation, padding before and after. -/
structure CDim where
  n : Nat
  k : Nat
  s : Nat
  dl : Nat
  lo : Nat
  hi : Nat
  deriving DecidableEq, Repr

/-- The output size of R152; 0 where it is not positive. -/
def CDim.out (d : CDim) : Nat :=
  (((d.n + d.lo + d.hi : Int) - d.dl * (d.k - 1 : Nat) - 1) / (d.s : Int) + 1).toNat

/-- The input coordinate that tap `k` of output `o` reads; none for a padding tap (R154). -/
def CDim.fwd (d : CDim) (o k : Nat) : Option Nat :=
  let i := o * d.s + k * d.dl
  if d.lo ≤ i ∧ i - d.lo < d.n then some (i - d.lo) else none

/-- The output that meets input `i` at tap `k` (R158). -/
def CDim.bwd (d : CDim) (i k : Nat) : Option Nat :=
  let v := i + d.lo
  if k * d.dl ≤ v ∧ (v - k * d.dl) % d.s = 0 ∧ (v - k * d.dl) / d.s < d.out then some ((v - k * d.dl) / d.s) else none

/-- The rules for a dimension: unused ones are 1 and have no padding (R157). -/
def CDim.ok (d : CDim) (used : Bool) : Bool :=
  1 ≤ d.n && 1 ≤ d.k && 1 ≤ d.s && 1 ≤ d.dl &&
  (used || (d.n == 1 && d.k == 1 && d.s == 1 && d.dl == 1 && d.lo == 0 && d.hi == 0))

/-- The geometry of a window command. -/
structure Win where
  dims : Nat
  batch : Nat
  d : CDim
  h : CDim
  w : CDim
  deriving DecidableEq, Repr

def Win.parse (x : List Byte) (dims : Nat) : Win :=
  let dim (i : Nat) : CDim :=
    { n := fieldAt x (20 + 4 * i) 0 32, k := fieldAt x (32 + 2 * i) 0 16, s := fieldAt x (40 + 2 * i) 0 16,
      dl := fieldAt x (48 + 2 * i) 0 16, lo := fieldAt x (56 + 2 * i) 0 16, hi := fieldAt x (64 + 2 * i) 0 16 }
  { dims := dims, batch := fieldAt x 16 0 32, d := dim 0, h := dim 1, w := dim 2 }

def Win.taps (g : Win) : Nat := g.d.k * g.h.k * g.w.k
def Win.inSize (g : Win) : Nat × Nat × Nat := (g.d.n, g.h.n, g.w.n)
def Win.outSize (g : Win) : Nat × Nat × Nat := (g.d.out, g.h.out, g.w.out)
def pixels (b : Nat) (s : Nat × Nat × Nat) : Nat := b * s.1 * s.2.1 * s.2.2
def Win.empty (g : Win) : Bool := g.d.out == 0 || g.h.out == 0 || g.w.out == 0

def Win.ok (g : Win) (x : List Byte) : Bool :=
  1 ≤ g.dims && 1 ≤ g.batch && g.d.ok (g.dims == 3) && g.h.ok (2 ≤ g.dims) && g.w.ok true && g.taps ≤ 65536 &&
  zeroAt x 38 40 && zeroAt x 46 48 && zeroAt x 54 56 && zeroAt x 62 64 && zeroAt x 70 72

/-- Batch, depth, height and width of a pixel by its number (R149). -/
def coords (s : Nat × Nat × Nat) (i : Nat) : Nat × Nat × Nat × Nat :=
  (i / (s.1 * s.2.1 * s.2.2), i / (s.2.1 * s.2.2) % s.1, i / s.2.2 % s.2.1, i % s.2.2)
def pixelOf (s : Nat × Nat × Nat) (b d h w : Nat) : Nat := ((b * s.1 + d) * s.2.1 + h) * s.2.2 + w

/-- The pixel that tap `t` of pixel `i` meets: of the input for an output pixel, of the output for an input pixel. -/
def Win.tap (g : Win) (bwd : Bool) (i t : Nat) : Option Nat :=
  let (f, g2) := if bwd then (g.inSize, g.outSize) else (g.outSize, g.inSize)
  let (b, d, h, w) := coords f i
  let go (x : CDim) (p k : Nat) := if bwd then x.bwd p k else x.fwd p k
  match go g.d d (t / (g.h.k * g.w.k)), go g.h h (t / g.w.k % g.h.k), go g.w w (t % g.w.k) with
  | some d, some h, some w => some (pixelOf g2 b d h w)
  | _, _, _ => none

/-! ### Image layouts (R149, R166) -/

/-- How an image stands in its tensor: channels of a tensor row, and the regrouping factors of height and width. -/
structure Lay where
  t : TRef
  rh : Nat
  rw : Nat
  h : Nat
  w : Nat
  deriving DecidableEq, Repr

/-- A regrouping by `r` of an image of the given (regrouped) size; only the width of a 1-D signal is regrouped. -/
def layOf (t : TRef) (dims r : Nat) (s : Nat × Nat × Nat) : Lay :=
  { t := t, rh := if dims = 1 then 1 else max 1 r, rw := max 1 r, h := s.2.1, w := s.2.2 }

/-- Channels of an image whose tensor has `c` columns. -/
def regrouped (dims r c : Nat) : Nat := c * max 1 r * (if dims = 1 then 1 else max 1 r)
/-- Rows of the tensor of an image. -/
def layRows (dims r b : Nat) (s : Nat × Nat × Nat) : Nat :=
  pixels b s * max 1 r * (if dims = 1 then 1 else max 1 r)

/-- The tensor row of channel group `q` of pixel `i`. -/
def Lay.row (l : Lay) (i q : Nat) : Nat :=
  ((i / (l.h * l.w) * (l.h * l.rh)) + i / l.w % l.h * l.rh + q / l.rw) * (l.w * l.rw) + i % l.w * l.rw + q % l.rw

/-- Channels `[ch, ch + n)` of a pixel as runs (tensor row, column, length). -/
def Lay.runs (l : Lay) (i : Nat) : Nat → Nat → Nat → List (Nat × Nat × Nat)
  | 0, _, _ => []
  | f + 1, ch, n =>
    if n = 0 then []
    else
      let m := min n (l.t.cols - ch % l.t.cols)
      (l.row i (ch / l.t.cols), ch % l.t.cols, m) :: l.runs i f (ch + m) (n - m)

/-- Channels of a pixel of an unscaled image. -/
def Lay.get (l : Lay) (dn : Bool) (i ch n : Nat) : U (List Num) := do
  return (← (l.runs i (n + 1) ch n).mapM (fun r => l.t.get dn r.1 r.2.1 r.2.2)).flatten

/-- Channels of a pixel as stored elements. -/
def Lay.els (l : Lay) (dn : Bool) (i ch n : Nat) : U (List El) := do
  return (← (l.runs i (n + 1) ch n).mapM (fun r => do
    let (es, f) ← l.t.readEls dn r.1 r.2.1 r.2.2
    uFlags f
    return es)).flatten

/-! ### The CONV descriptor (R157 to R160) -/

structure Conv where
  b : List Byte
  mode : Nat
  acc : Bool
  argmax : Bool
  sparse : Bool
  cast : Cast
  act : Nat
  bias : Bool
  biasFmt : Nat
  rin : Nat
  rout : Nat
  rel : Nat
  groups : Nat
  g : Win
  pad : Num
  biasAddr : Nat
  metaAddr : Nat
  metaPitch : Nat
  x : TRef
  wt : TRef
  y : Option TRef
  arg : Option TRef
  deriving DecidableEq, Repr

def Conv.sumEn (c : Conv) : Bool := fieldAt c.b 10 6 1 == 1

/-- A descriptor with the offset of the version of W that it reads. -/
def Conv.parse (d : List Byte) (off : Nat) : Conv :=
  let rin := fieldAt d 11 0 4
  let dims := fieldAt d 1 2 2
  let g := Win.parse d dims
  let sparse := fieldAt d 1 6 1 == 1
  { b := d, mode := fieldAt d 1 0 2, acc := fieldAt d 1 4 1 == 1, argmax := fieldAt d 1 5 1 == 1, sparse := sparse,
    cast := { fmt := fieldAt d 2 0 8, cvt := fieldAt d 3 0 8, coarse := signed 16 (fieldAt d 4 0 16) },
    act := fieldAt d 7 0 8, bias := fieldAt d 8 0 1 == 1, biasFmt := fieldAt d 9 0 8, rin := rin, rout := fieldAt d 12 0 4,
    rel := fieldAt d 13 0 2, groups := fieldAt d 14 0 16,
    g := { g with h := if dims = 1 then g.h else { g.h with n := g.h.n / max 1 rin }, w := { g.w with n := g.w.n / max 1 rin } },
    pad := x36Field d 72, biasAddr := fieldAt d 80 0 64, metaAddr := fieldAt d 88 0 64, metaPitch := fieldAt d 96 0 32,
    x := TRef.parse d 128, wt := ({ TRef.parse d 192 with half := sparse } : TRef).moved off, y := optRef d 256, arg := optRef d 320 }

/-- Channels of the forward input and output, after regrouping. -/
def Conv.cIn (c : Conv) : Nat :=
  if c.mode = 1 then regrouped c.g.dims c.rin ((c.y.map (·.cols)).getD 0) else regrouped c.g.dims c.rin c.x.cols
def Conv.depth (c : Conv) : Bool :=
  c.groups == c.cIn &&
  (if c.mode = 0 then c.wt.rows == c.g.taps && c.wt.cols == c.cIn
   else regrouped c.g.dims c.rout (if c.mode = 1 then c.x.cols else c.wt.cols) == c.cIn)
def Conv.cOut (c : Conv) : Nat :=
  if c.mode = 0 then (if c.depth then c.cIn else c.wt.rows)
  else regrouped c.g.dims c.rout (if c.mode = 1 then c.x.cols else c.wt.cols)
/-- Channels of a group that are reduced over, and of a tap segment of the weights. -/
def Conv.red (c : Conv) : Nat := (if c.mode = 1 then c.cOut else c.cIn) / c.groups
def Conv.seg (c : Conv) : Nat := roundUp c.red 32

/-- The layouts of the images in their roles: X, W in BWD_WEIGHT, Y. -/
def Conv.layX (c : Conv) : Lay :=
  if c.mode = 1 then layOf c.x c.g.dims c.rout c.g.outSize else layOf c.x c.g.dims c.rin c.g.inSize
def Conv.layW (c : Conv) : Lay := layOf c.wt c.g.dims c.rout c.g.outSize
def Conv.layY (c : Conv) (y : TRef) : Lay :=
  if c.mode = 0 then layOf y c.g.dims c.rout c.g.outSize else layOf y c.g.dims c.rin c.g.inSize

/-- The rules of a regrouping factor (R160, R166). -/
def regroupOk (r : Nat) : Bool := r == 0 || (2 ≤ r && r ≤ 8)

/-- The header (R157, R160). -/
def Conv.headOk (c : Conv) : Bool :=
  let d := c.b
  let raw := Win.parse d c.g.dims
  fieldAt d 0 0 8 == 6 && c.mode < 3 && fieldAt d 1 7 1 == 0 &&
  (if c.cast.fmt = 0 then c.cast.cvt == 0 && c.cast.coarse == 0
   else cvtOk c.cast.cvt && (if fmtBlocked c.cast.fmt then coarseOk c.cast.coarse else c.cast.coarse == 0)) &&
  fieldAt d 6 0 3 ≤ 5 && fieldAt d 6 3 5 == 0 && c.act ≤ 6 && fieldAt d 8 1 7 == 0 && (c.bias || c.biasFmt == 0) &&
  fieldAt d 10 7 1 == 0 && fieldAt d 11 4 4 == 0 && fieldAt d 12 4 4 == 0 && fieldAt d 13 2 6 == 0 && 1 ≤ c.groups &&
  raw.ok d && regroupOk c.rin && regroupOk c.rout && raw.w.n % max 1 c.rin == 0 &&
  (c.g.dims == 1 || raw.h.n % max 1 c.rin == 0) && (c.rout == 0 || !c.argmax) && x36FieldOk d 72 && c.biasAddr % 64 == 0 &&
  (c.sparse || (c.metaAddr == 0 && c.metaPitch == 0)) && c.metaPitch % 8 == 0 && zeroAt d 100 128 &&
  (c.mode == 0 || (!c.sparse && c.act == 0 && !c.bias && !c.argmax)) &&
  c.argmax == c.arg.isSome && (c.argmax || c.y.isSome)

/-- The format in which W is multiplied. -/
def Conv.wFmt (c : Conv) : Nat := if c.cast.fmt = 0 then c.wt.fmt else c.cast.fmt

/-- The formats of the roles (R159), and the input blocks that groups must not split (R151). In BWD_WEIGHT each operand is
unscaled, and the two need not be of one class. -/
def Conv.fmtOk (c : Conv) : Bool :=
  let cls := gClass c.x.fmt
  let wcl := gClass c.wFmt
  cls.isSome && wcl.isSome && (if c.mode = 2 then cls != some .block && wcl != some .block else wcl == cls) && (c.cast.fmt == 0 || (castCode c.cast.fmt && c.wt.fmt == FC.bf16)) &&
  !(c.sparse && fmtEscaped c.wFmt) &&
  (match c.y with
   | some y => if c.acc || c.mode == 2 then biasCode y.fmt else notInt y.fmt
   | none => true) &&
  (match c.arg with
   | some a => a.fmt == FC.int32
   | none => true) &&
  (!c.bias || biasCode c.biasFmt) &&
  (c.groups == 1 || c.depth || !fmtBlocked c.x.fmt || c.cIn / c.groups % 32 == 0)

def Conv.biasRef (c : Conv) : TRef :=
  { fmt := c.biasFmt, cvt := 0, coarse := 0, rows := 1, cols := c.cOut, pay := c.biasAddr, payPitch := 0, scPitch := 0, sc := 0,
    esc := 0, escPitch := 0, res := true }

def Conv.sideSpans (c : Conv) : List (Nat × Nat) :=
  (if c.bias then c.biasRef.spans else []) ++
  (if c.sparse then [(c.metaAddr, (c.wt.rows - 1) * c.metaPitch + 4 * ceilDiv c.wt.cols 32)] else [])

/-- A block-scaled tensor that is regrouped has rows of whole blocks (R166). -/
def regroupBlocks (r : Nat) (t : TRef) : Bool := r == 0 || !fmtBlocked t.fmt || t.cols % 32 == 0

/-- The shapes that do not depend on the output size (R153, R158, R160). -/
def Conv.shapeOk (c : Conv) : Bool :=
  let raw := pixels c.g.batch (Win.parse c.b c.g.dims).inSize
  let y := c.y.getD c.x
  c.cIn % c.groups == 0 && c.cOut % c.groups == 0 && (c.depth || !(c.groups == c.cIn && c.groups == c.cOut)) &&
  (c.mode == 1 || c.x.rows == raw) && (!c.depth || !c.sparse) &&
  (match c.mode with
   | 0 => (c.depth || c.wt.cols == c.g.taps * c.seg) && c.cOut % regrouped c.g.dims c.rout 1 == 0
   | 1 => (if c.depth then c.wt.rows == c.g.taps && c.wt.cols == c.cIn else c.wt.rows == c.cIn && c.wt.cols == c.g.taps * c.seg) &&
          y.rows == raw
   | _ => if c.depth then y.rows == c.g.taps && y.cols == c.cIn else y.rows == c.cOut && y.cols == c.g.taps * c.seg) &&
  (if c.mode = 1 then regroupBlocks c.rout c.x && regroupBlocks c.rin y
   else regroupBlocks c.rin c.x &&
     (c.mode != 0 || c.y.isNone || c.rout == 0 || !fmtBlocked y.fmt || c.cOut / regrouped c.g.dims c.rout 1 % 32 == 0)) &&
  !optMeets c.y (some c.x) && !optMeets c.y (some c.wt) && !optMeets c.y c.arg &&
  (match c.y with
   | some y => c.sideSpans.all y.clear
   | none => true)

/-- The shapes against a nonempty output (R153). -/
def Conv.outOk (c : Conv) : Bool :=
  let rows := layRows c.g.dims c.rout c.g.batch c.g.outSize
  match c.mode with
  | 0 => (match c.y with
          | some y => y.rows == rows && regrouped c.g.dims c.rout y.cols == c.cOut
          | none => true) &&
         (match c.arg with
          | some a => a.rows == rows && a.cols == 1
          | none => true)
  | 1 => c.x.rows == rows
  | _ => c.wt.rows == rows

/-! ### Output tiles (R163, R165) -/

/-- Columns of a group, groups along the columns, and rows of an output tile. -/
def Conv.colsG (c : Conv) : Nat :=
  if c.depth then c.cIn else match c.mode with
  | 0 => c.cOut / c.groups
  | 1 => c.cIn / c.groups
  | _ => c.g.taps * c.seg
def Conv.gs (c : Conv) : Nat := if c.depth then 1 else c.groups
def Conv.tileRows (c : Conv) : Nat := if c.depth then 1 else 64
def Conv.n1 (c : Conv) : Nat := ceilDiv c.colsG 64
def Conv.nt (c : Conv) : Nat := c.gs * c.n1

/-- The stride phases of a backward input pass; one phase otherwise. R163 does not number the phases: they go by the
residue of depth, then of height, then of width (log entry 125). -/
def Conv.phases (c : Conv) : List (Nat × Nat × Nat) :=
  if c.mode ≠ 1 then [(0, 0, 0)]
  else (List.range (min c.g.d.s c.g.d.n)).flatMap (fun d => (List.range (min c.g.h.s c.g.h.n)).flatMap (fun h =>
    (List.range (min c.g.w.s c.g.w.n)).map (fun w => (d, h, w))))

/-- Pixels of a phase in each dimension. -/
def Conv.phaseSize (c : Conv) (p : Nat × Nat × Nat) : Nat × Nat × Nat :=
  (ceilDiv (c.g.d.n - p.1) c.g.d.s, ceilDiv (c.g.h.n - p.2.1) c.g.h.s, ceilDiv (c.g.w.n - p.2.2) c.g.w.s)

/-- Rows of a phase. -/
def Conv.phaseRows (c : Conv) (p : Nat × Nat × Nat) : Nat :=
  match c.mode with
  | 0 => pixels c.g.batch c.g.outSize
  | 1 => pixels c.g.batch (c.phaseSize p)
  | _ => if c.depth then c.g.taps else c.cOut / c.groups

/-- Row `i` of a phase: an output pixel, an input pixel, or a row of dW within its group. -/
def Conv.phaseRow (c : Conv) (p : Nat × Nat × Nat) (i : Nat) : Nat :=
  if c.mode ≠ 1 then i
  else
    let (b, d, h, w) := coords (c.phaseSize p) i
    pixelOf c.g.inSize b (p.1 + d * c.g.d.s) (p.2.1 + h * c.g.h.s) (p.2.2 + w * c.g.w.s)

def Conv.tiles (c : Conv) : Nat := (c.phases.map (fun p => ceilDiv (c.phaseRows p) c.tileRows * c.nt)).sum

/-- An output tile: its rows, its group, its first column and its columns. -/
structure WTile where
  rows : List Nat
  grp : Nat
  first : Nat
  cols : Nat
  deriving DecidableEq, Repr

/-- Output tile `j`. Its rows are pixels of the image that the geometry names and its columns channels of that image, so
that with a regrouped Y it is a tile of the image before the regrouping (R163 names neither; log entry 125). -/
def Conv.locate (c : Conv) : List (Nat × Nat × Nat) → Nat → WTile
  | [], _ => { rows := [], grp := 0, first := 0, cols := 0 }
  | p :: t, j =>
    let m := ceilDiv (c.phaseRows p) c.tileRows * c.nt
    if j < m then
      let mt := j / c.nt
      let n := j % c.nt
      let g := n / c.n1
      let i := n % c.n1 * 64
      let rows := (List.range (min c.tileRows (c.phaseRows p - c.tileRows * mt))).map (fun i => c.phaseRow p (c.tileRows * mt + i))
      { rows := if c.mode = 2 && !c.depth then rows.map (· + g * (c.cOut / c.groups)) else rows, grp := g,
        first := if c.mode = 2 then i else g * c.colsG + i, cols := min 64 (c.colsG - i) }
    else c.locate t (j - m)

def Conv.tile (c : Conv) (j : Nat) : WTile := c.locate c.phases j

/-- The member that takes a tile: whole output-tile rows with ARGMAX_EN. -/
def Conv.turn (c : Conv) (j : Nat) : Nat := if c.argmax then j / c.nt else j
def Conv.member (c : Conv) (x : Cmd) (j : Nat) : Nat := x.member (c.turn j)

/-! ### Draws (R163) -/

/-- W rows that a tile reads, by their number. -/
def Conv.wRows (c : Conv) (o : WTile) : Nat := if c.mode = 2 then c.wt.rows else if c.depth then c.g.taps else o.cols
def Conv.castDraws (c : Conv) (o : WTile) : Nat := if c.cast.draws then c.wRows o * c.wt.stored else 0
def Conv.yDraws (c : Conv) : Bool := match c.y with
  | some y => y.draws
  | none => false
def Conv.argDraws (c : Conv) : Bool := match c.arg with
  | some a => a.draws
  | none => false
def Conv.tileDraws (c : Conv) (j : Nat) : Nat :=
  let o := c.tile j
  c.castDraws o + (if c.yDraws then o.rows.length * o.cols else 0) +
  (if c.argDraws && j % c.nt + 1 == c.nt then o.rows.length else 0)

/-- Draws that a tile of the ring takes before output tile `j`. -/
def Conv.base (c : Conv) (x : Cmd) (j : Nat) : Nat :=
  if !(c.cast.draws || c.yDraws || c.argDraws) then 0
  else
    let n := x.tiles.length
    (((List.range j).filter (fun i => c.turn i % n == c.turn j % n)).map c.tileDraws).sum

/-! ### The reduction over taps (R155, R156, R161) -/

/-- What one side of a product has for a row at one reduction block. -/
inductive Piece where
  /-- It contributes nothing. -/
  | nothing
  /-- PAD_VALUE in each element. -/
  | pad
  /-- A block of the weights. -/
  | blk (b : GBlk)
  /-- The parts of blocks of X that meet a reduction block: first step, steps, and the part with its elements at those
  steps. -/
  | parts (bs : List (Nat × Nat × GBlk))
  | els (xs : List Num)
  deriving DecidableEq, Repr

def Piece.absent : Piece → Bool
  | .nothing => true
  | _ => false

/-- Element `i` of a piece of the weights. -/
def Piece.at (p : Piece) (i : Nat) : Num := match p with
  | .blk b => b.el i
  | .els xs => (xs[i]?).getD Num.zero
  | _ => Num.zero

/-- One reduction block of one output element. -/
def wStep (half : Bool) (v : Num) (pairs : List (Nat × Nat)) (x w : Piece) (acc : Num) : W Num :=
  match x, w with
  | .nothing, _ => pure acc
  | .pad, _ => pairs.foldlM (fun a p => do wAdd a (← wMul v (w.at p.2))) acc
  | .parts bs, .blk b =>
    bs.foldlM (fun acc a => wPair (pairs.filter (fun p => a.1 ≤ p.1 && decide (p.1 < a.1 + a.2.1))) a.2.2 b acc) acc
  | .els _, .els _ =>
    if half then do wAdd acc (← wDot (pairs.map (fun p => (x.at p.1, w.at p.2))))
    else pairs.foldlM (fun a p => do wAdd a (← wMul (x.at p.1) (w.at p.2))) acc
  | _, _ => pure acc

/-- A block with the elements at the given positions alone: the others are ignored (R150). -/
def GBlk.only (b : GBlk) (ps : List Nat) : GBlk :=
  { b with codes := b.codes.zipIdx.map (fun c => if ps.contains c.2 then c.1 else 0), esc := b.esc.filter (fun e => ps.contains e.1) }

/-- `m` elements of a block from `off` on, moved to position `i`. -/
def GBlk.part (b : GBlk) (off m i : Nat) : GBlk :=
  { b with codes := List.replicate i 0 ++ (b.codes.drop off).take m,
           esc := (b.esc.filter (fun e => off ≤ e.1 && decide (e.1 < off + m))).map (fun e => (e.1 - off + i, e.2)) }

/-- The parts of a row's blocks that hold columns `[j, j + n)`: block, first element there, elements, first step. -/
def blockCut : Nat → Nat → Nat → Nat → List (Nat × Nat × Nat × Nat)
  | 0, _, _, _ => []
  | f + 1, j, n, i =>
    if n = 0 then []
    else let m := min n (32 - j % 32); (j / 32, j % 32, m, i) :: blockCut f (j + m) (n - m) (i + m)

/-- The parts of blocks that hold channels `[ch, ch + n)` of a pixel: tensor row, then as `blockCut`. Where the groups of
BWD_INPUT split the blocks of dY, a reduction block meets parts of two, and each is a block pair of its own (log entry
124). -/
def Lay.blockParts (l : Lay) (i ch n : Nat) : List (Nat × Nat × Nat × Nat × Nat) :=
  ((l.runs i (n + 1) ch n).foldl (fun a r =>
    (a.1 + r.2.2, a.2 ++ (blockCut (r.2.2 + 1) r.2.1 r.2.2 a.1).map (fun b => (r.1, b)))) (0, [])).2

/-- The elements that meet in logical block `lb` of weight row `r`, `n` of them real. -/
def Conv.pairs (c : Conv) (r lb n : Nat) : U (List (Nat × Nat)) := do
  let w ← if c.sparse then uNat (c.metaAddr + r * c.metaPitch + 4 * lb) 4 else pure 0
  return (blockPairs c.sparse c.wt.cols lb w).filter (fun p => p.1 < n)

/-- A run of weights cast on load; `d i` is the draw of element `i` of the run. -/
def Cast.piece (k : Cast) (d : Nat → Nat) (xs : List Num) : Piece × Fl :=
  let cvt := Cvt.ofByte k.cvt
  let d (i : Nat) := if cvt.stoch then some (d i) else none
  if fmtBlocked k.fmt then
    let b := encodeBlock k.fmt k.coarse cvt d xs
    (if b.fine = 0 then .nothing else .blk (GBlk.ofBlock k.fmt k.coarse b), b.flags)
  else
    let ys := xs.zipIdx.map (fun p => (fmtOf k.fmt).round cvt (d p.2) p.1)
    (.els (ys.map (·.1)), ys.foldl (fun a y => a.or y.2) {})

/-- The stored elements of a row from `at0` on, those at the given positions read and the others ignored (R150). -/
def TRef.pick (t : TRef) (dn : Bool) (r at0 n : Nat) (ps : List Nat) : U (List Num) :=
  if ps = List.range ps.length then t.get dn r at0 ps.length
  else (List.range n).mapM (fun i => if ps.contains i then do return (← t.get dn r (at0 + i) 1).headD Num.zero else pure Num.zero)

/-- The weights of row `r` at logical block `lb`. -/
def Conv.wPiece (c : Conv) (dn : Bool) (r lb fine : Nat) (pairs : List (Nat × Nat)) (d : Nat → Nat) : U Piece := do
  let (at0, n) := storedIn c.sparse c.wt.cols lb
  let ps := pairs.map (·.2)
  if c.cast.fmt ≠ 0 then do
    let (p, f) := c.cast.piece (fun i => d (at0 + i)) (← c.wt.pick dn r at0 n ps)
    uFlags f
    return p
  else if fmtBlocked c.wt.fmt then
    if fine = 0 then return .nothing else return .blk ((← c.wt.fetch r lb fine).only ps)
  else return .els (← c.wt.pick dn r at0 n ps)

/-- The accumulators of rows and output columns of one group of a dense form. `draw i p` is the draw of stored element
`p` of the weights of column `i`. -/
def Conv.dense (c : Conv) (dn : Bool) (rows : List Nat) (grp : Nat) (cols : List Nat) (draw : Nat → Nat → Nat) :
    U (List (List Num)) := do
  let lx := c.layX
  let nq := c.seg / 32
  let block := fmtBlocked c.x.fmt
  let start := rows.map (fun _ => cols.map (fun _ => Num.zero))
  (List.range c.g.taps).foldlM (fun acc t => do
    let taps := rows.map (fun i => c.g.tap (c.mode == 1) i t)
    let pads := taps.map (fun p => p.isNone && c.mode != 1 && !c.pad.isZero)
    if taps.all Option.isNone && !pads.any id then return acc
    else (List.range nq).foldlM (fun acc q => do
      let n := min 32 (c.red - 32 * q)
      let lb := t * nq + q
      let ch := grp * c.red + 32 * q
      let xc ← taps.mapM (fun p => match p with
        | some i => if !block then pure [(1, (0, 0, 0, 0, 0))] else (lx.blockParts i ch n).mapM (fun b => do
            return (← uNat (lx.t.sc + b.1 * lx.t.scPitch + b.2.1) 1, b))
        | none => pure [])
      let wc ← cols.mapM (fun r =>
        if block && c.cast.fmt == 0 then uNat (c.wt.sc + r * c.wt.scPitch + lb) 1 else pure 1)
      let xLive := xc.any (fun bs => bs.any (·.1 != 0))
      let pad := pads.any id
      if !pad && !(xLive && wc.any (· != 0)) then return acc
      else
        let ps ← cols.mapM (fun r => c.pairs r lb n)
        let ws ← (cols.zipIdx.zip (wc.zip ps)).mapM (fun e => c.wPiece dn e.1.1 lb e.2.1 e.2.2 (draw e.1.2))
        let wLive := ws.any (fun w => !w.absent)
        let xs ← (taps.zip (xc.zip pads)).mapM (fun e => match e.1 with
          | none => pure (if e.2.2 then Piece.pad else .nothing)
          | some i =>
            if e.2.1.all (·.1 == 0) || !wLive then pure .nothing
            else if block then do
              return .parts (← (e.2.1.filter (·.1 != 0)).mapM (fun b => do
                let (row, blk, off, m, at0) := b.2
                return (at0, m, (← lx.t.fetch row blk b.1).part off m at0)))
            else do return .els (← lx.get dn i ch n))
        let half := gClass c.x.fmt == some .half
        uLane ((acc.zip xs).mapM (fun a => (a.1.zip (ws.zip ps)).mapM (fun e =>
          wStep half c.pad e.2.2 a.2 e.2.1 e.1)))) acc) start

/-- Every block of a row's piece has the zero code; false of an unscaled tensor. -/
def TRef.allZero (t : TRef) (r j n : Nat) : U Bool := do
  if !fmtBlocked t.fmt then return false
  else return (← uRead (t.sc + r * t.scPitch + j / 32) ((j + n - 1) / 32 + 1 - j / 32)).all (· == 0)

/-- The weights of a row and columns of the depthwise form, as elements, cast on load where asked: blocks stand at
multiples of 32 columns. -/
def Conv.depthW (c : Conv) (dn : Bool) (r j n : Nat) (d : Nat → Nat) : U (List El) := do
  if c.cast.fmt = 0 then do
    let (es, f) ← c.wt.readEls dn r j n
    uFlags f
    return es
  else
    let xs ← c.wt.get dn r j n
    let ps := (chunks 32 (n + 1) xs).zipIdx.map (fun p => (p.1.length, c.cast.piece (fun i => d (j + 32 * p.2 + i)) p.1))
    uFlags (ps.foldl (fun a p => a.or p.2.2) {})
    return ps.flatMap (fun p => (List.range p.1).map (fun i => ({ v := p.2.1.at i, hole := p.2.1.absent } : El)))

/-- One product of the depthwise form. An element of a zero block contributes nothing, at a padding tap too (R50, R165; log
entry 123). -/
def wDepth (acc : Num) (v : Num) (pad : Bool) (x w : El) : W Num :=
  if pad then if w.hole then pure acc else do wAdd acc (← wMul v w.num)
  else if x.hole || w.hole then pure acc
  else do wAdd acc (← wMul x.num w.num)

/-- The accumulators of one pixel and consecutive channels of the depthwise form (R165). -/
def Conv.depthRow (c : Conv) (dn : Bool) (row j n : Nat) (draw : Nat → Nat → Nat) : U (List Num) := do
  let lx := c.layX
  (List.range c.g.taps).foldlM (fun acc t => do
    let tap := c.g.tap (c.mode == 1) row t
    let pad := tap.isNone && c.mode != 1 && !c.pad.isZero
    let wz ← if c.cast.fmt = 0 && !(tap.isNone && !pad) then c.wt.allZero t j n else pure false
    match tap with
    | none =>
      if !pad || wz then return acc
      else
        let ws ← c.depthW dn t j n (draw t)
        uLane ((acc.zip ws).mapM (fun e => wDepth e.1 c.pad true {} e.2))
    | some i =>
      let runs := lx.runs i (n + 1) j n
      let xz ← runs.mapM (fun r => lx.t.allZero r.1 r.2.1 r.2.2)
      if wz || xz.all id then return acc
      else
        let xs ← lx.els dn i j n
        let ws ← c.depthW dn t j n (draw t)
        uLane ((acc.zip (xs.zip ws)).mapM (fun e => wDepth e.1 c.pad false e.2.1 e.2.2))) ((List.range n).map (fun _ => Num.zero))

/-! ### The reduction over pixels (R162) -/

/-- The columns of dW of a tile as runs of one tap: tap, first channel, columns, of them real. -/
def Conv.tapRuns (c : Conv) : Nat → Nat → Nat → List (Nat × Nat × Nat × Nat)
  | 0, _, _ => []
  | f + 1, j, n =>
    if n = 0 then []
    else
      let t := if c.seg = 0 then 0 else j / c.seg
      let ch := if c.seg = 0 then 0 else j % c.seg
      let m := min n (c.seg - ch)
      (t, ch, m, min m (c.red - ch)) :: c.tapRuns f (j + m) (n - m)

/-- The weights' side of BWD_WEIGHT: channels of dY at an output pixel, cast on load where asked. -/
def Conv.dyGet (c : Conv) (dn : Bool) (o ch n : Nat) (draw : Nat → Nat) : U (List Num) := do
  let l := c.layW
  return (← (l.runs o (n + 1) ch n).mapM (fun r => do
    let xs ← c.wt.get dn r.1 r.2.1 r.2.2
    if c.cast.fmt = 0 then return xs
    else
      let (p, f) := c.cast.piece (fun i => draw (r.1 * c.wt.cols + r.2.1 + i)) xs
      uFlags f
      return (List.range xs.length).map p.at)).flatten

/-- One step of up to 32 pixels of one dW element: the products at the image in one exact sum (half) or one by one,
those at padding one by one (R84, R156). An X of `none` contributes nothing. -/
def wPixels (half : Bool) (ps : List (Option (Num × Bool) × Num)) (acc : Num) : W Num := do
  let live := ps.filterMap (fun p => p.1.map (fun x => (x, p.2)))
  if half then
    let ins := live.filter (fun p => !p.1.2)
    let acc ← if ins = [] then pure acc else do wAdd acc (← wDot (ins.map (fun p => (p.1.1, p.2))))
    (live.filter (fun p => p.1.2)).foldlM (fun a p => do wAdd a (← wMul p.1.1 p.2)) acc
  else live.foldlM (fun a p => do wAdd a (← wMul p.1.1 p.2)) acc

/-- The accumulators of an output tile of BWD_WEIGHT. -/
def Conv.dW (c : Conv) (dn : Bool) (o : WTile) (draw : Nat → Nat) : U (List (List Num)) := do
  let lx := c.layX
  let np := pixels c.g.batch c.g.outSize
  let half := gClass c.x.fmt == some .half && gClass c.wFmt == some .half
  let ch0 := o.grp * c.red
  (List.range (ceilDiv np 32)).foldlM (fun acc b => do
    let px := (List.range (min 32 (np - 32 * b))).map (fun i => 32 * b + i)
    let sides ← px.mapM (fun p => do
      let ys ← c.dyGet dn p (o.rows.headD 0) o.rows.length draw
      let xs ← (c.tapRuns (o.cols + 1) o.first o.cols).mapM (fun r => match c.g.tap false p r.1 with
        | none => pure (List.replicate r.2.2.1 (if c.pad.isZero then none else some (c.pad, true)))
        | some i => do
          let v ← lx.get dn i (ch0 + r.2.1) r.2.2.2
          return v.map (fun x => some (x, false)) ++ List.replicate (r.2.2.1 - r.2.2.2) none)
      return (ys, xs.flatten))
    uLane (acc.zipIdx.mapM (fun a => a.1.zipIdx.mapM (fun e =>
      wPixels half (sides.map (fun s => ((s.2[e.2]?).join, (s.1[a.2]?).getD Num.zero))) e.1))))
    (o.rows.map (fun _ => (List.range o.cols).map (fun _ => Num.zero)))

/-- The accumulators of one tap and consecutive channels of a depthwise BWD_WEIGHT. -/
def Conv.depthDW (c : Conv) (dn : Bool) (t j n : Nat) (draw : Nat → Nat) : U (List Num) := do
  let lx := c.layX
  (List.range (pixels c.g.batch c.g.outSize)).foldlM (fun acc o => do
    match c.g.tap false o t with
    | none =>
      if c.pad.isZero then return acc
      else
        let ys ← c.dyGet dn o j n draw
        uLane ((acc.zip ys).mapM (fun e => do wAdd e.1 (← wMul c.pad e.2)))
    | some i =>
      let xs ← lx.get dn i j n
      let ys ← c.dyGet dn o j n draw
      uLane ((acc.zip (xs.zip ys)).mapM (fun e => do wAdd e.1 (← wMul e.2.1 e.2.2)))) ((List.range n).map (fun _ => Num.zero))

/-! ### One output tile -/

/-- The accumulators of output tile `j`. An empty output has no product term (R153). -/
def Conv.reduce (c : Conv) (x : Cmd) (dn : Bool) (j : Nat) : U (List (List Num)) :=
  let o := c.tile j
  let base := c.base x j
  let draw (r p : Nat) := x.draw (c.member x j) (base + r * c.wt.stored + p)
  if c.g.empty then pure (o.rows.map (fun _ => (List.range o.cols).map (fun _ => Num.zero)))
  else if c.mode = 2 then
    if c.depth then o.rows.mapM (fun t => c.depthDW dn t o.first o.cols (draw 0)) else c.dW dn o (draw 0)
  else if c.depth then o.rows.mapM (fun r => c.depthRow dn r o.first o.cols draw)
  else c.dense dn o.rows o.grp ((List.range o.cols).map (o.first + ·)) draw

/-- Y as its rows are numbered by output tiles. -/
def Conv.yRuns (c : Conv) (y : TRef) (row ch n : Nat) : List (Nat × Nat × Nat) :=
  if c.mode = 2 then [(row, ch, n)] else (c.layY y).runs row (n + 1) ch n

/-- Output tile `j` through its reduction and the output path, up to its conversion (R96, R161, R162). -/
def Conv.values (c : Conv) (x : Cmd) (dn : Bool) (j : Nat) : U (List (List Num)) := do
  let o := c.tile j
  let acc ← c.reduce x dn j
  let old ← match c.y with
    | some y => if !c.acc then pure [] else o.rows.mapM (fun r => do
        return (← (c.yRuns y r o.first o.cols).mapM (fun p => y.get dn p.1 p.2.1 p.2.2)).flatten)
    | none => pure []
  let bias ← if c.bias then c.biasRef.get dn 0 o.first o.cols else pure []
  uLane (acc.zipIdx.mapM (fun r => r.1.zipIdx.mapM (fun e =>
    if c.mode = 2 && !c.depth && (c.seg != 0 && (o.first + e.2) % c.seg ≥ c.red) then pure Num.zero
    else outPath (old[r.2]?.bind (·[e.2]?)) (bias[e.2]?) c.act e.1)))

/-- Work whose flags another unit raises. -/
def uQuiet {α : Type} (m : U α) : U α := fun a => let (v, b) := m a; (v, { b with flags := a.flags })

/-- Elements of a row that are encoded together: a block, a bale, or one. -/
def TRef.grain (t : TRef) : Nat := if fmtBlocked t.fmt then 32 else if t.fmt = FC.x36 then 16 else 1

/-- The output tile of a column in the same row of tiles as tile `j`. -/
def Conv.sibling (c : Conv) (j col : Nat) : Nat :=
  j / c.nt * c.nt + (if c.mode = 2 then j % c.nt else col / c.colsG * c.n1 + col % c.colsG / 64)

/-- The value of a column that belongs to a sibling tile, with its draw. -/
def Conv.foreign (c : Conv) (vals : List (Nat × List (List Num))) (j i col : Nat) : Num :=
  let k := c.sibling j col
  let first := (c.tile k).first
  (((lookD vals k [])[i]?).bind (·[col - first]?)).getD Num.zero

/-- A command as it stands now. -/
def uLive (k count : Nat) : U (Option Cmd) := fun a => (a.s.unitCmd k count, a)

/-- ARG of a row of output tiles, with its last tile `j` (R167): the best of each tile of the row. A tile that read lost
data takes no part (R296). -/
def Conv.argRow (c : Conv) (k : Nat) (x : Cmd) (j : Nat) (mine : List (Option (Num × Nat))) : U PUnit := do
  match ← uLive k x.count, c.arg with
  | some y, some a =>
    let notes := chunks 4 (y.aux.length + 1) y.aux
    ((c.tile j).rows.zip mine).zipIdx.forM (fun r =>
      let before := (List.range (c.nt - 1)).filterMap (fun i =>
        (notes.find? (fun e => e.take 2 == [j - (c.nt - 1) + i, r.2])).map (fun e => (x36Of (e.getD 2 0), e.getD 3 0)))
      match argBest false (before ++ r.1.2.toList) with
      | some b => a.writeInts r.1.1 0 [b.2]
      | none => pure ⟨⟩)
  | _, _ => pure ⟨⟩

/-- Output tile `j` up to its outputs in Y (R161 to R166), with the best element of each row. A block or a bale that two
tiles share is written by the tile that has its last column. -/
def Conv.tileOut (c : Conv) (x : Cmd) (j : Nat) : U (List (Option (Num × Nat))) := do
  let o := c.tile j
  let dn := denormOf c.y
  let vals ← c.values x dn j
  uVals c.sumEn vals.flatten
  if c.cast.draws then uDraws (c.castDraws o)
  (match c.y with
  | none => pure ⟨⟩
  | some y => do
    let g := y.grain
    -- columns of sibling tiles that stand in the first block of this one
    let left := if g = 1 then 0 else (o.first % y.cols) % g
    let need := (((List.range left).map (fun i => c.sibling j (o.first - 1 - i))).eraseDups).filter (· != j)
    let others ← need.mapM (fun k => do return (k, ← uQuiet (c.values x dn k)))
    let all := (j, vals) :: others
    let drawOf (i col : Nat) : Nat :=
      let k := c.sibling j col
      let p := c.tile k
      x.draw (c.member x k) (c.base x k + c.castDraws p + i * p.cols + (col - p.first))
    o.rows.zipIdx.forM (fun r =>
      (c.yRuns y r.1 (o.first - left) (o.cols + left)).foldlM (fun col p => do
        let (row, at0, n) := p
        let m := if at0 + n = y.cols then n else (at0 + n) / g * g - at0
        if m ≠ 0 && col + m > o.first then do
          let e := y.encodeRow (fun i => drawOf r.2 (col + i)) row at0 ((List.range m).map (fun i => c.foreign all j r.2 (col + i)))
          e.writes.forM (fun w => uOut w.1 w.2)
          uFlags e.flags
          uVanish e.vanished
        return col + n) (o.first - left) *> pure ⟨⟩)
    if y.draws then uDraws (o.rows.length * o.cols))
  return vals.map (fun r => argBest false (r.zipIdx.map (fun e => (e.1, o.first + e.2))))

/-- Output tile `j`, with ARG of its row of tiles where it is the last of them (R167). -/
def Conv.unit (c : Conv) (k : Nat) (x : Cmd) (j : Nat) : U PUnit := do
  let (best, bad) ← uLossy (uStrict (c.tileOut x j))
  if c.argmax && !bad then
    if ← uGoes then
      best.zipIdx.forM (fun r => match r.1 with
        | some b => uNote [j, r.2, x36Code b.1, b.2]
        | none => pure ⟨⟩)
      if j % c.nt + 1 == c.nt then c.argRow k x j best

/-! ### The engine of CONV -/

def Conv.ofCmd (x : Cmd) : Conv := Conv.parse x.desc (fieldAt ((x.tables[0]?).getD []) 0 0 64)

def Conv.check (c : Conv) : Except Nat Unit := do
  need c.headOk St.descInvalid
  c.x.check false
  c.wt.check false
  optCheck c.y true
  optCheck c.arg true
  need c.fmtOk St.fmtUnsupported
  need c.shapeOk St.descInvalid

def convPrep (s : State) (k : Nat) (x : Cmd) : U Prep := do
  let _ := s
  match ← readDesc x 384 64 with
  | .error e => return .error e
  | .ok d =>
    let c := Conv.parse d 0
    match c.check with
    | .error e => return .error e
    | .ok _ =>
      match ← uVersion (k / 64) c.wt c.rel (c.cast.fmt != 0) with
      | .error e => return .error e
      | .ok off =>
        let c := Conv.parse d off
        return (do need (c.shapeOk && (c.g.empty || c.outOk)) St.descInvalid; .ok (d, [natLE 8 off]))

/-- Units: output tiles; an empty output has none, but for the zeros of a backward mode (R153). -/
def Conv.count (c : Conv) : Nat := if c.g.empty && (c.mode == 0 || c.acc) then 0 else c.tiles

def convEngine : Engine where
  prep := convPrep
  foot := fun x =>
    let c := Conv.ofCmd x
    c.x.foot false ++ c.wt.foot false ++ optFoot c.y true ++ optFoot c.arg true ++ c.sideSpans.map (fun p => footRange p.1 p.2 false)
  rows := fun x => let r := fieldAt x.desc 6 0 3; if r = 0 then 5 else r
  tiled := true
  plan := fun k x =>
    let c := Conv.ofCmd x
    let n := c.count
    { units := (List.range n).map (fun j => (j, Unit.tile (c.member x j)))
      share := shareSummary c.sumEn k (fieldAt c.b 10 0 6) 0 c.turn n
      run := c.unit k x
      follows := fun u w => c.argmax && u / c.nt == w / c.nt
      fin := fun _ s => (s, if c.g.empty then St.okEmpty else St.ok) }

/-! ### POOL (R168 to R170) -/

structure Pooling where
  b : List Byte
  op : Nat
  skipPad : Bool
  g : Win
  pad : Num
  x : TRef
  y : TRef
  idx : Option TRef
  deriving DecidableEq, Repr

def Pooling.parse (d : List Byte) : Pooling :=
  { b := d, op := fieldAt d 1 0 3, skipPad := fieldAt d 1 5 1 == 1, g := Win.parse d (fieldAt d 1 3 2), pad := x36Field d 72,
    x := TRef.parse d 128, y := TRef.parse d 192, idx := optRef d 256 }

def Pooling.sumEn (p : Pooling) : Bool := fieldAt p.b 2 6 1 == 1

def Pooling.check (p : Pooling) : Except Nat Unit := do
  let d := p.b
  need (fieldAt d 0 0 8 == 5 && p.op < 4 && fieldAt d 1 6 2 == 0 && fieldAt d 2 7 1 == 0 && fieldAt d 3 2 6 == 0 &&
    zeroAt d 4 16 && p.g.ok d && x36FieldOk d 72 && zeroAt d 80 128 && (p.op < 2 || p.idx.isNone)) St.descInvalid
  p.x.check false
  p.y.check true
  optCheck p.idx true
  need (notInt p.x.fmt && notInt p.y.fmt) St.fmtUnsupported
  optFmt p.idx (· == FC.int32)
  need (p.x.rows == pixels p.g.batch p.g.inSize && !p.y.meets p.x && !optMeets p.idx (some p.y)) St.descInvalid
  need (p.g.empty || (p.y.rows == pixels p.g.batch p.g.outSize && p.y.cols == p.x.cols &&
    (match p.idx with
     | some i => i.rows == p.y.rows && i.cols == p.y.cols
     | none => true))) St.descInvalid

def Pooling.nt (p : Pooling) : Nat := ceilDiv p.x.cols 512
def Pooling.units (p : Pooling) : Nat :=
  if p.g.empty then 0 else ceilDiv (pixels p.g.batch p.g.outSize) 64 * p.nt

/-- Unit `j`: first pixel, pixels, first channel, channels. -/
def Pooling.at (p : Pooling) (j : Nat) : Nat × Nat × Nat × Nat :=
  let m := j / p.nt * 64
  let c := j % p.nt * 512
  (m, min 64 (pixels p.g.batch p.g.outSize - m), c, min 512 (p.x.cols - c))

def Pooling.idxDraws (p : Pooling) : Bool := match p.idx with
  | some i => i.draws
  | none => false

/-- The result of one element over its included taps, with the tap of R135. The flags of POOL are those of reading and of
the conversion, EMPTY_REDUCE (R169), and OVERFLOW of a sum beyond X36 (R77). -/
def Pooling.element (p : Pooling) (xs : List (Num × Nat)) : W (Num × Nat) :=
  match xs with
  | [] => do
    let v ← wFlag (redId (match p.op with | 0 => 3 | 1 => 4 | 2 => 0 | _ => 7), { emptyReduce := true })
    return (v, 0xFFFFFFFF)
  | x :: t => do
    let quiet (m : W Num) : W Num := let (v, fl) := m.run {}; wFlag (v, { overflow := fl.overflow })
    let tap := ((argBest (p.op == 1) xs).map (·.2)).getD 0
    let v ← match p.op with
      | 0 => pure (t.foldl (fun a y => a.max y.1) x.1)
      | 1 => pure (t.foldl (fun a y => a.min y.1) x.1)
      | op => do
        let sum ← t.foldlM (fun a y => quiet (wAdd a y.1)) x.1
        if op = 2 then pure sum else quiet (wDivN sum (Num.ofNat xs.length))
    return (v, tap)

def Pooling.unit (p : Pooling) (x : Cmd) (j : Nat) : U PUnit := uStrict do
  let (m, rows, c, n) := p.at j
  let dn := (Cvt.ofByte p.y.cvt).denorm
  let per := (if p.y.draws then 1 else 0) + (if p.idxDraws then 1 else 0)
  let base := if per = 0 then 0 else per * ((x.before j).map (fun i => let (_, r, _, n) := p.at i; r * n)).sum
  let out ← (List.range rows).mapM (fun i => do
    let taps ← (List.range p.g.taps).mapM (fun t => match p.g.tap false (m + i) t with
      | some q => do return (t, some (← p.x.get dn q c n))
      | none => pure (t, if p.skipPad then none else some (List.replicate n p.pad)))
    let live := taps.filterMap (fun t => t.2.map (fun v => (t.1, v)))
    uLane ((List.range n).mapM (fun e => p.element (live.map (fun t => ((t.2[e]?).getD Num.zero, t.1))))))
  uVals p.sumEn (out.flatMap (fun r => r.map (·.1)))
  out.zipIdx.forM (fun r => p.y.writeRow (fun i => x.draw (x.member j) (base + r.2 * n + i)) (m + r.2) c (r.1.map (·.1)))
  match p.idx with
  | some i => out.zipIdx.forM (fun r => i.writeInts (m + r.2) c (r.1.map (·.2)))
  | none => pure ⟨⟩

def poolEngine : Engine where
  prep := fun _ _ x => do
    match ← readDesc x 320 64 with
    | .error e => return .error e
    | .ok d => return (do (Pooling.parse d).check; .ok (d, []))
  foot := fun x => let p := Pooling.parse x.desc; p.x.foot false ++ p.y.foot true ++ optFoot p.idx true
  rows := fun _ => Res.vec
  tiled := true
  plan := fun k x =>
    let p := Pooling.parse x.desc
    { units := tileUnits x.tiles p.units
      run := p.unit x
      share := shareSummary p.sumEn k (fieldAt p.b 2 0 6) (fieldAt p.b 3 0 2) id p.units
      fin := fun _ s => (s, if p.g.empty then St.okEmpty else St.ok) }

end Sys2Proof.Machine
end

