-- ==== Sys2Proof/Machine/Attn.lean ====
section
/-!
DEFINITION. Attention (R174 to R176, R199 to R209): masks, items and their assignment, ATTN_FWD and ATTN_BWD; and the
restart of walks and the copy-on-write of appends as events (R183, R194).
-/
namespace Sys2Proof.Machine

/-! ### The descriptor (R199, R200, R206) -/

structure Attn where
  b : List Byte
  bwd : Bool
  mask : Nat
  pass : Nat
  parts : Nat
  qh : Nat
  count : Nat
  window : Nat
  seqAddr : Nat
  poolAddr : Nat
  scale : Num
  pool : Pool
  seqs : List Seq
  q : TRef
  o : TRef
  dO : TRef
  lse : TRef
  dq : Option TRef
  dk : Option TRef
  dv : Option TRef
  deriving DecidableEq, Repr

/-- A descriptor with the pool descriptor and the sequence table of the dispatch. -/
def Attn.parse (bwd : Bool) (d pool seq : List Byte) : Attn :=
  let n := fieldAt d 8 0 32
  { b := d, bwd := bwd, mask := fieldAt d 1 0 2, pass := if bwd then fieldAt d 1 2 2 else 0, parts := fieldAt d 2 0 8,
    qh := fieldAt d 4 0 16, count := n, window := fieldAt d 12 0 32, seqAddr := fieldAt d 16 0 64,
    poolAddr := fieldAt d 24 0 64, scale := x36Field d 32, pool := Pool.parse pool, seqs := seqTable seq n,
    q := TRef.parse d 64, o := TRef.parse d 128, dO := TRef.parse d 192, lse := TRef.parse d (if bwd then 256 else 192),
    dq := optRef d 320, dk := optRef d 384, dv := optRef d 448 }

def Attn.ofCmd (bwd : Bool) (x : Cmd) : Attn := Attn.parse bwd x.desc ((x.tables[0]?).getD []) ((x.tables[1]?).getD [])

def Attn.sumEn (a : Attn) : Bool := fieldAt a.b 40 6 1 == 1
/-- Query heads of a key-value head. -/
def Attn.grp (a : Attn) : Nat := a.qh / a.pool.heads
/-- Passes of ATTN_BWD: 0 BOTH, 1 DKV, 2 DQ. -/
def Attn.hasKv (a : Attn) : Bool := a.bwd && a.pass != 2
def Attn.hasQ (a : Attn) : Bool := a.bwd && a.pass != 1

def Attn.headOk (a : Attn) : Bool :=
  let d := a.b
  fieldAt d 0 0 8 == (if a.bwd then 8 else 4) && a.mask < 3 && a.pass < 3 &&
  fieldAt d 1 (if a.bwd then 4 else 2) (if a.bwd then 4 else 6) == 0 && 1 ≤ a.parts && a.parts ≤ 64 && zeroAt d 3 4 &&
  1 ≤ a.qh && a.qh ≤ 1024 && zeroAt d 6 8 && 1 ≤ a.count && a.count ≤ 65536 &&
  (if a.mask = 2 then 1 ≤ a.window else a.window == 0) && a.seqAddr % 8 == 0 && a.poolAddr % 64 == 0 &&
  x36FieldOk d 32 && a.scale.isFin && !a.scale.isZero && !a.scale.isNeg && fieldAt d 40 7 1 == 0 &&
  fieldAt d 41 2 6 == 0 && zeroAt d 42 64 && (!a.bwd || (a.parts == 1 && !a.sumEn))

/-- Absent and present outputs of the passes (R206). -/
def Attn.passOk (a : Attn) : Bool :=
  !a.bwd || (a.dq.isSome == a.hasQ && a.dk.isSome == a.hasKv && a.dv.isSome == a.hasKv)

/-- The references in their order. -/
def Attn.refs (a : Attn) : Except Nat Unit := do
  a.q.check false
  if !a.bwd then do
    a.o.check true
    a.lse.check true
  else do
    a.o.check false
    a.dO.check false
    a.lse.check false
    optCheck a.dq true
    optCheck a.dk true
    optCheck a.dv true

def halfCode (f : Nat) : Bool := f == FC.bf16 || f == FC.fp16

/-- The formats of the roles that do not depend on the pool. -/
def Attn.fmtOk (a : Attn) : Bool :=
  isWide a.lse.fmt &&
  (if a.bwd then halfCode a.q.fmt && halfCode a.o.fmt && halfCode a.dO.fmt && [a.dq, a.dk, a.dv].all (fun t => match t with
      | some t => biasCode t.fmt
      | none => true)
   else (halfCode a.q.fmt || (1 ≤ a.q.fmt && a.q.fmt ≤ 4)) &&
        (a.o.fmt == 3 || a.o.fmt == 4 || (FC.bf16 ≤ a.o.fmt && a.o.fmt ≤ FC.x36)))

/-- The formats against the pool. -/
def Attn.poolFmtOk (a : Attn) : Bool :=
  if a.bwd then !a.pool.blocked else a.pool.blocked == fmtBlocked a.q.fmt

/-- The tables of a command as byte ranges. -/
def Attn.tableSpans (a : Attn) : List (Nat × Nat) :=
  (a.seqAddr, 32 * a.count) :: (a.poolAddr, 128) ::
  a.seqs.flatMap (fun q => if q.pt = 0 then [] else [(q.pt, 64 + 8 * ceilDiv q.kvLen a.pool.tpp)])

/-- Outputs and inputs. -/
def Attn.outs (a : Attn) : List TRef :=
  if a.bwd then [a.dq, a.dk, a.dv].filterMap (fun t => t) else [a.o, a.lse]
def Attn.ins (a : Attn) : List TRef := if a.bwd then [a.q, a.o, a.dO, a.lse] else [a.q]

/-- Shapes, row ranges and overlaps (R172, R173, R200, R206). -/
def Attn.shapeOk (a : Attn) : Bool :=
  let d := a.pool.dim
  let n := a.q.rows
  let shape (t : TRef) (r c : Nat) : Bool := t.rows == r && t.cols == c
  let opt (t : Option TRef) (r c : Nat) : Bool := match t with
    | some t => shape t r c
    | none => true
  let kvRows := (a.dk.map (·.rows)).getD 0
  a.qh % a.pool.heads == 0 && a.q.cols == d && n % a.qh == 0 && a.seqs.all Seq.ok &&
  rangesOk (n / a.qh) (a.seqs.map (fun q => (q.qRow, q.qLen))) &&
  (if a.bwd then
    shape a.o n d && shape a.dO n d && shape a.lse n 1 && opt a.dq n d && opt a.dk kvRows d && opt a.dv kvRows d &&
    (!a.hasKv || (kvRows % a.pool.heads == 0 && rangesOk (kvRows / a.pool.heads) (a.seqs.map (fun q => (q.kvRow, q.kvLen)))))
   else shape a.o (a.parts * n) d && shape a.lse (a.parts * n) 1) &&
  a.outs.zipIdx.all (fun x => a.outs.zipIdx.all (fun y => x.2 == y.2 || !x.1.meets y.1) && a.ins.all (fun y => !x.1.meets y) &&
    a.tableSpans.all x.1.clear)

/-! ### Masks and items (R174 to R176, R204, R207) -/

/-- Key `j` is visible to the query at position `pos` (R174). -/
def Attn.visible (a : Attn) (q : Seq) (pos j : Nat) : Bool :=
  let causal := decide (j ≤ pos) || (decide (pos < q.bidir) && decide (j < q.bidir))
  decide (q.keyStart ≤ j ∧ j < q.kvLen) &&
  (match a.mask with
   | 0 => true
   | 1 => causal
   | _ => causal && decide (pos < j + a.window))

/-- A share of the work that runs on one tile. -/
structure Item where
  /-- A key block of a DKV pass; `first` is then the block, else the first query row. -/
  kv : Bool
  part : Nat
  head : Nat
  seq : Nat
  first : Nat
  rows : Nat
  cost : Nat
  deriving DecidableEq, Repr

def Attn.seqAt (a : Attn) (i : Nat) : Seq := (a.seqs[i]?).getD (Seq.parse [] 0)
/-- The position of row `r` of a sequence. -/
def Attn.pos (a : Attn) (q : Seq) (r : Nat) : Nat := q.kvLen - q.qLen + r / a.grp
/-- The row of Q of row `r` of a sequence at a key-value head. -/
def Attn.qRow (a : Attn) (q : Seq) (h r : Nat) : Nat := (q.qRow + r / a.grp) * a.qh + h * a.grp + r % a.grp

/-- The keys of block `k`. -/
def blockKeys (q : Seq) (k : Nat) : List Nat := (List.range (min 64 (q.kvLen - 64 * k))).map (64 * k + ·)

/-- The key blocks of a part. -/
def Attn.partBlocks (a : Attn) (q : Seq) (p : Nat) : List Nat :=
  let nb := ceilDiv q.kvLen 64
  let lo := p * nb / a.parts
  (List.range ((p + 1) * nb / a.parts - lo)).map (lo + ·)

/-- The positions of the rows `[r, r + n)`. -/
def Attn.positions (a : Attn) (q : Seq) (r n : Nat) : List Nat := ((List.range n).map (fun i => a.pos q (r + i))).eraseDups

/-- The computed blocks of rows `[r, r + n)` in a part. -/
def Attn.computed (a : Attn) (q : Seq) (p r n : Nat) : List Nat :=
  let ps := a.positions q r n
  (a.partBlocks q p).filter (fun k => (blockKeys q k).any (fun j => ps.any (fun x => a.visible q x j)))

/-- Rows of a sequence that see a key of block `k`. -/
def Attn.blockRows (a : Attn) (q : Seq) (k : Nat) : List Nat :=
  (List.range (q.qLen * a.grp)).filter (fun r => (blockKeys q k).any (a.visible q (a.pos q r)))

/-- The items over query rows, by sequence, row, head and part. -/
def Attn.rowItems (a : Attn) : List Item :=
  (List.range a.seqs.length).flatMap (fun i =>
    let q := a.seqAt i
    let n := q.qLen * a.grp
    (List.range (ceilDiv n 64)).flatMap (fun c =>
      let m := min 64 (n - 64 * c)
      (List.range a.pool.heads).flatMap (fun h => (List.range a.parts).map (fun p =>
        { kv := false, part := p, head := h, seq := i, first := 64 * c, rows := m,
          cost := m * ((a.computed q p (64 * c) m).map (fun k => (blockKeys q k).length)).sum }))))

/-- The items of a DKV pass: every key block of every sequence, so that keys no query sees are written too. -/
def Attn.keyItems (a : Attn) : List Item :=
  (List.range a.seqs.length).flatMap (fun i =>
    let q := a.seqAt i
    (List.range (ceilDiv q.kvLen 64)).flatMap (fun k =>
      let m := (a.blockRows q k).length
      (List.range a.pool.heads).map (fun h =>
        { kv := true, part := 0, head := h, seq := i, first := k, rows := m, cost := m * (blockKeys q k).length })))

/-- An item put before the first of a lower cost. -/
def costInsert (x : Item) : List Item → List Item
  | [] => [x]
  | y :: t => if y.cost < x.cost then x :: y :: t else y :: costInsert x t
def byCost (xs : List Item) : List Item := xs.foldl (fun acc x => costInsert x acc) []

/-- The member with the least load, the lowest index winning. -/
def leastLoaded (loads : List Nat) : Nat :=
  (loads.zipIdx.foldl (fun (b : Nat × Nat) e => if e.1 < b.1 then (e.1, e.2) else b) (loads.headD 0, 0)).2

/-- Items with their members, one at a time to the least loaded (R176). -/
def assign (n : Nat) (xs : List Item) : List (Item × Nat) :=
  (xs.foldl (fun (a : List Nat × List (Item × Nat)) x =>
    let m := leastLoaded a.1
    (a.1.set m ((a.1[m]?).getD 0 + x.cost), a.2 ++ [(x, m)])) (List.replicate n 0, [])).2

/-- The units of a command: its items with their members. -/
def Attn.items (a : Attn) (n : Nat) : List (Item × Nat) :=
  if !a.bwd then assign n (byCost a.rowItems)
  else (if a.hasKv then assign n (byCost a.keyItems) else []) ++ (if a.hasQ then assign n (byCost a.rowItems) else [])

/-! ### Operand rows -/

/-- A row of Q. -/
def Attn.queryRow (a : Attn) (dn : Bool) (t : TRef) (r : Nat) : U GRow := do
  if fmtBlocked t.fmt then
    let cs ← t.codes r
    let bs ← cs.zipIdx.mapM (fun c => if c.1 = 0 then pure none else do return some (← t.fetch r c.2 c.1))
    return { blocks := bs }
  else return { els := ← t.get dn r 0 a.pool.dim }

/-- The key or the value of a head in a slot of a page. -/
def Attn.kvRow (a : Attn) (dn : Bool) (page slot h : Nat) (v : Bool) : U GRow := do
  let p := a.pool
  let t := p.slotRef 0 page slot v
  if p.blocked then
    let b0 := h * p.dim / 32
    let bs ← (List.range (p.dim / 32)).mapM (fun b => do
      let fine ← uNat (t.sc + b0 + b) 1
      if fine = 0 then return none else return some (← t.fetch 0 (b0 + b) fine))
    return { blocks := bs }
  else return { els := ← t.get dn 0 (h * p.dim) p.dim }

/-- One element of a product of two rows (R82 to R86). -/
def wRowDot (a b : GRow) : W Num :=
  if a.blocks ≠ [] || b.blocks ≠ [] then
    (a.blocks.zip b.blocks).foldlM (fun acc e => match e with
      | (some x, some y) => wPair ((List.range x.codes.length).map (fun i => (i, i))) x y acc
      | _ => pure acc) Num.zero
  else wHalf (chunks 32 (a.els.length + 1) (a.els.zip b.els))

def bf16Of (x : Num) : Num := (Fmt.bf16.round {} none x).1

/-- A sum in the half class, onto an accumulator: steps in groups of 32 by their index; steps left out contribute
nothing (R84). -/
def wSteps (steps : List (Option (Num × Num))) (acc : Num) : W Num :=
  (chunks 32 (steps.length + 1) steps).foldlM (fun acc g =>
    match g.filterMap (fun p => p) with
    | [] => pure acc
    | ps => do wAdd acc (← wDot ps)) acc

/-- The same where each step is a weight and a block of values: element `i` of a 32-column block (R202 step 6). -/
def wScaledSteps (i : Nat) (steps : List (Option (Num × Option GBlk))) (acc : Num) : W Num := do
  let live (b : GBlk) : Bool := b.fine != 0xFE && b.fine != 0xFF
  let scales := steps.filterMap (fun s => s.bind (fun p => p.2.bind (fun b => if live b then some b.scale else none)))
  let top := scales.foldl max (scales.headD 0)
  (chunks 32 (steps.length + 1) steps).foldlM (fun acc g => do
    let ps : List (Num × Num) := g.filterMap (fun s => s.bind (fun p => p.2.map (fun b =>
      if live b then (bf16Of (unscale p.1 (b.scale - top)), b.pay i) else (bf16Of p.1, b.el i))))
    if ps.isEmpty then return acc
    else wAdd acc (← wRound (unscale (← wDot ps) top) [])) acc

/-! ### ATTN_FWD (R202 to R204) -/

/-- The running state of a query row. -/
structure Row where
  m : Num
  l : Num
  o : List Num
  deriving DecidableEq, Repr

def Row.start (d : Nat) : Row := { m := .inf true, l := Num.zero, o := List.replicate d Num.zero }
def Row.save (r : Row) : List Nat := x36Code r.m :: x36Code r.l :: r.o.map x36Code
def Row.load (c : List Nat) : Row := { m := x36Of (c.getD 0 0), l := x36Of (c.getD 1 0), o := (c.drop 2).map x36Of }

/-- A key block of one row: keys and values where visible (R202). -/
def Attn.rowStep (a : Attn) (qr : GRow) (ks : List (Option (GRow × GRow))) (r : Row) : W Row := do
  let s ← ks.mapM (fun k => match k with
    | some (key, _) => do return some (← wMul a.scale (← wRowDot qr key))
    | none => return none)
  let m' := (s.filterMap (fun x => x)).foldl Num.max r.m
  if m' = .inf true then return r
  else do
    let al ← wFn 0x20 (← wSub r.m m')
    let ps ← s.mapM (fun x => match x with
      | some v => do return some (← wFn 0x20 (← wSub v m'))
      | none => return none)
    let sum := (← reduceTree (redOp 0) ps).getD Num.zero
    let l ← wAdd (← wMul al r.l) sum
    let steps := ps.zip ks
    let o ← r.o.zipIdx.mapM (fun e => do
      let acc ← wMul al e.1
      if a.pool.blocked then
        wScaledSteps (e.2 % 32) (steps.map (fun x => match x with
          | (some p, some (_, v)) => some (p, (v.blocks[e.2 / 32]?).join)
          | _ => none)) acc
      else wSteps (steps.map (fun x => match x with
          | (some p, some (_, v)) => some (bf16Of p, (v.els[e.2]?).getD Num.zero)
          | _ => none)) acc)
    return { m := m', l := l, o := o }

/-- O and LSE of a row (R202, R203). The one key of a sequence of length one under CAUSAL gives its value row and its score
themselves. -/
def Row.finish (single : Bool) (r : Row) : W (List Num × Num) := do
  if r.m = .inf true then return (r.o.map (fun _ => Num.zero), .inf true)
  else if single && r.m.isFin then return (r.o, r.m)
  else
    let o ← r.o.mapM (fun x => wFlag (opDiv x r.l))
    return (o, ← wAdd r.m (← wFn 0x22 r.l))

/-- The page-table entries that blocks need (R184). -/
def Attn.pages (a : Attn) (q : Seq) (blocks : List Nat) : List Nat :=
  (blocks.flatMap (fun k => (blockKeys q k).map (· / a.pool.tpp))).eraseDups

/-- The page of a key by the item's page list. -/
def Attn.pageOf (a : Attn) (need es : List Nat) (j : Nat) : Nat :=
  match (need.zip es).find? (fun e => e.1 == j / a.pool.tpp) with
  | some e => Kpe.page e.2
  | none => 0

/-- The keys and values of a block at a head; those that `want` leaves out are not read. -/
def Attn.readBlock (a : Attn) (dn : Bool) (q : Seq) (need es : List Nat) (h k : Nat) (want : Nat → Bool) :
    U (List (Nat × Option (GRow × GRow))) :=
  (blockKeys q k).mapM (fun j => do
    if !want j then return (j, none)
    else
      let page := a.pageOf need es j
      let slot := j % a.pool.tpp
      return (j, some (← a.kvRow dn page slot h false, ← a.kvRow dn page slot h true)))

/-- A loop over key blocks with its running state saved after each (R208): the carry holds the page list, the next
block, whether data was lost, and the state. -/
def overBlocks (n : Nat) (blocks : List Nat) (start : List Nat) (body : Nat → List Nat → U (List Nat)) :
    U (List Nat × Bool) := do
  let c0 ← uSaved
  let head := c0.take (2 + n)
  blocks.zipIdx.forM (fun k => do
    let c := (← uSaved).drop (2 + n)
    if (← uOk) && c.getD 0 0 == k.2 then do
      let st := if c = [] then start else c.drop 2
      let before ← (fun a => (a.lost.length, a) : U Nat)
      let new ← uStrict (body k.1 st)
      let after ← (fun a => (a.lost.length, a) : U Nat)
      if ← uOk then
        uCarry (head ++ [k.2 + 1, if before = after then c.getD 1 0 else 1] ++ (if before = after then new else st)))
  let c := (← uSaved).drop (2 + n)
  return (if c = [] then start else c.drop 2, c.getD 1 0 == 1)

/-- The walk of an item; one that needs no entry makes none. -/
def Attn.walk (a : Attn) (c src i : Nat) (need : List Nat) : U (Option (List Nat)) := do
  if need = [] then return some []
  else return (← uWalk c src a.pool a.poolAddr i (a.seqAt i) need).map (·.take need.length)

/-- Draws of an item of ATTN_FWD or of a DQ pass, and of one of a DKV pass. -/
def Attn.itemDraws (a : Attn) (it : Item) : Nat :=
  let d := a.pool.dim
  let on (t : Option TRef) (n : Nat) : Nat := match t with
    | some t => if t.draws then n else 0
    | none => 0
  if it.kv then
    let n := (blockKeys (a.seqAt it.seq) it.first).length * d
    on a.dk n + on a.dv n
  else if a.bwd then on a.dq (it.rows * d)
  else on (some a.o) (it.rows * d) + on (some a.lse) it.rows

/-- Draws of the earlier items of a member. -/
def Attn.base (a : Attn) (items : List (Item × Nat)) (j m : Nat) : Nat :=
  ((items.take j).filter (fun e => e.2 == m)).map (fun e => a.itemDraws e.1) |>.sum

/-- An item of ATTN_FWD. -/
def Attn.fwdItem (a : Attn) (k : Nat) (x : Cmd) (src : Nat) (draw : Nat → Nat) (it : Item) : U PUnit := do
  if ← uFailed k x.count it.seq then pure ⟨⟩
  else
    let q := a.seqAt it.seq
    let d := a.pool.dim
    let dn := (Cvt.ofByte a.o.cvt).denorm
    let rows := (List.range it.rows).map (it.first + ·)
    let blocks := a.computed q it.part it.first it.rows
    let need := a.pages q blocks
    match ← a.walk (k / 64) src it.seq need with
    | none => pure ⟨⟩
    | some es =>
      let n := if need = [] then 0 else need.length
      let start := rows.flatMap (fun _ => (Row.start d).save)
      let (st, bad) ← overBlocks n blocks start (fun b st => do
        let kvs ← a.readBlock dn q need es it.head b (fun _ => true)
        let qs ← rows.mapM (fun r => a.queryRow dn a.q (a.qRow q it.head r))
        let out ← uLane ((chunks (d + 2) (st.length + 1) st).zip (rows.zip qs) |>.mapM (fun e =>
          a.rowStep e.2.2 (kvs.map (fun kv => if a.visible q (a.pos q e.2.1) kv.1 then kv.2 else none)) (Row.load e.1)))
        return out.flatMap Row.save)
      if (← uOk) && !bad then do
        let states := (chunks (d + 2) (st.length + 1) st).map Row.load
        let outs ← uLane (states.mapM (Row.finish (q.kvLen == 1 && a.mask == 1)))
        if it.part = 0 then
          rows.forM (fun r =>
            let pos := a.pos q r
            let sees := decide (q.keyStart < q.kvLen) && (List.range (ceilDiv q.kvLen 64)).any (fun b =>
              (blockKeys q b).any (a.visible q pos))
            if sees then pure ⟨⟩ else uFlags { noAttend := true })
        uVals a.sumEn (outs.flatMap (·.1))
        let at0 := it.part * a.q.rows
        (rows.zip outs).zipIdx.forM (fun e =>
          a.o.writeRow (fun i => draw (e.2 * d + i)) (at0 + a.qRow q it.head e.1.1) 0 e.1.2.1)
        let used := if a.o.draws then it.rows * d else 0
        (rows.zip outs).zipIdx.forM (fun e =>
          a.lse.writeRow (fun _ => draw (used + e.2)) (at0 + a.qRow q it.head e.1.1) 0 [e.1.2.2])
        uCarry []
      else if ← uOk then uCarry []

/-! ### ATTN_BWD (R207) -/

/-- A query row of ATTN_BWD as both passes use it. -/
structure BRow where
  q : GRow
  dO : List Num
  lse : Num
  d : Num
  deriving DecidableEq, Repr

/-- The inputs of a query row, with D_r (R207). -/
def Attn.readRow (a : Attn) (r : Nat) : U BRow := do
  let q ← a.queryRow false a.q r
  let o ← a.o.get false r 0 a.pool.dim
  let dO ← a.dO.get false r 0 a.pool.dim
  let l ← a.lse.get false r 0 1
  let d ← uLane (do
    let ps ← (dO.zip o).mapM (fun e => do return some (← wMul e.1 e.2))
    return (← reduceTree (redOp 0) ps).getD Num.zero)
  return { q := q, dO := dO, lse := l.headD Num.zero, d := d }

/-- p and dS of a row and a key. -/
def Attn.gradStep (a : Attn) (r : BRow) (key val : GRow) : W (Num × Num) := do
  let s ← wMul a.scale (← wRowDot r.q key)
  let p ← wFn 0x20 (← wSub s r.lse)
  let dp ← wRowDot { els := r.dO } val
  return (p, ← wMul p (← wSub dp r.d))

/-- A row whose LSE is −Inf takes no part. -/
def BRow.live (r : BRow) : Bool := r.lse != .inf true

/-- An item of a DKV pass: dK and dV of one key block, over the query rows in ascending order in groups of 32. -/
def Attn.kvItem (a : Attn) (k : Nat) (x : Cmd) (src : Nat) (draw : Nat → Nat) (it : Item) : U PUnit := do
  if ← uFailed k x.count it.seq then pure ⟨⟩
  else
    let q := a.seqAt it.seq
    let d := a.pool.dim
    let rows := a.blockRows q it.first
    let keys := blockKeys q it.first
    let need := if rows = [] then [] else a.pages q [it.first]
    match ← a.walk (k / 64) src it.seq need with
    | none => pure ⟨⟩
    | some es => do
      uStrict (do
        let kvs ← a.readBlock false q need es it.head it.first (fun _ => rows != [])
        let zero := keys.map (fun _ => (List.replicate d Num.zero, List.replicate d Num.zero))
        -- groups of 32 by the row's number in the sequence
        let groups := (rows.map (· / 32)).eraseDups
        let sums ← groups.foldlM (fun acc g => do
          let rs ← (rows.filter (fun r => r / 32 == g)).mapM (fun r => do return (r, ← a.readRow (a.qRow q it.head r)))
          uLane ((acc.zip kvs).mapM (fun e => do
            let steps ← rs.mapM (fun r => match e.2.2 with
              | some (key, val) =>
                if r.2.live && a.visible q (a.pos q r.1) e.2.1 then do
                  let (p, ds) ← a.gradStep r.2 key val
                  return some (bf16Of p, bf16Of ds, r.2)
                else return none
              | none => return none)
            let on (f : Num × Num × BRow → Num × Num) := steps.map (fun s => s.map f)
            let dk ← e.1.1.zipIdx.mapM (fun c => wSteps (on (fun s => (s.2.1, (s.2.2.q.els[c.2]?).getD Num.zero))) c.1)
            let dv ← e.1.2.zipIdx.mapM (fun c => wSteps (on (fun s => (s.1, (s.2.2.dO[c.2]?).getD Num.zero))) c.1)
            return (dk, dv)))) zero
        let dks ← uLane (sums.mapM (fun e => e.1.mapM (fun v => wMul a.scale v)))
        match a.dk, a.dv with
        | some dk, some dv => do
          let row (i : Nat) := (q.kvRow + 64 * it.first + i) * a.pool.heads + it.head
          dks.zipIdx.forM (fun e => dk.writeRow (fun i => draw (e.2 * d + i)) (row e.2) 0 e.1)
          let used := if dk.draws then keys.length * d else 0
          sums.zipIdx.forM (fun e => dv.writeRow (fun i => draw (used + e.2 * d + i)) (row e.2) 0 e.1.2)
        | _, _ => pure ⟨⟩)
      if ← uOk then uCarry []

/-- An item of a DQ pass. -/
def Attn.qItem (a : Attn) (k : Nat) (x : Cmd) (src : Nat) (draw : Nat → Nat) (it : Item) : U PUnit := do
  if ← uFailed k x.count it.seq then pure ⟨⟩
  else
    let q := a.seqAt it.seq
    let d := a.pool.dim
    let rows := (List.range it.rows).map (it.first + ·)
    let blocks := a.computed q 0 it.first it.rows
    let need := a.pages q blocks
    match ← a.walk (k / 64) src it.seq need with
    | none => pure ⟨⟩
    | some es =>
      let start := rows.flatMap (fun _ => List.replicate d (x36Code Num.zero))
      let (st, bad) ← overBlocks need.length blocks start (fun b st => do
        let kvs ← a.readBlock false q need es it.head b (fun _ => true)
        let rs ← rows.mapM (fun r => do return (r, ← a.readRow (a.qRow q it.head r)))
        let out ← uLane ((chunks d (st.length + 1) st).zip rs |>.mapM (fun e => do
          if !e.2.2.live then return e.1
          else
            let steps ← kvs.mapM (fun kv => match kv.2 with
              | some (key, val) =>
                if a.visible q (a.pos q e.2.1) kv.1 then do
                  let (_, ds) ← a.gradStep e.2.2 key val
                  return some (bf16Of ds, key)
                else return none
              | none => return none)
            e.1.zipIdx.mapM (fun c => do
              return x36Code (← wSteps (steps.map (fun s => s.map (fun p => (p.1, (p.2.els[c.2]?).getD Num.zero)))) (x36Of c.1)))))
        return out.flatten)
      if (← uOk) && !bad then do
        uStrict (do
          let ls ← rows.mapM (fun r => a.lse.get false (a.qRow q it.head r) 0 1)
          let sums := (chunks d (st.length + 1) st).map (fun c => c.map x36Of)
          let outs ← uLane ((sums.zip ls).mapM (fun e => e.1.mapM (fun v =>
            if e.2.any Num.isNan then pure .nan else wMul a.scale v)))
          match a.dq with
          | some dq => (rows.zip outs).zipIdx.forM (fun e =>
              dq.writeRow (fun i => draw (e.2 * d + i)) (a.qRow q it.head e.1.1) 0 e.1.2)
          | none => pure ⟨⟩)
        if ← uOk then uCarry []
      else if ← uOk then uCarry []

/-! ### The engine -/

def attnPrep (bwd : Bool) (s : State) (k : Nat) (x : Cmd) : U Prep := do
  match ← readDesc x (if bwd then 512 else 256) 64 with
  | .error e => return .error e
  | .ok d =>
    let raw := Attn.parse bwd d [] []
    let early : Except Nat Unit := do
      need (raw.headOk && raw.passOk) St.descInvalid
      raw.refs
      need raw.fmtOk St.fmtUnsupported
    match early with
    | .error e => return .error e
    | .ok _ =>
      let (pb, tb) ← uKvTables raw.poolAddr raw.seqAddr raw.count
      let a := Attn.parse bwd d pb tb
      return (do
        need (a.pool.ok (s.kvMode (k / 64))) St.descInvalid
        need a.poolFmtOk St.fmtUnsupported
        need a.shapeOk St.descInvalid
        .ok (d, [pb, tb]))

def Attn.foot (a : Attn) : List (Nat × Nat × Bool) :=
  a.ins.flatMap (fun t => t.foot false) ++ a.outs.flatMap (fun t => t.foot true) ++
  a.tableSpans.map (fun p => footRange p.1 p.2 false) ++
  [footRange a.pool.base (a.pool.pages * 65536) false] ++
  (if a.pool.blocked then [footRange a.pool.scale (a.pool.pages * 2048) false] else [])

/-- The engine of ATTN_FWD and ATTN_BWD. -/
def attnEngine (bwd : Bool) : Engine where
  prep := attnPrep bwd
  foot := fun x => (Attn.ofCmd bwd x).foot
  rows := fun _ => Res.attn
  tiled := true
  early := fun _ => pure false
  plan := fun k x =>
    let a := Attn.ofCmd bwd x
    let items := a.items x.tiles.length
    let tileAt (m : Nat) : Nat := (x.tiles[m]?).getD 0
    { units := items.zipIdx.map (fun e => (e.2, Unit.tile (tileAt e.1.2)))
      run := fun j => match items[j]? with
        | none => pure ⟨⟩
        | some (it, m) =>
          let base := a.base items j m
          let draw (i : Nat) := x.draw (tileAt m) (base + i)
          if it.kv then a.kvItem k x (Unit.tile (tileAt m)) draw it
          else if bwd then a.qItem k x (Unit.tile (tileAt m)) draw it
          else a.fwdItem k x (Unit.tile (tileAt m)) draw it
      share := shareSummary (!bwd && a.sumEn) k (fieldAt a.b 40 0 6) (fieldAt a.b 41 0 2)
        (fun j => ((items[j]?).map (·.2)).getD 0) items.length
      fin := fun y s => s.failedSeqs k y }

end Sys2Proof.Machine
end

