-- ==== Sys2Proof/Machine/KvOp.lean ====
section
/-!
DEFINITION. KV_PAGE_OP (R192 to R198): the owner die bar's operations on page tables, page counts, the free stack and the
tree of shared prefixes.
-/
namespace Sys2Proof.Machine

structure KvOp where
  b : List Byte
  op : Nat
  poolAddr : Nat
  pt : Nat
  first : Nat
  count : Nat
  src : Nat
  result : Nat
  deriving DecidableEq, Repr

def KvOp.parse (d : List Byte) : KvOp :=
  { b := d, op := fieldAt d 0 0 8, poolAddr := fieldAt d 8 0 64, pt := fieldAt d 16 0 64, first := fieldAt d 24 0 32,
    count := fieldAt d 28 0 32, src := fieldAt d 32 0 64, result := fieldAt d 40 0 64 }

abbrev KvOp.alloc : Nat := 1
abbrev KvOp.release : Nat := 2
abbrev KvOp.share : Nat := 3
abbrev KvOp.lookup : Nat := 4
abbrev KvOp.insert : Nat := 5
abbrev KvOp.remove : Nat := 6

/-- The field rules of R197 and the modes of R192. -/
def KvOp.ok (p : KvOp) (mode : Nat) : Bool :=
  let tree := p.op == KvOp.lookup || p.op == KvOp.insert
  1 ≤ p.op && p.op ≤ 6 && zeroAt p.b 1 8 && p.poolAddr % 64 == 0 && p.pt % 64 == 0 && (!tree || p.first == 0) &&
  1 ≤ p.count && p.count ≤ 65536 && (tree || p.op == KvOp.share || p.src == 0) && (p.op != KvOp.share || p.src % 64 == 0) &&
  p.result % 4 == 0 && zeroAt p.b 48 64 &&
  (if mode = 0 then false else if mode = 1 then p.op ≤ 3 else p.op != KvOp.share)

/-! ### The hash chain and the buckets (R195, R196) -/

/-- H_k from H_{k−1} and the token IDs of page k as bytes. -/
def kvHash (prev : Nat) (tokens : List Byte) : Nat := leNat ((sha3 (natLE 8 prev ++ tokens)).take 8)

/-- A slot of a bucket. -/
structure Slot where
  addr : Nat
  hash : Nat
  page : Nat
  parent : Nat
  deriving DecidableEq, Repr

abbrev Slot.none : Nat := 0xFFFFFFFF

/-- The four slots of bucket `i`. -/
def uBucket (p : Pool) (i : Nat) : U (List Slot) := do
  let b ← uRead (p.tree + 64 * i) 64
  return (List.range 4).map (fun j =>
    { addr := p.tree + 64 * i + 16 * j, hash := fieldAt b (16 * j) 0 64, page := fieldAt b (16 * j + 8) 0 32,
      parent := fieldAt b (16 * j + 12) 0 32 })

/-- The bytes at an address, read only when asked for, equal `bs`. -/
def uSame (ask : Bool) (va : Nat) (bs : List Byte) : U Bool := do
  if !ask then return false else return (← uRead va bs.length) == bs

/-- What a bucket says of a page: a hit, the first slot whose hash matches and nothing else does, or neither. -/
def uFind (p : Pool) (slots : List Slot) (h parent : Nat) (tokens : List Byte) : U (Option Slot × Option Slot) :=
  slots.foldlM (fun acc s => do
    if acc.1.isSome || s.page = Slot.none || s.hash ≠ h then return acc
    else
      let same ← uSame (s.parent == parent) (p.token + s.page * 4 * p.tpp) tokens
      if same then return (some s, acc.2) else return (acc.1, acc.2.or (some s))) (none, none)

/-! ### Entries one at a time (R198) -/

/-- REFS of a page changed; at zero the page goes back on the stack. -/
def uUnref (p : Pool) (page : Nat) : U PUnit := do
  let refs ← uNat (p.pft + 4 * page) 4
  uOut (p.pft + 4 * page) (natLE 4 (refs - 1))
  if refs = 1 then do
    let top ← uNat p.free 4
    uOut (p.free + 8 + 4 * top) (natLE 4 page)
    uOut p.free (natLE 4 (top + 1))

def uRef (p : Pool) (page : Nat) : U PUnit := do
  let refs ← uNat (p.pft + 4 * page) 4
  uOut (p.pft + 4 * page) (natLE 4 (refs + 1))

/-- The state between entries: the next entry, stopped, the page and hash of the entry before, whether the collision
notice has been raised. -/
structure KvOpSt where
  next : Nat := 0
  stopped : Bool := false
  page : Nat := Slot.none
  hash : Nat
  told : Bool := false
  deriving DecidableEq, Repr

def KvOpSt.save (t : KvOpSt) : List Nat := [t.next, b2n t.stopped, t.page, t.hash, b2n t.told]
def KvOpSt.load (salt : Nat) (c : List Nat) : KvOpSt :=
  if c = [] then { hash := salt }
  else { next := c.getD 0 0, stopped := c.getD 1 0 == 1, page := c.getD 2 0, hash := c.getD 3 0, told := c.getD 4 0 == 1 }

/-- What an entry leaves: its result, the page and hash of the chain, whether the operation stops, and the notice to
raise: code and arguments. -/
structure KvRes where
  code : Nat
  page : Nat := Slot.none
  hash : Nat := 0
  stop : Bool := false
  notice : Option (Nat × Nat × Nat × Nat) := none
  deriving DecidableEq, Repr

/-- One entry; its writes wait until it has read everything. -/
def KvOp.entry (o : KvOp) (p : Pool) (k : Nat) (t : KvOpSt) : U KvRes := do
  let at0 := ptEntry o.pt k
  let e ← uNat at0 8
  let hd ← uNat o.pt 8
  let gen := hd % 2 ^ 32
  let len := bitsOf hd 32 32
  if o.op = KvOp.alloc then
    if Kpe.valid e then return { code := 2 }
    else
      let top ← uNat p.free 4
      if top = 0 then return { code := 4 }
      else
        let n ← uNat (p.free + 8 + 4 * (top - 1)) 4
        uOut p.free (natLE 4 (top - 1))
        uOut (p.pft + 4 * n) (natLE 4 1)
        uOut at0 (natLE 8 (kpe n gen true false))
        return { code := 0 }
  else if o.op = KvOp.release then
    if !Kpe.valid e then return { code := 3 }
    else
      uOut at0 (natLE 8 (kpe (Kpe.page e) gen false (Kpe.shared e)))
      uUnref p (Kpe.page e)
      return { code := 0 }
  else if o.op = KvOp.share then
    if Kpe.valid e then return { code := 2 }
    else
      let f ← uNat (ptEntry o.src k) 8
      if !Kpe.valid f then return { code := 3 }
      else
        uOut at0 (natLE 8 (kpe (Kpe.page f) gen true false))
        uRef p (Kpe.page f)
        return { code := 0 }
  else if o.op = KvOp.remove then
    if !Kpe.valid e then return { code := 11 }
    else
      let hit ← (List.range (2 ^ p.treeLog)).foldlM (fun (acc : Option Slot) i => do
        if acc.isSome then return acc
        else return (← uBucket p i).find? (fun s => s.page == Kpe.page e)) none
      match hit with
      | none => return { code := 11 }
      | some s =>
        uOut (s.addr + 8) (natLE 4 Slot.none)
        uUnref p (Kpe.page e)
        return { code := 0 }
  else
    let tokens ← uRead (o.src + 4 * p.tpp * k) (4 * p.tpp)
    let h := kvHash t.hash tokens
    let i := h % 2 ^ p.treeLog
    if o.op = KvOp.lookup then
      if Kpe.valid e then return { code := 2, page := Kpe.page e, hash := h }
      else
        let (hit, near) ← uFind p (← uBucket p i) h t.page tokens
        match hit, near with
        | some s, _ =>
          uOut at0 (natLE 8 (kpe s.page gen true true))
          uRef p s.page
          return { code := 1, page := s.page, hash := h }
        | none, some s => return { code := 6, hash := h, stop := true, notice := some (0x0805, k, s.page, h % 2 ^ 32) }
        | none, none => return { code := 5, hash := h, stop := true }
    else
      let own := Kpe.page e
      if !Kpe.valid e then return { code := 3, page := own, hash := h }
      else if len < (k + 1) * p.tpp then return { code := 10, page := own, hash := h }
      else
        let slots ← uBucket p i
        let (hit, _) ← uFind p slots h t.page tokens
        match hit with
        | some s => return { code := 8, page := s.page, hash := h }
        | none => match slots.find? (fun s => s.page == Slot.none) with
          | none => return { code := 9, page := own, hash := h, notice := some (0x0806, k, i, own) }
          | some s =>
            uOut s.addr (natLE 8 h ++ natLE 4 own ++ natLE 4 t.page)
            uOut (p.token + own * 4 * p.tpp) tokens
            uRef p own
            uOut at0 (natLE 8 (kpe own gen true true))
            return { code := 0, page := own, hash := h }

/-- The severity of a notice of KV_PAGE_OP: INFO for a collision, WARN for a full bucket (R212). -/
def kvSev (code : Nat) : Nat := if code = 0x0805 then Sev.info else Sev.warn

/-- The entries in turn, each written before the next begins (R193, R208). -/
def KvOp.run (o : KvOp) (c src : Nat) (p : Pool) : U PUnit := do
  (List.range o.count).forM (fun i => do
    let t := KvOpSt.load p.salt (← uSaved)
    if (← uOk) && t.next == i then do
      let r ← uStrict (do
        let r ← if t.stopped then pure { code := 7 } else o.entry p (o.first + i) t
        uOut (o.result + 4 * i) (natLE 4 r.code)
        if 1 < r.code then uCount 1
        return r)
      if ← uOk then do
        match r.notice with
        | some (code, a1, a2, a3) =>
          if code = 0x0805 then uBump F.ctxKvCounts_COLLISIONS c
          if code ≠ 0x0805 || !t.told then
            uRaise { code := code, sev := kvSev code, ctx := some c, data := src, ctrl := unitPath src, a1 := a1, a2 := a2, a3 := a3 }
        | none => pure ⟨⟩
        uCarry ({ next := i + 1, stopped := t.stopped || r.stop, page := r.page, hash := r.hash,
                  told := t.told || (r.notice.any (fun n => n.1 == 0x0805)) } : KvOpSt).save
        uFlush)
  if ← uOk then uCarry []

/-- The engine of the six page operations. -/
def kvPageEngine : Engine where
  prep := fun s k x => do
    match ← readDesc x 64 8 with
    | .error e => return .error e
    | .ok d =>
      let o := KvOp.parse d
      let mode := s.kvMode (k / 64)
      if !o.ok mode then return .error St.descInvalid
      else
        let pb ← uRead o.poolAddr 128
        return (do need ((Pool.parse pb).ok mode) St.descInvalid; .ok (d, [pb]))
  foot := fun x =>
    let o := KvOp.parse x.desc
    [footRange o.poolAddr 128 false, footRange o.pt (64 + 8 * (o.first + o.count)) false, footRange o.result (4 * o.count) true]
  early := fun _ => pure false
  plan := fun k x =>
    let o := KvOp.parse x.desc
    let p := Pool.parse ((x.tables[0]?).getD [])
    { units := [(0, Unit.die p.die)], run := fun _ => o.run (k / 64) (Unit.die p.die) p }

end Sys2Proof.Machine
end

