-- ==== Sys2Proof/Machine/Train.lean ====
section
/-!
DEFINITION. Training state (R218 to R245): master values, the step of an element, OPT_STEP with its statistics and
telemetry, digest streams, and STATE_EXPORT.
-/
namespace Sys2Proof.Machine

/-! ### Master values (R218 to R220) -/

/-- The exponent of ulp(h), from the code of a head. -/
def ulpExp (h : Nat) : Int := max (bitsOf h 7 8 : Int) 1 - 134

/-- The value of a head and a tail. -/
def masterOf (h t : Nat) : Num :=
  let v := Fmt.bf16.decode h
  if v.isFin then v.add ((Num.ofInt (signed 16 t)).shift (ulpExp h - 16)) else v

/-- An integer value. -/
def Num.int : Num → Int
  | .fin n m e => let v := if e ≥ 0 then m <<< e.toNat else m >>> (-e).toNat; if n then -(v : Int) else v
  | _ => 0

/-- A head and a tail from a value: codes, the overflow of the head, the saturation of the tail. -/
def splitMaster (x : Num) : Nat × Nat × Bool × Bool :=
  let (hv, fl) := Fmt.bf16.round {} none x
  let h := Fmt.bf16.code hv
  if !hv.isFin then (h, 0, fl.overflow, false)
  else
    let t := (rintNum ((x.sub hv).shift (16 - ulpExp h))).int
    if t ≥ 32768 then (h, 32767, false, true) else (h, (t % 65536).toNat, false, false)

/-! ### One element (R230) -/

/-- The constants of a step: gradient scale, BC1, BC2. -/
structure StepK where
  gs : Num
  bc1 : Num
  bc2 : Num
  deriving DecidableEq, Repr

/-- What an element leaves. -/
structure Elem where
  h : Nat
  t : Nat
  m : Num
  r : Num
  w : Num
  d : Num
  isOver : Bool
  sat : Bool
  nonfinite : Bool
  deriving DecidableEq, Repr

/-- One minus a constant, rounded once. -/
def oneMinus (x : Num) : Num := (x36 (Num.one.sub x)).1

def wElem (g : PGroup) (k : StepK) (grad : Num) (h t : Nat) (mOld rOld : Num) : W Elem := do
  let gr ← wMul grad k.gs
  let w := masterOf h t
  let m ← wFma (g.const 2) mOld (← wMul (oneMinus (g.const 2)) gr)
  let v ← wFma (g.const 3) (← wMul rOld rOld) (← wMul (oneMinus (g.const 3)) (← wMul gr gr))
  let r ← wFn 0x24 v
  let u ← wOp 0x05 (← wMul k.bc1 m) (← wFma k.bc2 r (g.const 4)) Num.zero
  let d ← wMul (g.const 0).neg (← wFma (g.const 1) w u)
  let x ← wAdd w d
  let (hn, tn, isOver, sat) := splitMaster x
  return { h := hn, t := tn, m := m, r := r, w := w, d := d, isOver := isOver, sat := sat, nonfinite := !x.isFin }

/-- Elements with their flags: only INVALID is raised by the arithmetic (R233). -/
def elems (g : PGroup) (k : StepK) (xs : List (Num × Nat × Nat × Num × Num)) : List Elem × Fl :=
  let (es, f) := (xs.mapM (fun x => wElem g k x.1 x.2.1 x.2.2.1 x.2.2.2.1 x.2.2.2.2)).run {}
  (es, { invalid := f.invalid, overflow := es.any (·.isOver) })

/-- S_w, S_d, saturated tails and non-finite elements of a strip (R236). -/
def stripStats (es : List Elem) : List Nat :=
  let sum (f : Elem → Num) : Nat := x36Code (((do
    let sq ← es.mapM (fun e => do return some (← wMul (f e) (f e)))
    return (← reduceTree (redOp 0) sq).getD Num.zero : W Num).run {}).1)
  [sum (·.w), sum (·.d), (es.filter (·.sat)).length, (es.filter (·.nonfinite)).length]

/-! ### The descriptor (R228, R229) -/

structure Opt where
  b : List Byte
  op : Nat
  wire : Nat
  gradFmt : Nat
  slot : Nat
  fromSum : Bool
  first : Nat
  count : Nat
  target : Nat
  telem : Nat
  deriving DecidableEq, Repr

def Opt.parse (d : List Byte) : Opt :=
  { b := d, op := fieldAt d 1 0 2, wire := fieldAt d 1 2 1, gradFmt := fieldAt d 2 0 8, slot := fieldAt d 3 0 6,
    fromSum := fieldAt d 3 6 1 == 1, first := fieldAt d 4 0 16, count := fieldAt d 6 0 16, target := fieldAt d 8 0 64,
    telem := fieldAt d 32 0 64 }

def Opt.bc (o : Opt) (i : Nat) : Num := fp32At o.b (24 + 4 * i)

def Opt.ok (o : Opt) (loan : Bool) : Bool :=
  let d := o.b
  fieldAt d 0 0 8 == 1 && (if loan then o.op < 3 else o.op == 0 && o.wire == 0) && fieldAt d 1 3 5 == 0 && biasCode o.gradFmt &&
  (if o.fromSum then zeroAt d 16 24 else o.slot == 0 && x36FieldOk d 16 && (x36Field d 16).isFin) && fieldAt d 3 7 1 == 0 &&
  1 ≤ o.count && (List.range 2).all (fun i => (o.bc i).isFin && !(o.bc i).isZero && !(o.bc i).isNeg) && zeroAt d 40 64

/-- The group entries of a range; none where one is beyond LAST. -/
def uGroups (c first n : Nat) : U (Option (List Byte)) := do
  let s ← uState
  if s.rd F.ctxPgroup_TABLE_ADDR c = 0 ∨ first + n > s.rd F.ctxPgroup_LAST c + 1 then return none
  else return some (← uRead (s.rd F.ctxPgroup_TABLE_ADDR c + 128 * first) (128 * n))

def groupsOf (t : List Byte) : List PGroup := (chunks 128 (t.length + 1) t).map PGroup.parse

/-- The member's step state is IN_DOUBT (R268). -/
def State.inDoubt (s : State) (c : Nat) : Bool := s.rd F.ctxStepState_STATE c == 3

/-- The reading and the checks of OPT_STEP and LOAN_STEP (R229, R248, R268). -/
def optPrep (loan : Bool) (s : State) (k : Nat) (x : Cmd) : U Prep := do
  match ← readDesc x 64 8 with
  | .error e => return .error e
  | .ok d =>
    let o := Opt.parse d
    if !o.ok loan then return .error St.descInvalid
    else match ← uGroups (k / 64) o.first o.count with
      | none => return .error St.descInvalid
      | some t => return (do
          need ((groupsOf t).all (fun g => g.ok && !g.frozen && (g.tier == 1) == loan)) St.descInvalid
          need (!loan || o.op != 2 || (groupsOf t).all (fun g => g.tail != 0 && g.mom != 0)) St.descInvalid
          need (!s.inDoubt (k / 64) && ((loan && o.op != 0) || o.target == s.rd F.ctxVersion_CURRENT (k / 64) + 1)) St.versionMismatch
          .ok (d, [t]))

/-! ### OPT_STEP (R230 to R238) -/

/-- Strips of the groups before group `i`. -/
def stripsTo (gs : List PGroup) (i : Nat) : Nat := ((gs.take i).map (fun g => ceilDiv g.elems 4096)).sum

/-- The group, the first element and the elements of strip `j`. -/
def stripGroup : List PGroup → Nat → Nat → Option (Nat × PGroup × Nat × Nat)
  | [], _, _ => none
  | g :: t, i, j =>
    let n := ceilDiv g.elems 4096
    if j < n then some (i, g, 4096 * j, min 4096 (g.elems - 4096 * j)) else stripGroup t (i + 1) (j - n)

/-- Draws of a strip: m, r, and the cast of a new head (R64, R227). -/
def PGroup.casts (g : PGroup) (t : Nat) : Bool := g.castEn && t % g.castEvery == 0
def PGroup.stripDraws (g : PGroup) (t n : Nat) : Nat :=
  (if (Cvt.ofByte g.momCvt).stoch then 2 * n else 0) + (if g.casts t && (Cvt.ofByte g.castCvt).stoch then n else 0)

/-- The planes of a moment as a tensor of one row. -/
def PGroup.mRef (g : PGroup) (n : Nat) : TRef := slotRef 3 g.momCvt g.mCoarse g.elems (g.momAt n)
def PGroup.rRef (g : PGroup) (n : Nat) : TRef := slotRef 3 g.momCvt g.rCoarse g.elems (g.momAt n + momR g.elems)

/-- Codes of 16 bits at an address. -/
def uHalves (va n : Nat) : U (List Nat) := do
  let b ← uRead va (2 * n)
  return (List.range n).map (fun i => fieldAt b (2 * i) 0 16)

/-- The flags of a moment as it is written: OVERFLOW where a block takes the overflow code (R233). -/
def momentFlags (o : RowOut) : Fl := o.flags.or { overflow := (((o.writes[1]?).map (·.2)).getD []).any (· == 0xFE) }

/-- A moment written. -/
def TRef.writeMoment (t : TRef) (draw : Nat → Nat) (j : Nat) (xs : List Num) : U PUnit := do
  t.writeRow draw 0 j xs
  uFlags (momentFlags (t.encodeRow draw 0 j xs))

/-- One strip (R230, R231, R234). -/
def optStrip (x : Cmd) (gs : List PGroup) (o : Opt) (k : StepK) (j : Nat) : U PUnit := uStrict do
  match stripGroup gs 0 j with
  | none => pure ⟨⟩
  | some (_, g, e, n) =>
    let t := o.target
    let tile := x.member j
    let base := ((x.before j).map (fun i => match stripGroup gs 0 i with
      | some (_, g, _, n) => g.stripDraws t n
      | none => 0)).sum
    let (grad, _) ← (slotRef o.gradFmt 0 0 g.elems g.grad).readNums false 0 e n
    let hs ← uHalves (g.headAt (t - 1) + 2 * e) n
    let ts ← uHalves (g.tailAt (t - 1) + 2 * e) n
    let (ms, _) ← (g.mRef (t - 1)).readNums false 0 e n
    let (rs, _) ← (g.rRef (t - 1)).readNums false 0 e n
    let (es, fl) := elems g k (grad.zip (hs.zip (ts.zip (ms.zip rs))))
    uFlags fl
    uPart (stripStats es)
    uOut (g.headAt t + 2 * e) (es.flatMap (fun z => natLE 2 z.h))
    uOut (g.tailAt t + 2 * e) (es.flatMap (fun z => natLE 2 z.t))
    (g.mRef t).writeMoment (fun i => x.draw tile (base + i)) e (es.map (·.m))
    let used := if (Cvt.ofByte g.momCvt).stoch then n else 0
    (g.rRef t).writeMoment (fun i => x.draw tile (base + used + i)) e (es.map (·.r))
    if g.casts t then do
      let c := slotRef g.castFmt g.castCvt g.castCoarse g.elems (g.castAt t)
      let out := c.encodeRow (fun i => x.draw tile (base + 2 * used + i)) 0 e (es.map (fun z => Fmt.bf16.decode z.h))
      out.writes.forM (fun w => uOut w.1 w.2)
      uFlags out.flags
      uVanish out.vanished
      if c.draws then uDraws n

/-- The statistics of a group: S_w, S_d, TAIL_SAT, NONFINITE (R236). -/
def groupStats (gs : List PGroup) (x : Cmd) (i : Nat) : Num × Num × Nat × Nat :=
  let lo := stripsTo gs i
  let ps := (List.range (stripsTo gs (i + 1) - lo)).filterMap (fun j => look x.parts (lo + j))
  let sum (q : Nat) : Num := ((ps.foldlM (fun (a : Option Num) p => do
    let v := x36Of (p.getD q 0)
    match a with
    | none => return some v
    | some a => return some (← wAdd a v) : Option Num → List Nat → W (Option Num)) none).run {}).1.getD Num.zero
  (sum 0, sum 1, (ps.map (·.getD 2 0)).sum, (ps.map (·.getD 3 0)).sum)

/-- RATIO, RMS_W, RMS_D (R236). -/
def groupRatio (g : PGroup) (sw sd : Num) : Num × Num × Num :=
  let rms (s : Num) : Num := ((do wFn 0x24 (← wDivN s (Num.ofNat g.elems)) : W Num).run {}).1
  let w := rms sw
  let d := rms sd
  (if w.isZero && d.isZero then Num.zero else (opDiv d w).1, w, d)

def fp32Code (x : Num) : Nat := Fmt.fp32.code (Fmt.fp32.round {} none x).1

/-- The telemetry entry (R237). -/
def telemEntry (ratio w d : Num) (version sat bad : Nat) : List Byte :=
  natLE 4 (fp32Code ratio) ++ natLE 4 (fp32Code w) ++ natLE 4 (fp32Code d) ++ natLE 4 (version % 2 ^ 32) ++
  natLE 4 (min sat (2 ^ 32 - 1)) ++ natLE 4 (min bad (2 ^ 32 - 1)) ++ natLE 8 0

/-- The cause of UPDATE_RATIO (R238, R254). -/
def ratioCause (g : PGroup) (r : Num) : Option Nat :=
  if r.isNan then some 2
  else if !(g.const 6).isZero && (g.const 6).lt r then some 1
  else if !(g.const 5).isZero && r.lt (g.const 5) then some 0
  else none

/-- The notices and counts of a group (R238, R253): `unit` and `path` name who met the event. -/
def State.groupNotices (s : State) (c unit path gno target : Nat) (cause : Option Nat) (ratio32 sat bad : Nat) : State :=
  let s := s.count F.ctxTrainCounts_TAIL_SAT c sat
  let s := s.count F.ctxTrainCounts_NONFINITE c bad
  let s := match cause with
    | some q => (s.count F.ctxTrainCounts_RATIO c 1).raise
        { code := 0x0901, sev := Sev.warn, ctx := some c, data := unit, ctrl := path, a1 := gno, a2 := ratio32, a3 := q }
    | none => s
  if bad = 0 then s
  else s.raise { code := 0x0906, sev := Sev.warn, ctx := some c, data := unit, ctrl := path, a1 := gno, a2 := bad % 2 ^ 32, a3 := target % 2 ^ 32 }

/-- TAIL_SATURATED, once for a command: groups with their counts (R238). -/
def State.tailNotice (s : State) (c unit path target : Nat) (sats : List (Nat × Nat)) : State :=
  match sats.filter (fun e => e.2 != 0) with
  | [] => s
  | (g, _) :: _ =>
    s.raise { code := 0x0903, sev := Sev.info, ctx := some c, data := unit, ctrl := path, a1 := g,
              a2 := (sats.map (·.2)).sum % 2 ^ 32, a3 := target % 2 ^ 32 }

/-- The end of an OPT_STEP. -/
def optFin (k : Nat) (gs : List PGroup) (o : Opt) (x : Cmd) (s : State) : State × Nat :=
  let c := k / 64
  let d := s.fetchDie k
  let rows := gs.zipIdx.map (fun g =>
    let (sw, sd, sat, bad) := groupStats gs x g.2
    let (ratio, _, _) := groupRatio g.1 sw sd
    (o.first + g.2, ratioCause g.1 ratio, fp32Code ratio, sat, bad))
  let s := rows.foldl (fun s r => s.groupNotices c (Unit.die d) (Path.bar d) r.1 o.target r.2.1 r.2.2.1 r.2.2.2.1 r.2.2.2.2) s
  (s.tailNotice c (Unit.die d) (Path.bar d) o.target (rows.map (fun r => (r.1, r.2.2.2.1))), St.ok)

/-- The gradient scale of a tile's share: the immediate, or the slot as read at the start of the share. -/
def Opt.scale (o : Opt) (x : Cmd) (i : Nat) : Num :=
  if o.fromSum then x36Of ((x.aux[i]?).getD 0) else x36Field o.b 16

def optPlan (k : Nat) (x : Cmd) : Plan :=
  let o := Opt.parse x.desc
  let gs := groupsOf ((x.tables[0]?).getD [])
  let n := stripsTo gs gs.length
  { units := tileUnits x.tiles n
    run := fun j =>
      if j < n then optStrip x gs o { gs := o.scale x (j % x.tiles.length), bc1 := o.bc 0, bc2 := o.bc 1 } j
      else do
        match ← uLive k x.count, gs[j - n]? with
        | some y, some g =>
          let (sw, sd, sat, bad) := groupStats gs y (j - n)
          let (ratio, w, d) := groupRatio g sw sd
          uWrite (o.telem + 32 * (j - n)) (telemEntry ratio w d o.target sat bad)
        | _, _ => pure ⟨⟩
    late := fun y => if o.telem = 0 then [] else (List.range gs.length).map (fun i => (n + i, y.unit))
    fin := fun y s => optFin k gs o y s }

/-- The state ranges that the entries of groups name (R256). -/
def PGroup.foot (g : PGroup) (w : Bool) : List (Nat × Nat × Bool) :=
  if g.frozen then [footRange g.head (slotBytes g.headFmt g.elems) false]
  else
    [footRange g.head (g.versions * g.headStride + slotBytes FC.bf16 g.elems) w] ++
    (if g.tail = 0 then [] else [footRange g.tail (g.tailStride + 2 * g.elems) w]) ++
    (if g.mom = 0 then [] else [footRange g.mom (g.momStride + momBytes g.elems) w]) ++
    (if g.castEn then [footRange g.cast (g.castStride + slotBytes g.castFmt g.elems) w] else [])

def optFoot' (x : Cmd) : List (Nat × Nat × Bool) :=
  let o := Opt.parse x.desc
  let gs := groupsOf ((x.tables[0]?).getD [])
  gs.flatMap (fun g => footRange g.grad (payBytes o.gradFmt g.elems) false :: g.foot true) ++
  (if o.telem = 0 then [] else [footRange o.telem (32 * gs.length) true])

def optEngine : Engine where
  prep := optPrep false
  foot := optFoot'
  rows := fun _ => Res.vec
  tiled := true
  early := fun _ => pure false
  plan := optPlan
  start := fun s k x =>
    let o := Opt.parse x.desc
    let y := { x with aux := if o.fromSum then x.tiles.map (fun t => s.slot (k / 64) t o.slot) else [] }
    (s.updCmd k x.count (fun _ => y)).runPlan k y (optPlan k y)

/-! ### Digest streams (R239, R240) -/

/-- The exact length of a payload: that of a block-scaled one does not fill its last block (R239, log entry 128). -/
def exactBytes (fmt n : Nat) : Nat := if fmtBlocked fmt then ceilDiv (n * blockBytes fmt) 32 else payBytes fmt n

/-- The planes of a group's stream at version `n`: address and bytes. -/
def PGroup.stream (g : PGroup) (headOnly : Bool) (n : Nat) : List (Nat × Nat) :=
  let h := g.headAt n
  let e := g.elems
  if headOnly || g.frozen || g.tier == 1 then
    (h, exactBytes g.headFmt e) ::
    (if fmtBlocked g.headFmt then [(h + slotScale g.headFmt e, ceilDiv e 32)] else []) ++
    (if fmtEscaped g.headFmt then [(h + slotEsc g.headFmt e, 3 * ceilDiv e 32)] else [])
  else
    let m := g.momAt n
    let r := m + momR e
    [(h, 2 * e), (g.tailAt n, 2 * e), (m, e), (m + slotScale 3 e, ceilDiv e 32), (r, e), (r + slotScale 3 e, ceilDiv e 32)]

def streamBytes (ps : List (Nat × Nat)) : Nat := (ps.map (·.2)).sum

/-- Bytes `[o, o + n)` of a stream as ranges of memory. -/
def streamSlice : List (Nat × Nat) → Nat → Nat → List (Nat × Nat)
  | [], _, _ => []
  | p :: t, o, n =>
    if n = 0 then []
    else if p.2 ≤ o then streamSlice t (o - p.2) n
    else
      let m := min n (p.2 - o)
      (p.1 + o, m) :: streamSlice t 0 (n - m)

abbrev chunkBytes : Nat := 1048576

/-- CRC-64/XZ of chunk `i` of a stream. -/
def uChunk (ps : List (Nat × Nat)) (i : Nat) : U Nat := do
  let bs ← (streamSlice ps (chunkBytes * i) chunkBytes).mapM (fun r => uRead r.1 r.2)
  return crc64xz bs.flatten

/-- A 64-bit rotation. -/
def rotl64 (x n : Nat) : Nat := (x * 2 ^ n) % 2 ^ 64 + x / 2 ^ (64 - n)

/-- The digest from the codes of the chunks, by their numbers: LO and HI. -/
def digestOf (cs : List (Nat × Nat)) : Nat :=
  let lo := cs.foldl (fun a c => a ^^^ rotl64 c.2 (c.1 % 64)) 0
  let hi := cs.foldl (fun a c => (a + c.2 * (2 * c.1 + 1)) % 2 ^ 64) 0
  lo + hi * 2 ^ 64

/-! ### STATE_EXPORT (R243 to R245) -/

structure Export where
  b : List Byte
  sel : Nat
  headOnly : Bool
  first : Nat
  count : Nat
  dest : Nat
  space : Nat
  deriving DecidableEq, Repr

def Export.parse (d : List Byte) : Export :=
  { b := d, sel := fieldAt d 1 0 1, headOnly := fieldAt d 1 1 1 == 1, first := fieldAt d 4 0 16, count := fieldAt d 6 0 16,
    dest := fieldAt d 8 0 64, space := fieldAt d 16 0 64 }

def Export.ok (x : Export) : Bool :=
  fieldAt x.b 0 0 8 == 1 && fieldAt x.b 1 2 6 == 0 && zeroAt x.b 2 4 && 1 ≤ x.count && x.dest % 64 == 0 && zeroAt x.b 24 64

/-- Bytes of a group record: header and padded planes. -/
def recordBytes (ps : List (Nat × Nat)) : Nat := 64 + (ps.map (fun p => roundUp p.2 64)).sum

/-- The planes of a stream of records: offset in the stream, source, bytes. -/
def recordPlanes : List (List (Nat × Nat)) → Nat → List (Nat × Nat × Nat)
  | [], _ => []
  | ps :: t, o =>
    (ps.foldl (fun (a : Nat × List (Nat × Nat × Nat)) p => (a.1 + roundUp p.2 64, a.2 ++ [(a.1, p.1, p.2)])) (o + 64, [])).2 ++
    recordPlanes t (o + recordBytes ps)

def Export.total (gs : List (List (Nat × Nat))) : Nat := 64 + (gs.map recordBytes).sum

/-- The bytes of the planes that fall in bytes `[o, o + n)` of the stream, zero padding with them. Every page of the
piece is translated and all of its sources are read before any byte is written (R336). -/
def uExportPiece (dest : Nat) (planes : List (Nat × Nat × Nat)) (o n : Nat) : U PUnit := do
  uProbe .write (dest + o) n
  let xs ← planes.mapM (fun p => do
    let lo := max o p.1
    let hi := min (o + n) (p.1 + p.2.2)
    let zlo := max o (p.1 + p.2.2)
    let zhi := min (o + n) (p.1 + roundUp p.2.2 64)
    let ps ← if lo < hi then uTry (p.2.1 + (lo - p.1)) (hi - lo) else pure []
    return [(dest + lo, ps), (dest + zlo, if zlo < zhi then [(0, some (List.replicate (zhi - zlo) 0))] else [])])
  if ← uGoes then xs.flatten.forM (fun x => uPut x.1 x.2)

/-- A group record's header (R245). -/
def recordHeader (g : PGroup) (gno : Nat) (full : Bool) (digest bytes : Nat) : List Byte :=
  natLE 2 gno ++ natLE 1 (b2n full + 2 * b2n full + 4 * b2n g.frozen) ++ natLE 1 g.headFmt ++ natLE 4 g.elems ++
  slice g.bytes 12 4 ++ slice g.bytes 112 2 ++ natLE 2 0 ++ natLE 16 digest ++ natLE 8 bytes ++ List.replicate 24 0

def exportPlan (k : Nat) (x : Cmd) : Plan :=
  let e := Export.parse x.desc
  let gs := groupsOf ((x.tables[0]?).getD [])
  let v := x.ver + e.sel
  let streams := gs.map (fun g => g.stream e.headOnly v)
  let planes := recordPlanes streams 64
  let total := Export.total streams
  let n := ceilDiv (total - 64) 4096
  { units := tileUnits x.tiles n
    run := fun j =>
      if j < n then
        let o := 64 + 4096 * j
        uExportPiece e.dest planes o (min 4096 (total - o))
      else if j < n + gs.length then do
        let i := j - n
        let ps := (streams[i]?).getD []
        match gs[i]? with
        | none => pure ⟨⟩
        | some g => uStrict do
          let cs ← (List.range (ceilDiv (streamBytes ps) chunkBytes)).mapM (fun q => do return (q, ← uChunk ps q))
          let off := 64 + ((streams.take i).map recordBytes).sum
          uOut (e.dest + off) (recordHeader g (e.first + i) (!(e.headOnly || g.frozen || g.tier == 1))
            (digestOf cs) (recordBytes ps))
          uCount 64
      else do
        uOut e.dest (natLE 4 0x53584247 ++ natLE 2 1 ++ natLE 2 gs.length ++ natLE 8 v ++ natLE 8 total ++ natLE 8 x.start ++
          natLE 1 (k / 64) ++ List.replicate 31 0)
        uCount 64
    late := fun y =>
      -- A stream that misses lost data gets no header: a reader that finds one finds a complete stream.
      if y.lost ≠ [] then []
      else if gs.zipIdx.all (fun g => y.doneUnits.contains (n + g.2)) then [(n + gs.length, y.srcs.headD y.unit)]
      else (List.range gs.length).map (fun i => (n + i, Unit.tile (x.member i))) }

def exportEngine : Engine where
  prep := fun s k x => do
    match ← readDesc x 64 8 with
    | .error e => return .error e
    | .ok d =>
      let e := Export.parse d
      if !e.ok then return .error St.descInvalid
      else match ← uGroups (k / 64) e.first e.count with
        | none => return .error St.descInvalid
        | some t =>
          let v := s.rd F.ctxVersion_CURRENT (k / 64) + e.sel
          return (do
            need ((groupsOf t).all PGroup.ok && Export.total ((groupsOf t).map (fun g => g.stream e.headOnly v)) ≤ e.space) St.descInvalid
            .ok (d, [t]))
  foot := fun x =>
    let e := Export.parse x.desc
    let gs := groupsOf ((x.tables[0]?).getD [])
    footRange e.dest (Export.total (gs.map (fun g => g.stream e.headOnly 0))) true :: gs.flatMap (fun g => g.foot false)
  tiled := true
  early := fun _ => pure false
  plan := exportPlan

end Sys2Proof.Machine
end

