-- ==== Sys2Proof/Machine/Net.lean ====
section
/-!
DEFINITION. The life of a connection (R452 to R456, R620): what a loss or a closing ends, the check of the connections
that a command names, loan windows and grants of a lost connection, and what the device answers on a port.
-/
namespace Sys2Proof.Machine

/-- The network engine runs: its domain is on and the device has come as far as BRINGUP (R448, R449). -/
def State.netUp (s : State) : Bool :=
  s.domOn 2 && [Dev.bringup, Dev.ready, Dev.degraded, Dev.braced, Dev.paused].contains s.dev

/-- Requests of peers that need a die's domain are taken; a braced device holds them unanswered (R535). -/
def State.netServes (s : State) : Bool := s.netUp && s.dev != Dev.braced

/-- A notice of the network (R473). -/
def netNtc (code sev : Nat) (ctx : Option Nat) (a1 a2 a3 : Nat) : Ntc :=
  { code := code, sev := sev, ctx := ctx, data := Unit.hub, ctrl := Path.barp, a1 := a1, a2 := a2, a3 := a3 }

/-- A notice of a logical port (R473). -/
def portNtc (code sev lp a2 a3 : Nat) : Ntc :=
  { code := code, sev := sev, data := Unit.port (lp / 2), ctrl := Path.str Path.barp (Unit.port (lp / 2)),
    a1 := lp, a2 := a2, a3 := a3 }

/-! ### Commands that use a connection -/

/-- A collective group of a context. -/
def State.group (s : State) (c id : Nat) : Option Group := s.groups.find? (fun g => g.ctx == c && g.id == id)

/-- The state with a group changed. -/
def State.updGroup (s : State) (c id : Nat) (f : Group → Group) : State :=
  { s with groups := s.groups.map (fun g => if g.ctx = c ∧ g.id = id then f g else g) }

/-- The member table of COLLECTIVE FORM (R460). -/
def formConns (x : Cmd) : List Nat :=
  let t := (x.tables[0]?).getD []
  (List.range (t.length / 2)).map (fun i => fieldAt t (2 * i) 0 16)

/-- The connections that a command of context `c` stands on while it is in flight (R455, R620). -/
def State.cmdConns (s : State) (c : Nat) (x : Cmd) : List Nat :=
  let ofGroup (id : Nat) : List Nat := match s.group c id with
    | some g => g.conns.filter (· ≠ 0xFFFF)
    | none => []
  match x.opcode with
  | 0x0071 => [fieldAt x.desc 2 0 16]
  | 0x0070 => match fieldAt x.desc 1 0 4 with
    | 5 => [fieldAt x.desc 6 0 16]
    | 8 => (formConns x).filter (· ≠ 0xFFFF)
    | 9 => []
    | _ => ofGroup (fieldAt x.desc 6 0 16)
  | 0x0062 => if fieldAt x.desc 1 2 1 = 1 then ofGroup (fieldAt x.desc 12 0 16) else []
  | 0x0072 => ((groupsOf ((x.tables[0]?).getD [])).map (·.lender)).eraseDups
  | _ => []

/-- The commands in flight on a connection, by ring and count. -/
def State.connCmds (s : State) (conn : Nat) : List (Nat × Nat) :=
  let c := s.connCtx conn
  s.rings.flatMap (fun e => if e.1 / 64 = c then
    (e.2.cmds.filter (fun x => (x.phase == .waiting || x.phase == .stalled) && (s.cmdConns c x).contains conn)).map
      (fun x => (e.1, x.count)) else [])

/-- A fetched command by ring and count. -/
def State.cmdAt (s : State) (k count : Nat) : Option Cmd := (s.ring k).cmds.find? (fun x => x.count == count)

/-- A command in flight ends with a status that its chapter gives for a failure: it ranks as a fatal fault (R587). -/
def State.endOut (s : State) (k count st : Nat) : State :=
  match s.cmdAt k count with
  | none => s
  | some x =>
    if x.phase = .ended then s
    else
      let y := { x with fatal := x.fatal.orElse (fun _ => some st), stalls := [] }
      (s.updCmd k count (fun _ => y)).endCmd k y St.ok

/-- The groups of a LOAN_STEP whose reply has not arrived: group number and lender. -/
def Cmd.unanswered (x : Cmd) : List (Nat × Nat) :=
  (groupsOf ((x.tables[0]?).getD [])).zipIdx.filterMap (fun g =>
    if (look x.parts g.2).isSome then none else some (fieldAt x.desc 4 0 16 + g.2, g.1.lender))

/-- A LOAN_STEP whose lender is lost before every reply has arrived (R250, R254). -/
def State.loanStepLost (s : State) (k : Nat) (x : Cmd) : State :=
  let left := x.unanswered
  let s := match left with
    | (g, l) :: _ => s.raise (netNtc 0x0904 Sev.error (some (k / 64)) g left.length l)
    | [] => s
  s.endOut k x.count St.loanLost

/-- A command loses the connection it stands on (R455, R620). -/
def State.cmdLost (s : State) (k count : Nat) : State :=
  match s.cmdAt k count with
  | none => s
  | some x => if x.opcode ≠ 0x0072 then s.endOut k count St.peerLost
              else if x.unanswered = [] then s else s.loanStepLost k x

/-! ### Loans of a lost connection (R470) -/

/-- The physical address of a stack's offset in region `r`, the inverse of R288. -/
def State.encodeIn (s : State) (r n o : Nat) : Nat :=
  let base := s.rd F.memRegionCfg_BASE r * 2 ^ 28
  let mode := s.rd F.memRegionCfg_MODE r
  let o := o - s.rd F.memRegionCfg_STACK_BASE r * 2 ^ 28
  if mode = 0 then
    let row := o >>> 12
    let p := if s.variant = .c then 16 * row + 4 * (n % 5 ^^^ fold2 row) + n / 5 else 20 * row + 4 * (n % 5) + n / 5
    base + p * 4096 + o % 4096
  else
    let row := o >>> 11
    let q := if s.variant = .c then 4 * row + (n % 5 ^^^ fold2 row) else 5 * row + n % 5
    base + q * 2048 + o % 2048

/-- The stack offsets whose bytes may stand at a key of memory: its own, and in a reserve those of the channels that have
a slot there (R302). -/
def State.offsetsAt (s : State) (key : Nat) : List (Nat × Nat) :=
  let n := key / 2 ^ 40
  let o := key % 2 ^ 40
  let base := (384 - s.rd F.memReserve_PER_STACK 0) * 2 ^ 28
  let x := ((o - base) / 2048 * s.stacksPerDie + n % 5) * 2048 + (o - base) % 2048
  let b := x % (393216 * 2048)
  let chans := (s.rel.slots ++ s.rel.copies.map (fun e => (e.1, e.2.slot))).filter (fun e =>
    e.1 / 128 / 5 == n / 5 && e.2 == x / (393216 * 2048))
  (n, o) :: (if o < base then [] else chans.map (fun e =>
    (e.1 / 128, b / 256 * 2 ^ 15 + (e.1 % 128 ^^^ b / 256 % 128) * 256 + b % 256)))

/-- The key of a memory byte lies in physical addresses `[lo, hi)` of region `r`. -/
def State.keyIn (s : State) (r lo hi key : Nat) : Bool :=
  key < 2 ^ 46 && (s.offsetsAt key).any (fun e =>
    let pa := s.encodeIn r e.1 e.2
    decide (s.rd F.memRegionCfg_STACK_BASE r * 2 ^ 28 ≤ e.2) && s.homeKey e.1 e.2 == key &&
    decide (lo ≤ pa ∧ pa < hi) && s.place pa == .stack e.1 e.2)

/-- Physical addresses `[lo, hi)` of the stack range written as zeros, whole granules each (R297). -/
def State.zeroRange (s : State) (lo hi : Nat) : State :=
  match s.regionOf lo with
  | none => s
  | some r =>
    { s with mem := s.mem.filter (fun e => !s.keyIn r lo hi e.1), ecc := s.ecc.filter (fun e => !s.keyIn r lo hi e.1) }

/-- The lender frees and zeroes a grant, and its pending versions go with it (R468, R470). -/
def State.freeGrant (s : State) (g : Grant) : State :=
  let lo := (s.rd F.netLendCfg_BASE_GIB + g.base) * 2 ^ 30
  let s := s.zeroRange lo (lo + g.size * 2 ^ 30)
  let left := s.grants.filter (fun h => h != g)
  { s with grants := left }.wr F.netLendCfg_GRANTS 0 left.length

/-- Loan-tier writes of window `w` that are not acknowledged are lost: their commands complete LOAN_LOST (R470). -/
def State.dropWrites (s : State) (w : Nat) : State :=
  let inW (pa : Nat) : Bool := match s.place pa with | .loan v _ => v == w | _ => false
  s.mapCmds (fun _ x =>
    if x.loanOut.any inW then
      { x with loanOut := x.loanOut.filter (fun a => !inW a), fatal := x.fatal.orElse (fun _ => some St.loanLost),
               status := if x.phase = .ended then St.loanLost else x.status }
    else x)

/-- A window whose connection is lost (R470). -/
def State.loseWindow (s : State) (w : Nat) : State :=
  ((s.wr F.netLoanWin_STATE w 3).failWindow w).dropWrites w

/-- The windows and the grants of a lost connection. -/
def State.loseLoans (s : State) (conn : Nat) : State :=
  let ws := (List.range 16).filter (fun w => s.rd F.netLoanWin_CONN w == conn &&
    (s.rd F.netLoanWin_STATE w == 1 || s.rd F.netLoanWin_STATE w == 2))
  let s := ws.foldl State.loseWindow s
  (s.grants.filter (fun g => g.conn == conn)).foldl State.freeGrant s

/-! ### Loss, closing and failure -/

/-- What a connection that is no longer open ends: commands, groups, the peer's waits, loans (R455, R470). -/
def State.endConn (s : State) (conn st : Nat) (cause : Option Nat) : State :=
  let hits := s.connCmds conn
  let ctx := s.connCtx conn
  let s := s.connSetState conn st
  let s := { s with
    conns := del s.conns conn, rwaits := s.rwaits.filter (fun w => w.conn != conn),
    net := { s.net with held := s.net.held.filter (fun h => reqConn h.2 != some conn),
                        joins := s.net.joins.filter (fun j => j.1 != conn) } }
  let s := match cause with
    | some k => s.raise (netNtc 0x0C03 Sev.error (some ctx) conn k hits.length)
    | none => s
  let s := hits.foldl (fun s h => s.cmdLost h.1 h.2) s
  let s := { s with groups := s.groups.map (fun (g : Group) => if g.conns.contains conn then { g with phase := 2 } else g) }
  s.loseLoans conn

/-- A connection is declared lost (R455). -/
def State.loseConn (s : State) (conn cause : Nat) : State := s.endConn conn ConnSt.lost (some cause)

/-- CLOSE of a connection (R453). -/
def State.closeConn (s : State) (conn : Nat) : State :=
  let st := s.connState conn
  if st = ConnSt.opening ∨ st = ConnSt.opened then
    let s := if s.connKind conn = Kind.gct then s.sendPlain conn .close else s
    s.endConn conn ConnSt.closed none
  else if st = ConnSt.lost ∨ st = ConnSt.failed then s.connSetState conn ConnSt.closed
  else s

/-- A GCT opening fails (R453). -/
def State.failConn (s : State) (conn cause peerMax : Nat) : State :=
  let ctx := s.connCtx conn
  (s.endConn conn ConnSt.failed none).raise (netNtc 0x0C04 Sev.error (some ctx) conn cause peerMax)

/-- OPEN of a connection (R453). Its setup waits while the core with that duty is being restarted (R524). -/
def State.openConn (s : State) (conn : Nat) : State :=
  let st := s.connState conn
  let kind := s.connKind conn
  if st = ConnSt.opening ∨ st = ConnSt.opened ∨ s.dom 2 = Dom.off ∨ s.dev = Dev.cfgHold then s
  else if kind = Kind.roce then (s.setConn conn {}).connSetState conn ConnSt.opened
  else if kind = Kind.gct then
    let (v, s) := s.fresh
    let s := (s.setConn conn { openedAt := s.ivl, heardAt := s.ivl, sentAt := s.ivl }).connWrite conn ConnSt.opening 0 (v.toNat % 2 ^ 32)
    if s.dutyHeld 2 then s else s.sendPlain conn (s.capsMsg conn)
  else s

/-! ### The connections that a command names (R620) -/

inductive ConnCheck where
  | ok
  | bad
  | gone
  | hold
  deriving DecidableEq, Repr

def State.connCheck (s : State) (c conn : Nat) : ConnCheck :=
  if conn > 4095 ∨ s.connKind conn ≠ Kind.gct ∨ s.connCtx conn ≠ c then .bad
  else if s.connState conn = ConnSt.opened then .ok
  else if s.connState conn = ConnSt.opening then .hold
  else .gone

def State.connsCheck (s : State) (c : Nat) (conns : List Nat) : ConnCheck :=
  let r := conns.map (s.connCheck c)
  if r.contains .bad then .bad else if r.contains .gone then .gone else if r.contains .hold then .hold else .ok

/-- A command waits on a connection that is opening. -/
def Cmd.heldOnConn (x : Cmd) : Bool :=
  x.phase == .waiting && x.aux == [] && (x.opcode == 0x0071 || x.opcode == 0x0072 ||
    (x.opcode == 0x0070 && (fieldAt x.desc 1 0 4 == 5 || fieldAt x.desc 1 0 4 == 8)))

/-- A command at its issue meets the connections that it names, and starts once they are open. -/
def State.onConns (s : State) (k : Nat) (x : Cmd) (start : State → Nat → Cmd → State) : State :=
  match s.connsCheck (k / 64) (s.cmdConns (k / 64) x) with
  | .bad => s.rejectCmd k x.count St.descInvalid
  | .gone => if x.opcode = 0x0072 then s.loanStepLost k x else s.endOut k x.count St.peerLost
  | .hold => s.updCmd k x.count (fun y => { y with phase := .waiting })
  | .ok => start s k x

/-- TIMEOUT_US of a command in flight has run out since its issue (R381, R466, R620). -/
def State.timedOut (s : State) (x : Cmd) : Bool := decide (s.ivl - x.issuedAt ≥ x.limit)

/-- CONN_WAIT_TIMEOUT (R620). -/
def execConnWaitTimeout (id : CmdId) (s : State) : Host.Outcome State Fault Refusal :=
  .next (match s.cmd id with
    | some x => if x.heldOnConn ∧ s.timedOut x then s.cmdLost (CmdKey id) x.count else s
    | none => s)

/-! ### Host control of connections -/

/-- The function may act on a connection (R472). -/
def State.connReach (s : State) (fn : Fn) (conn : Nat) : Bool := Fn.reaches fn (s.connCtx conn)

/-- CONN_OPEN (R453). -/
def execConnOpen (fn : Fn) (conn : Fin 4096) (s : State) : Host.Outcome State Fault Refusal :=
  .next (if s.connReach fn conn.val then s.openConn conn.val else s)

/-- CONN_CLOSE (R453). -/
def execConnClose (fn : Fn) (conn : Fin 4096) (s : State) : Host.Outcome State Fault Refusal :=
  .next (if s.connReach fn conn.val then s.closeConn conn.val else s)

/-- The entries of a newly named table: none is left open, and reserved states read CLOSED (R452). -/
def State.sweepConns (s : State) : State :=
  if !s.connTableOk then s
  else (List.range 4096).foldl (fun s c =>
    let st := (s.peek (s.connAddr c + 56)).toNat % 8
    if st = ConnSt.opening ∨ st = ConnSt.opened then s.connSetState c ConnSt.lost
    else if st > 4 then s.connWrite c ConnSt.closed 0 0 else s) s

/-- Every connection of the table is CLOSED. -/
def State.allClosed (s : State) : Bool :=
  !s.connTableOk || (List.range 4096).all (fun c => (s.peek (s.connAddr c + 56)).toNat % 8 == ConnSt.closed)

/-- A table is named (R452, R472). -/
def State.nameConnTable (s : State) (v : Nat) : State :=
  ({ s with conns := [] }.setReg Reg.netConnTable 0 (BitVec.ofNat 64 (bitsOf v 12 36 * 4096))).sweepConns

/-- CONN_TABLE_WRITE (R452): the register is writable only while every connection is CLOSED. -/
def execConnTableWrite (value : Word) (s : State) : Host.Outcome State Fault Refusal :=
  .next (if s.allClosed then s.nameConnTable value.toNat else s)

/-! ### Ports and neighbours (R447 to R450) -/

/-- A frame dropped under R450. -/
def State.dropFrame (s : State) (lp : Nat) : State := s.count F.netPortStatus_DROPPED (lp / 2) 1

/-- FRAME_OUTSIDE_SUBSET (R450). -/
def execFrameOutsideSubset (lp : Fin 24) (_why : FrameFault) (s : State) : Host.Outcome State Fault Refusal :=
  .next (if s.lpUp lp.val then s.dropFrame lp.val else s)

/-- A number in network byte order. -/
def natBE (n x : Nat) : List Byte := (natLE n x).reverse

/-- A learned neighbour; the newest stands first. -/
def State.learn (s : State) (v6 : Bool) (addr mac : Nat) : State :=
  { s with net := { s.net with neighbours :=
      (v6, addr, mac) :: s.net.neighbours.filter (fun n => !(n.1 == v6 && n.2.1 == addr)) } }

abbrev Eth.arp : Nat := 1
abbrev Eth.nd : Nat := 2
abbrev Eth.echo : Nat := 3

/-- ARP_FRAME (R450): a request for the port's address is answered; what a frame says of its sender is used. -/
def execArpFrame (lp : Fin 24) (request : Bool) (target senderIp : BitVec 32) (senderMac : BitVec 48) (s : State) :
    Host.Outcome State Fault Refusal :=
  .next (
    if !s.lpUp lp.val then s
    else
      let s := s.learn false senderIp.toNat senderMac.toNat
      if request ∧ target.toNat ≠ 0 ∧ target.toNat = s.lpIp4 lp.val then
        s.emit (.frame lp.val Eth.arp (natBE 2 1 ++ natBE 2 0x0800 ++ natBE 1 6 ++ natBE 1 4 ++ natBE 2 2 ++
          natBE 6 (s.lpMac lp.val) ++ natBE 4 target.toNat ++ natBE 6 senderMac.toNat ++ natBE 4 senderIp.toNat))
      else s)

/-- ND_MESSAGE (R450): a solicitation of the port's address is answered by an advertisement of its MAC address. -/
def execNdMessage (lp : Fin 24) (solicit : Bool) (target senderIp : BitVec 128) (senderMac : BitVec 48) (s : State) :
    Host.Outcome State Fault Refusal :=
  .next (
    if !s.lpUp lp.val then s
    else
      let s := s.learn true senderIp.toNat senderMac.toNat
      if solicit ∧ target.toNat ≠ 0 ∧ target.toNat = s.lpIp6 lp.val then
        s.emit (.frame lp.val Eth.nd (natBE 16 target.toNat ++ natBE 6 (s.lpMac lp.val) ++ natBE 16 senderIp.toNat))
      else s)

/-- ICMP_ECHO (R450): an echo request for the port's address is answered with its payload. -/
def execIcmpEcho (lp : Fin 24) (v6 : Bool) (dst src : BitVec 128) (payload : List Byte) (s : State) :
    Host.Outcome State Fault Refusal :=
  .next (
    let own := if v6 then s.lpIp6 lp.val else s.lpIp4 lp.val
    if s.lpUp lp.val ∧ own ≠ 0 ∧ dst.toNat = own then
      s.emit (.frame lp.val Eth.echo (natBE 16 src.toNat ++ payload))
    else s)

/-- PFC_PAUSE_FRAME (R450): a quantum is 512 bit times; a priority without PFC is not paused. -/
def execPfcPauseFrame (lp : Fin 24) (prio : Fin 8) (quanta : BitVec 16) (s : State) :
    Host.Outcome State Fault Refusal :=
  .next (
    if s.lpUp lp.val ∧ (s.rd F.netPortCfg_PFC_EN (lp.val / 2)).testBit prio.val ∧ s.lpSpeed lp.val ≠ 0 then
      let until_ := s.ivl + quanta.toNat * 512 / s.lpSpeed lp.val
      { s with net := { s.net with pauses := put s.net.pauses (8 * lp.val + prio.val) until_ } }
    else s)

/-- A packet sent again (R454): its interval doubles when `more`. -/
def State.resend (s : State) (conn seq : Nat) (more : Bool) : State :=
  let x := s.conn conn
  match x.unacked.find? (fun u => u.seq == seq) with
  | none => s
  | some u =>
    let p := s.portFor conn (seq + 1)
    let iv := if more then 2 * u.interval else u.interval
    let v := { u with sentAt := s.ivl, interval := iv, port := p.getD 24 }
    let s := s.setConn conn { x with sentAt := s.ivl, unacked := x.unacked.map (fun w => if w.seq = seq then v else w) }
    if p.isSome then s.emit (.gct conn u.msg) else s

/-- A logical port goes down (R449). -/
def State.linkDown (s : State) (lp : Nat) : State :=
  let s := (s.wr (if lp % 2 = 0 then F.netPortStatus_UP0 else F.netPortStatus_UP1) (lp / 2) 0).count F.netPortStatus_DOWN_EVENTS (lp / 2) 1
  let s := s.raise (portNtc 0x0C01 Sev.warn lp s.upPorts.length (s.rd F.netPortStatus_DOWN_EVENTS (lp / 2)))
  let moved := s.conns.flatMap (fun e => (e.2.unacked.filter (fun u => u.port == lp)).map (fun u => (e.1, u.seq)))
  moved.foldl (fun s m => s.resend m.1 m.2 false) s

/-- LINK_LOSS (R449). -/
def execLinkLoss (lp : Fin 24) (s : State) : Host.Outcome State Fault Refusal :=
  .next (if s.lpUp lp.val then s.linkDown lp.val else s)

/-- LINK_UP (R449): a port whose mode gives it a MAC, in a device whose transmitters are on. -/
def execLinkUp (lp : Fin 24) (s : State) : Host.Outcome State Fault Refusal :=
  .next (
    if s.netUp ∧ s.portFitted (lp.val / 2) ∧ s.lpSpeed lp.val ≠ 0 ∧ !s.lpUp lp.val then
      let s := s.wr (if lp.val % 2 = 0 then F.netPortStatus_UP0 else F.netPortStatus_UP1) (lp.val / 2) 1
      s.raise (portNtc 0x0C02 Sev.info lp.val s.upPorts.length 0)
    else s)

end Sys2Proof.Machine
end

