-- ==== Sys2Proof/Machine/Remote.lean ====
section
/-!
DEFINITION. What crosses a connection to and from beads and windows: REMOTE_BEAD (R378 to R380), the requests of peers
on local beads, stage transfers and RoCE requests into a window (R452, R467), and doorbells of job controllers (R580).
-/
namespace Sys2Proof.Machine

/-! ### REMOTE_BEAD at the requester -/

def remoteBeadCheck (d : List Byte) : Except Nat Unit := do
  let op := fieldAt d 0 0 2
  let v := fieldAt d 8 0 64
  let res := fieldAt d 16 0 64
  need (op < 3 && fieldAt d 0 2 6 == 0 && zeroAt d 1 2 && fieldAt d 4 14 2 == 0 && zeroAt d 6 8 && zeroAt d 24 32) St.descInvalid
  need (if op = 0 then 1 ≤ v && v < 2 ^ 48 else if op = 2 then v == 0 else true) St.descInvalid
  need (if op = 2 then res % 8 == 0 else res == 0) St.descInvalid

/-- The status that the versions of the connection give a request (R379, R458). -/
def State.remoteStatus (s : State) (conn op v : Nat) : Option Nat :=
  if s.connVer conn 2 = 0 then some St.versionMismatch
  else if s.connVer conn 0 = 1 then if op < 2 ∧ v ≥ 2 ^ 32 then some St.versionMismatch else none
  else if op = 1 ∧ v ≥ 2 ^ 48 then some St.descInvalid else none

/-- The next request number of a connection. -/
def State.takeReq (s : State) (conn : Nat) : Nat × State :=
  let x := s.conn conn
  (x.nextReq, s.setConn conn { x with nextReq := (x.nextReq + 1) % 2 ^ 32 })

/-- The request sent; WAIT_GE runs its clock from here (R380). What the command keeps: connection, request, the last
value told, whether the remote bead is suspended. -/
def State.startRemoteBead (s : State) (k : Nat) (x : Cmd) : State :=
  let d := x.desc
  let op := fieldAt d 0 0 2
  let conn := fieldAt d 2 0 16
  let v := fieldAt d 8 0 64
  match s.remoteStatus conn op v with
  | some st => s.rejectCmd k x.count st
  | none =>
    let (q, s) := s.takeReq conn
    let s := s.sendGct conn (.beadReq q op (fieldAt d 4 0 14) v)
    let y := { x with phase := .waiting, aux := [conn, q, 0, 0], unit := Unit.hub }
    (s.updCmd k x.count (fun _ => if op = 1 then s.arm (k / 64) y else y)).armRing k

/-- READ: the value that came back is written (R379). -/
def remoteBeadPlan (x : Cmd) : Plan :=
  onePlan Unit.hub (uWrite (fieldAt x.desc 16 0 64) (natLE 8 (x.aux.getD 2 0)))

def remoteBeadEngine : Engine where
  prep := fun _ _ x => do
    match ← readDesc x 32 8 with
    | .error e => return .error e
    | .ok d => return (do remoteBeadCheck d; .ok (d, []))
  foot := fun x => if fieldAt x.desc 0 0 2 = 2 then [footRange (fieldAt x.desc 16 0 64) 8 true] else []
  plan := fun _ x => remoteBeadPlan x
  start := fun s k x => s.onConns k x State.startRemoteBead

/-- The command that waits for a reply of a connection. -/
def State.waiterOf (s : State) (conn q : Nat) : Option (Nat × Cmd) :=
  (s.rings.flatMap (fun e => (e.2.cmds.filter (fun x =>
    x.phase == .waiting && (x.opcode == 0x0071 || x.opcode == 0x0070) && x.aux.take 2 == [conn, q])).map (fun x => (e.1, x)))).head?

/-- The status that a refusal of a peer gives (R379, R467). -/
def replyFailure : BeadReply → Option Nat
  | .refused => some St.faultPermission
  | .broken => some St.beadBroken
  | .overflow => some St.beadOverflow
  | .underflow => some St.beadUnderflow
  | _ => none

/-- A reply to REMOTE_BEAD. -/
def State.remoteReply (s : State) (k : Nat) (x : Cmd) (kind : BeadReply) (value : Nat) : State :=
  match replyFailure kind, kind, fieldAt x.desc 0 0 2 with
  | some st, _, _ => s.endOut k x.count st
  | none, .done, 0 => s.endCmd k x St.ok
  | none, .met, 1 => s.endCmd k x St.ok
  | none, .accepted, 1 => s.updCmd k x.count (fun y => { y with aux := [y.aux.getD 0 0, y.aux.getD 1 0, value, y.aux.getD 3 0] })
  | none, .value, 2 =>
    let y := { x with aux := [x.aux.getD 0 0, x.aux.getD 1 0, value, 0], phase := .stalled }
    (s.updCmd k x.count (fun _ => y)).runPlan k y (remoteBeadPlan y)
  | _, _, _ => s

/-- A reply to one message of a TRANSFER; the command ends with the last. -/
def State.transferReply (s : State) (k : Nat) (x : Cmd) (kind : BeadReply) : State :=
  match replyFailure kind with
  | some st => s.endOut k x.count st
  | none =>
    if x.aux.getD 2 0 ≤ 1 then s.endCmd k x St.ok
    else s.updCmd k x.count (fun y => { y with aux := [y.aux.getD 0 0, y.aux.getD 1 0, y.aux.getD 2 0 - 1, 0] })

/-- REMOTE_BEAD_REPLY (R379, R467). -/
def execRemoteBeadReply (hdr : GctHdr) (req : BitVec 32) (kind : BeadReply) (value : Word) (s : State) :
    Host.Outcome State Fault Refusal :=
  .next (if !s.netUp then s else match s.receive hdr true with
    | none => s
    | some s => match s.waiterOf hdr.conn.val req.toNat with
      | none => s
      | some (k, x) => if x.opcode = 0x0071 then s.remoteReply k x kind value.toNat else s.transferReply k x kind)

/-- REMOTE_SUSPEND_MESSAGE (R380): the waiter's clock stops and starts with the remote bead's suspension. -/
def execRemoteSuspendMessage (hdr : GctHdr) (req : BitVec 32) (starts : Bool) (value : Word) (s : State) :
    Host.Outcome State Fault Refusal :=
  .next (if !s.netUp then s else match s.receive hdr true with
    | none => s
    | some s => match s.waiterOf hdr.conn.val req.toNat with
      | none => s
      | some (k, x) =>
        if x.opcode = 0x0071 then
          (s.updCmd k x.count (fun y => { y with aux := [y.aux.getD 0 0, y.aux.getD 1 0, value.toNat, b2n starts] })).retime
        else s)

/-! ### Requests on local beads (R379) -/

/-- How a refused addition is reported on a connection (R377). -/
def State.replyOf (s : State) (conn : Nat) : AddEnd → BeadReply
  | .done => .done
  | .broken => .broken
  | .overflow => .overflow
  | .underflow => if s.connVer conn 2 = 1 then .overflow else .underflow

/-- A peer's addition to a mapped bead, with the notice of a refusal (R377). -/
def State.peerAdd (s : State) (conn vid n amount : Nat) : BeadReply × State :=
  let (e, s) := s.beadAdd n amount
  match e with
  | .done => (.done, s.armAll)
  | e => (s.replyOf conn e, s.tellRefused e (s.connCtx conn) Unit.hub vid n amount)

/-- A peer's request on a bead. -/
def State.beadRequest (s : State) (conn q op vid v : Nat) : State :=
  let (p, e) := s.vid (s.connCtx conn) vid
  let may := s.connMay conn 4 && (if op = 0 then e.testBit 17 else op < 3 && e.testBit 18)
  match p, may with
  | some n, true =>
    let s := s.keepVid (s.connCtx conn) vid
    if s.beadDead n then s.sendGct conn (.beadReply q .broken 0)
    else match op with
      | 0 => let (r, s) := s.peerAdd conn vid n v; s.sendGct conn (.beadReply q r 0)
      | 1 =>
        if s.beadValue n ≥ v then s.sendGct conn (.beadReply q .met (s.beadValue n))
        else
          let w : RWait := { conn := conn, req := q, phys := n, target := v }
          let s := { s with rwaits := s.rwaits ++ [w] }
          (s.sendGct conn (.beadReply q .accepted (s.beadValue n))).tellWaits
      | _ => s.sendGct conn (.beadReply q .value (s.beadValue n))
  | _, _ => s.sendGct conn (.beadReply q .refused 0)

/-- REMOTE_BEAD_REQUEST (R379). -/
def execRemoteBeadRequest (hdr : GctHdr) (req : BitVec 32) (op : BitVec 2) (vid : BitVec 16) (value : Word) (s : State) :
    Host.Outcome State Fault Refusal :=
  .next (if !s.netServes then s else match s.receive hdr true with
    | none => s
    | some s => s.beadRequest hdr.conn.val req.toNat op.toNat vid.toNat value.toNat)

/-! ### Accesses of peers to a window (R452) -/

/-- How an access of a peer to the window of its connection ends. -/
inductive WinEnd where
  | done (bytes : List Byte)
  | lost
  | held
  | failed
  deriving DecidableEq, Repr

/-- The access itself: a read, or a write whose whole range is translated first. -/
def winWork (va n : Nat) (write : Option (List Byte)) : U (List Byte) :=
  match write with
  | none => uRead va n
  | some bs => do
    uProbe .write va n
    if ← uOk then uWrite va bs
    return []
where
  uOk : U Bool := fun a => (a.fault.isNone, a)

/-- The access with its faults resolved: a COW page is copied, a loan-tier granule is fetched, another resolvable
fault holds the request (R452). -/
def State.winAccess (c va n : Nat) (write : Option (List Byte)) : Nat → State → Mem → List Nat → WinEnd × State
  | 0, s, _, _ => (.held, s)
  | f + 1, s, buf, have_ =>
    let (bs, a) := (winWork va n write).run { s := s, root := s.root c, loanBuf := buf, loanHave := have_ }
    match a.fault with
    | none => match a.lost with
      | g :: _ => if write.isNone then (.lost, a.s.tellLoss c Unit.hub g a.lost.length) else (.done [], a.s)
      | [] => (.done bs, a.s)
    | some e => match e.why with
      | .fatal cause => (.failed, a.s.tellFault c Unit.hub e cause 0)
      | .stall .cow =>
        let (r, s) := a.s.resolveCow c (stallOf a.s 0 Unit.hub .cow e false)
        (match r with
         | .replay => State.winAccess c va n write f s buf have_
         | .noFrame => (.failed, s.tellFault c Unit.hub e Cause.noFrame 0))
      | .stall .loanData =>
        let (bytes, s) := a.s.freeBytes 64
        State.winAccess c va n write f s (buf.writeN e.pte bytes) (e.pte :: have_)
      | .stall k => (.held, a.s.onStall (stallOf a.s 0 Unit.hub k e false))

/-- Fuel for an access of `n` bytes: each page is resolved at most once, each granule fetched at most once. -/
def winFuel (n : Nat) : Nat := n / 32 + 8

/-- The range lies in the window, and the access is granted (R452). -/
def State.inWindow (s : State) (conn bit va n : Nat) : Bool :=
  s.connMay conn bit && decide (s.connBase conn ≤ va ∧ va + n ≤ s.connBase conn + s.connBytes conn)

/-- A request held until its fault is resolved. -/
def State.hold (s : State) (since : Option Nat) (i : Instr) : State :=
  { s with net := { s.net with held := s.net.held ++ [(since.getD s.ivl, i)] } }

/-- A transfer into the window of a connection (R467): answers the reply, or none when the request is held. -/
def State.transferIn (s : State) (conn addr vid add : Nat) (bytes : List Byte) : Option BeadReply × State :=
  let c := s.connCtx conn
  let (p, e) := s.vid c vid
  let n := p.getD 0
  let bead := add != 0
  if !s.inWindow conn 0 addr bytes.length || (bead && (p.isNone || !e.testBit 17)) then (some .refused, s)
  else if bead && (s.addCheck n add == .overflow || s.addCheck n add == .underflow) then
    (some (s.replyOf conn (s.addCheck n add)), s.tellRefused (s.addCheck n add) c Unit.hub vid n add)
  else match State.winAccess c addr bytes.length (some bytes) (winFuel bytes.length) s [] [] with
    | (.held, s) => (none, s)
    | (.failed, s) => (some .refused, s)
    | (_, s) => if bead then let (r, s) := s.peerAdd conn vid n add; (some r, s) else (some .done, s)

/-- A transfer, answered or held. -/
def State.transfer (s : State) (since : Option Nat) (i : Instr) (conn q addr vid add : Nat) (bytes : List Byte) : State :=
  match s.transferIn conn addr vid add bytes with
  | (some r, s) => s.sendGct conn (.beadReply q r 0)
  | (none, s) => s.hold since i

/-- GCT_TRANSFER_DATA (R467): a transfer that carries an addition is applied after every earlier packet (R454). -/
def execGctTransferData (hdr : GctHdr) (req : BitVec 32) (addr : Word) (vid add : BitVec 16) (bytes : List Byte) (s : State) :
    Host.Outcome State Fault Refusal :=
  .next (if !s.netServes then s else match s.receive hdr (add != 0) with
    | none => s
    | some s => s.transfer none (.gctTransferData hdr req addr vid add bytes) hdr.conn.val req.toNat addr.toNat vid.toNat
        add.toNat bytes)

/-! ### RoCE (R450, R452) -/

abbrev Roce.ack : Nat := 0
abbrev Roce.accessNak : Nat := 1
abbrev Roce.invalidNak : Nat := 2
abbrev Roce.response : Nat := 3
abbrev Roce.errorNak : Nat := 4

/-- A RoCE connection that is OPEN. -/
def State.roceOpen (s : State) (c : Nat) : Bool := s.connKind c == Kind.roce && s.connState c == ConnSt.opened

/-- An RDMA access to the window. -/
def State.rdma (s : State) (since : Option Nat) (i : Instr) (conn bit rkey va n : Nat) (write : Option (List Byte)) : State :=
  let c := s.connCtx conn
  if rkey ≠ s.connRkey conn ∨ !s.inWindow conn bit va n then s.emit (.roce conn Roce.accessNak [])
  else match State.winAccess c va n write (winFuel n) s [] [] with
    | (.done bs, s) => s.emit (.roce conn (if write.isSome then Roce.ack else Roce.response) bs)
    | (.lost, s) => s.emit (.roce conn Roce.errorNak [])
    | (.failed, s) => s.emit (.roce conn Roce.accessNak [])
    | (.held, s) => s.hold since i

/-- ROCE_RDMA_WRITE (R452). -/
def execRoceRdmaWrite (conn : Fin 4096) (rkey : BitVec 32) (va : Word) (bytes : List Byte) (s : State) :
    Host.Outcome State Fault Refusal :=
  .next (if s.netServes ∧ s.roceOpen conn.val then
      s.rdma none (.roceRdmaWrite conn rkey va bytes) conn.val 1 rkey.toNat va.toNat bytes.length (some bytes)
    else s)

/-- ROCE_RDMA_READ (R452). -/
def execRoceRdmaRead (conn : Fin 4096) (rkey : BitVec 32) (va : Word) (len : BitVec 32) (s : State) :
    Host.Outcome State Fault Refusal :=
  .next (if s.netServes ∧ s.roceOpen conn.val then
      s.rdma none (.roceRdmaRead conn rkey va len) conn.val 2 rkey.toNat va.toNat len.toNat none
    else s)

/-- A SEND: its bytes go into the window as a ring, and its announcement into RX_QUEUE. The content of the entry and
its priority are not stated: free values. -/
def State.roceSend (s : State) (since : Option Nat) (i : Instr) (conn : Nat) (bytes : List Byte) : State :=
  let c := s.connCtx conn
  let off := (s.conn conn).rxOff
  let size := s.connBytes conn
  if !s.connMay conn 3 || bytes.length > size then s.emit (.roce conn Roce.accessNak [])
  else
    let first := min bytes.length (size - off)
    match State.winAccess c (s.connBase conn + off) first (some (bytes.take first)) (winFuel first) s [] [] with
    | (.held, s) => s.hold since i
    | (.failed, s) => s.emit (.roce conn Roce.accessNak [])
    | (_, s) =>
      match State.winAccess c (s.connBase conn) (bytes.length - first) (some (bytes.drop first)) (winFuel bytes.length) s [] [] with
      | (.held, s) => s.hold since i
      | (.failed, s) => s.emit (.roce conn Roce.accessNak [])
      | (_, s) =>
        let s := s.setConn conn { s.conn conn with rxOff := if size = 0 then 0 else (off + bytes.length) % size }
        let (entry, s) := s.freeBytes 32
        let (p, s) := s.fresh
        let s := if s.connRxQueue conn ≥ 17 then (s.enqueue (s.connRxQueue conn) (p.toNat % 4) [entry] 4).2 else s
        s.emit (.roce conn Roce.ack [])

/-- ROCE_SEND (R452). -/
def execRoceSend (conn : Fin 4096) (bytes : List Byte) (s : State) : Host.Outcome State Fault Refusal :=
  .next (if s.netServes ∧ s.roceOpen conn.val then s.roceSend none (.roceSend conn bytes) conn.val bytes else s)

/-- ROCE_ATOMIC (R450). -/
def execRoceAtomic (conn : Fin 4096) (s : State) : Host.Outcome State Fault Refusal :=
  .next (if s.netUp ∧ s.roceOpen conn.val then s.emit (.roce conn.val Roce.invalidNak []) else s)

/-- ROCE_RETRY_EXHAUSTED (R455). -/
def execRoceRetryExhausted (conn : Fin 4096) (s : State) : Host.Outcome State Fault Refusal :=
  .next (if s.netUp ∧ s.roceOpen conn.val then s.loseConn conn.val 1 else s)

/-! ### Held requests -/

/-- A held request taken up again: it is replayed, and refused once MIGRATE_WAIT has run out (R339, R452). -/
def State.replayHeld (s : State) (h : Nat × Instr) : State :=
  let isOver (conn : Nat) : Bool := decide (s.ivl - h.1 ≥ s.rd F.ctxFaultCfg_MIGRATE_WAIT (s.connCtx conn) * 1000000)
  match h.2 with
  | .gctTransferData hdr req addr vid add bytes =>
    if isOver hdr.conn.val then s.sendGct hdr.conn.val (.beadReply req.toNat .refused 0)
    else s.transfer (some h.1) h.2 hdr.conn.val req.toNat addr.toNat vid.toNat add.toNat bytes
  | .roceRdmaWrite c rkey va bytes =>
    if isOver c.val then s.emit (.roce c.val Roce.accessNak [])
    else s.rdma (some h.1) h.2 c.val 1 rkey.toNat va.toNat bytes.length (some bytes)
  | .roceRdmaRead c rkey va len =>
    if isOver c.val then s.emit (.roce c.val Roce.accessNak [])
    else s.rdma (some h.1) h.2 c.val 2 rkey.toNat va.toNat len.toNat none
  | .roceSend c bytes =>
    if isOver c.val then s.emit (.roce c.val Roce.accessNak []) else s.roceSend (some h.1) h.2 c.val bytes
  | _ => s

/-- The requests of peers that wait for a fault to be resolved are tried again. -/
def State.retryHeld (s : State) : State :=
  if s.netServes then s.net.held.foldl State.replayHeld { s with net := { s.net with held := [] } } else s

/-! ### Job controllers (R484, R580) -/

/-- The rights of job controller `k` (R484). -/
def State.ctrlRights (s : State) (k : Nat) : Nat := s.item 2 4 k 0

/-- A message of a job controller, which comes over the connection reserved for it (R484), taken in its turn: the number of
the controller. -/
def State.fromController (s : State) (h : GctHdr) : Option (Nat × State) :=
  if !s.netUp || h.conn.val < 4080 then none else (s.receive h true).map (fun s => (h.conn.val - 4080, s))

/-- GCT_DOORBELL (R580): a job controller that may submit to the context rings a doorbell. -/
def execGctDoorbell (hdr : GctHdr) (ctx : Fin 16) (ring : Fin 64) (tail : BitVec 32) (s : State) :
    Host.Outcome State Fault Refusal :=
  .next (match s.fromController hdr with
    | none => s
    | some (k, s) => if (s.ctrlRights k).testBit ctx.val then s.doorbell (ringKey ctx.val ring.val) tail.toNat else s)

end Sys2Proof.Machine
end

