-- ==== Sys2Proof/Machine/Coll.lean ====
section
/-!
DEFINITION. Collectives (R460 to R467): the forming and the end of groups, the exchange and the combination of data,
stage transfers at the sender, and DIGEST with its comparison over a group (R239 to R242).
-/
namespace Sys2Proof.Machine

/-! ### The descriptor (R462) -/

structure Coll where
  b : List Byte
  op : Nat
  red : Nat
  src : Nat
  dst : Nat
  cvt : Nat
  group : Nat
  srcAddr : Nat
  dstAddr : Nat
  count : Nat
  countAddr : Nat
  space : Nat
  root : Nat
  add : Nat
  deriving DecidableEq, Repr

def Coll.parse (d : List Byte) : Coll :=
  { b := d, op := fieldAt d 1 0 4, red := fieldAt d 1 4 2, src := fieldAt d 2 0 8, dst := fieldAt d 3 0 8,
    cvt := fieldAt d 4 0 8, group := fieldAt d 6 0 16, srcAddr := fieldAt d 8 0 64, dstAddr := fieldAt d 16 0 64,
    count := fieldAt d 24 0 64, countAddr := fieldAt d 32 0 64, space := fieldAt d 40 0 64, root := fieldAt d 48 0 16,
    add := fieldAt d 50 0 16 }

/-- ALL_REDUCE and REDUCE_SCATTER. -/
def Coll.reduces (k : Coll) : Bool := k.op < 2

def Coll.ok (k : Coll) : Bool :=
  let d := k.b
  fieldAt d 0 0 8 == 1 && (k.op < 6 || k.op == 8 || k.op == 9) && fieldAt d 1 6 2 == 0 && fieldAt d 5 0 8 == 0 && zeroAt d 52 64 &&
  (if k.reduces then
    k.red < 3 && cvtOk k.cvt
   else k.red == 0 && k.src == 0 && k.dst == 0 && k.cvt == 0) &&
  (if k.op = 5 then fieldAt d 48 14 2 == 0 else k.add == 0) &&
  (k.op == 4 || k.op == 5 || k.op == 8 || k.root == 0) && (k.op != 9 || k.srcAddr == 0)

/-- The formats that a reduction accepts (R45, R461). -/
def Coll.fmtOk (k : Coll) : Bool :=
  !k.reduces || ((k.src == FC.bf16 || k.src == FC.fp32 || k.src == FC.x36 || k.src == FC.int32) &&
    (if k.src = FC.int32 then k.dst == FC.int32 else fmtListed k.dst && k.dst != FC.int32))

/-- The member table of FORM: its own index holds 0xFFFF and no other does (R460). -/
def formTableOk (k : Coll) (t : List Byte) : Bool :=
  (List.range k.count).all (fun i => (fieldAt t (2 * i) 0 16 == 0xFFFF) == (i == k.root)) && k.root < k.count

/-- An entry of a count table. -/
def countAt (t : List Byte) (i : Nat) : Nat := fieldAt t (8 * i) 0 40
def countTableOk (t : List Byte) : Bool := (List.range (t.length / 8)).all (fun i => fieldAt t (8 * i) 40 24 == 0)

def collPrep (s : State) (k : Nat) (x : Cmd) : U Prep := do
  match ← readDesc x 64 8 with
  | .error e => return .error e
  | .ok d =>
    let c := Coll.parse d
    if !c.ok then return .error St.descInvalid
    else if !c.fmtOk then return .error St.fmtUnsupported
    else if c.op = 8 then
      if c.count = 0 ∨ c.count > 1024 ∨ c.group = 0 then return .error St.descInvalid
      else
        let t ← uRead c.srcAddr (2 * c.count)
        return (do need (formTableOk c t) St.descInvalid; .ok (d, [t]))
    else if c.countAddr = 0 ∨ c.op = 5 ∨ c.op = 9 then return .ok (d, [])
    else match s.group (k / 64) c.group with
      | none => return .error St.descInvalid
      | some g =>
        let t ← uRead c.countAddr (8 * g.conns.length)
        return (do need (countTableOk t) St.descInvalid; .ok (d, [t]))

/-! ### Shares (R464) -/

/-- share_j: equal shares, or the member's entry of the table. -/
def Coll.share (k : Coll) (t : Option (List Byte)) (j : Nat) : Nat :=
  match t with
  | some t => countAt t j
  | none => k.count

def Coll.before (k : Coll) (t : Option (List Byte)) (j : Nat) : Nat := ((List.range j).map (k.share t)).sum

/-- Elements or bytes that member `i` of `n` reads from its source. -/
def Coll.srcCount (k : Coll) (t : Option (List Byte)) (n i : Nat) : Nat :=
  match k.op with
  | 0 => k.count
  | 1 => k.before t n
  | 2 => k.share t i
  | 3 => k.before t n
  | _ => if i = k.root then k.count else 0

/-- Elements or bytes that a member receives; `rows` holds the members' rows of ALL_TO_ALL. -/
def Coll.dstCount (k : Coll) (t : Option (List Byte)) (n i : Nat) (rows : List (List Nat)) : Nat :=
  match k.op with
  | 0 => k.count
  | 1 => k.share t i
  | 2 => k.before t n
  | 3 => (rows.map (fun r => r.getD i 0)).sum
  | _ => k.count

/-- The bytes that `n` elements of a format, or `n` bytes, take. -/
def vecBytes (fmt n : Nat) : Nat := if fmt = 0 then n else slotBytes fmt n

/-- The destination as a vector: planes as in the slot of a version (R216). -/
def Coll.dstRef (k : Coll) (n : Nat) : TRef := slotRef k.dst k.cvt 0 n k.dstAddr

/-! ### The signature (R463) -/

def Coll.sig (k : Coll) (t : Option (List Byte)) (n i : Nat) : CollSig :=
  { op := BitVec.ofNat 4 k.op, red := BitVec.ofNat 2 k.red, fmt := BitVec.ofNat 8 k.src, count := BitVec.ofNat 64 k.count,
    root := BitVec.ofNat 16 k.root,
    crc := BitVec.ofNat 32 (if k.op = 3 then 0 else match t with | some t => crc32c t | none => 0),
    row := if k.op = 3 then (List.range n).map (fun j => BitVec.ofNat 40 (k.share t j)) else [],
    fits := k.op == 3 || decide (vecBytes k.dst (k.dstCount t n i []) ≤ k.space),
    space := BitVec.ofNat 64 k.space }

/-- The parts of two signatures that must be equal. -/
def sigAgree (a b : CollSig) : Bool :=
  a.op == b.op && a.red == b.red && a.fmt == b.fmt && a.count == b.count && a.root == b.root && a.crc == b.crc

/-- Every member's result fits its space, the rows of ALL_TO_ALL included. -/
def sigsFit (ss : List CollSig) : Bool :=
  ss.all (fun a => a.fits) &&
  ss.zipIdx.all (fun a => a.1.row == [] || decide ((ss.map (fun b => ((b.row[a.2]?).getD 0).toNat)).sum ≤ a.1.space.toNat))

/-- The blocks that ALL_TO_ALL brings a member meet its source (R464): with a count table, known by the signatures. -/
def Coll.meetsRows (k : Coll) (ss : List CollSig) (i : Nat) : Bool :=
  let row (j : Nat) : Nat := ((ss.map (fun a => ((a.row[j]?).getD 0).toNat))).sum
  k.op == 3 && spansMeet (k.srcAddr, (((ss[i]?).map (fun a => (a.row.map (·.toNat)).sum)).getD 0)) (k.dstAddr, row i)

/-! ### Contributions -/

/-- The wire format of a reduction (R461, R465): INT32, FP32 under D1 and D2, X36 under D3. -/
def wireFmt (src dialect : Nat) : Nat := if src = FC.int32 then FC.int32 else if dialect = 3 then FC.x36 else FC.fp32

/-- A contribution: its bytes and the elements, or bytes, of it that are lost. -/
def packPart (lost : List Nat) (bytes : List Byte) : List Nat := lost.length :: lost ++ bytes.map (·.toNat)
def partLost (p : List Nat) : List Nat := (p.drop 1).take (p.headD 0)
def partBytes (p : List Nat) : List Byte := (p.drop (1 + p.headD 0)).map (BitVec.ofNat 8)

/-- `n` elements of a vector in the wire format, sixteen at a time: codes, lost elements, flags. -/
def uElems (t : TRef) (wire n : Nat) : U (List Nat × List Nat) := do
  let rs ← (List.range (ceilDiv n 16)).mapM (fun q => do
    let m := min 16 (n - 16 * q)
    let lost0 ← (fun a => (a.lost, { a with lost := [] }) : U (List Nat))
    let (codes, fl) ← (if t.fmt = FC.int32 then do return (← t.readInts 0 (16 * q) m, {})
      else do
        let (xs, _) ← t.readNums false 0 (16 * q) m
        let ys := xs.map (fun x => if wire = FC.x36 then (x, {}) else Fmt.fp32.round {} none x)
        return (ys.map (fun y => (fmtOf wire).code y.1), ys.foldl (fun a y => a.or y.2) {}) : U (List Nat × Fl))
    let bad ← (fun a => (a.lost != [], { a with lost := joinLost lost0 a.lost }) : U Bool)
    if bad then return (List.replicate m 0, (List.range m).map (fun i => 16 * q + i))
    else do
      uFlags { overflow := fl.overflow }
      return (codes, []))
  return (rs.flatMap (·.1), rs.flatMap (·.2))

/-- Wire bytes of codes, and codes of wire bytes. -/
def wireBytes (wire : Nat) (codes : List Nat) : List Byte :=
  if wire = FC.x36 then packBales codes else codes.flatMap (natLE 4)
def wireCode (wire : Nat) (b : List Byte) (i : Nat) : Nat :=
  if wire = FC.x36 then bitsOf (leNat ((b.drop (i / 16 * 72)).take 72)) (36 * (i % 16)) 36 else fieldAt b (4 * i) 0 32

/-- `n` bytes with the places of the lost ones. -/
def uBytes (va n : Nat) : U (List Byte × List Nat) := do
  let ps ← uTry va n
  let sized := ps.zipIdx.map (fun p => (p.1.1, (match ps[p.2 + 1]? with | some q => q.1 | none => n) - p.1.1, p.1.2))
  return (sized.flatMap (fun p => p.2.2.getD (List.replicate p.2.1 0)),
          sized.flatMap (fun p => if p.2.2.isSome then [] else (List.range p.2.1).map (p.1 + ·)))

/-- The reading of the source: one unit of the network engine. -/
def collRead (k : Coll) (t : Option (List Byte)) (dialect n i : Nat) : U PUnit := do
  let m := k.srcCount t n i
  if k.reduces then do
    let w := wireFmt k.src dialect
    let (cs, lost) ← uElems (slotRef k.src 0 0 m k.srcAddr) w m
    uPart (packPart lost (wireBytes w cs))
  else do
    let (bs, lost) ← uBytes k.srcAddr m
    uPart (packPart lost bs)

/-! ### The combination (R465) -/

/-- One level of the fixed tree over members. -/
def pairNodes (f : Nat → Nat → Nat × Fl) : List Nat → List Nat × Fl
  | a :: b :: t => let (r, g) := f a b; let (rs, h) := pairNodes f t; (r :: rs, g.or h)
  | xs => (xs, {})

/-- The tree over the contributions of one element. -/
def treeNodes (f : Nat → Nat → Nat × Fl) : Nat → List Nat → Nat × Fl
  | 0, xs => (xs.headD 0, {})
  | _, [] => (0, {})
  | _, [x] => (x, {})
  | n + 1, xs => let (ys, g) := pairNodes f xs; let (r, h) := treeNodes f n ys; (r, g.or h)

/-- A node: two codes of the wire format (RED 0 SUM, 1 MAX, 2 MIN). -/
def node (wire red a b : Nat) : Nat × Fl :=
  if wire = FC.int32 then (redInt (red + 1) a b, {})
  else let f := fmtOf wire; let (r, fl) := redNum f (red + 1) (f.decode a) (f.decode b); (f.code r, fl)

/-- A free draw for each element of a stochastic destination (R64 names no generator of the network engine). -/
def uFreeDraws (n : Nat) : U (Nat → Nat) := fun a =>
  let m := a.s.nfree
  (fun i => (Config.freeValue (m + i)).toNat % 2 ^ 16, { a with s := { a.s with nfree := m + n } })

/-- The combined elements `[lo, lo + n)` written to the destination vector; pieces with a lost element stay as they
are: a whole block or bale where the format has one, else the element. -/
def collWriteReduced (k : Coll) (wire lo n : Nat) (parts : List CollPart) : U PUnit := do
  let d := k.dstRef n
  let step := if fmtBlocked k.dst then 32 else if k.dst = FC.x36 then 16 else 1
  let draw ← if d.draws then uFreeDraws n else pure (fun _ => 0)
  (List.range (ceilDiv n step)).forM (fun q => do
    let m := min step (n - step * q)
    let is := (List.range m).map (step * q + ·)
    if is.all (fun i => parts.all (fun p => !p.lost.contains (lo + i))) then do
      let rs := is.map (fun i => treeNodes (node wire k.red) 11 (parts.map (fun p => wireCode wire p.bytes (lo + i))))
      uFlags (rs.foldl (fun a r => a.or r.2) {})
      uCount m
      if wire = FC.int32 then uOut (k.dstAddr + 4 * (step * q)) (rs.flatMap (fun r => natLE 4 r.1))
      else do
        let o := d.encodeRow (fun i => draw (step * q + i)) 0 (step * q) (rs.map (fun r => (fmtOf wire).decode r.1))
        o.writes.forM (fun w => uOut w.1 w.2)
        uFlags o.flags)

/-- Bytes `[0, |bs|)` written at an address except the lost ones. -/
def uWriteBut (va : Nat) (bs : List Byte) (lost : List Nat) : U PUnit :=
  if lost = [] then do uOut va bs; uCount bs.length
  else bs.zipIdx.forM (fun b => if lost.contains b.2 then pure ⟨⟩ else do uOut (va + b.2) [b.1]; uCount 1)

/-- The result written: one unit of the network engine. -/
def collWrite (k : Coll) (t : Option (List Byte)) (dialect i : Nat) (parts : List CollPart) : U PUnit := do
  if k.reduces then
    let w := wireFmt k.src dialect
    if k.op = 0 then collWriteReduced k w 0 k.count parts
    else collWriteReduced k w (k.before t i) (k.share t i) parts
  else if k.op = 4 then
    match parts.find? (fun p => p.member == k.root) with
    | some p => if i = k.root ∧ k.dstAddr = k.srcAddr then pure ⟨⟩ else uWriteBut k.dstAddr p.bytes p.lost
    | none => pure ⟨⟩
  else
    let _ ← parts.foldlM (fun (o : Nat) p => do
      uWriteBut (k.dstAddr + o) p.bytes p.lost
      return o + p.bytes.length) 0

/-! ### The course of a collective -/

/-- What a collective keeps: 1, its sequence number, its stage (0 signatures, 1 reading, 2 data, 3 writing, 4 the
members' ends). -/
def collAux (seq stage : Nat) : List Nat := [1, seq, stage]
def Cmd.collSeq (x : Cmd) : Nat := x.aux.getD 1 0
def Cmd.collStage (x : Cmd) : Nat := x.aux.getD 2 0

/-- The group that a command runs over. -/
def Cmd.collGroup (x : Cmd) : Nat := if x.opcode = 0x0062 then fieldAt x.desc 12 0 16 else fieldAt x.desc 6 0 16

def State.setStage (s : State) (k : Nat) (x : Cmd) (stage : Nat) (ph : Phase) : State :=
  s.updCmd k x.count (fun y => { y with aux := collAux x.collSeq stage, phase := ph })

/-- A message to every other member. -/
def State.toMembers (s : State) (g : Group) (m : Nat → GctMsg) : State :=
  g.conns.zipIdx.foldl (fun s c => if c.2 = g.self then s else s.sendGct c.1 (m c.2)) s

/-- The data parts of a collective, by order of member: the `nth` part of each. -/
def Group.dataOf (g : Group) (seq nth : Nat) : List CollPart :=
  (List.range g.conns.length).filterMap (fun j => ((g.parts.filter (fun p => p.seq == seq && p.member == j)))[nth]?)

def Group.sigsOf (g : Group) (seq : Nat) : List CollSig :=
  (List.range g.conns.length).filterMap (fun j => (g.sigs.find? (fun e => e.1 == seq && e.2.1 == j)).map (·.2.2))

/-- The group without what it keeps for a collective that has ended here. -/
def State.clearColl (s : State) (c id seq : Nat) : State :=
  s.updGroup c id (fun g => { g with sigs := g.sigs.filter (fun e => e.1 != seq), parts := g.parts.filter (fun p => p.seq != seq) })

/-- The count table of a collective. -/
def Cmd.countTable (x : Cmd) : Option (List Byte) := x.tables[0]?

/-- The data that a member is sent: everything, or its block of ALL_TO_ALL. -/
def Coll.partFor (k : Coll) (t : Option (List Byte)) (p : List Nat) (j : Nat) : List Byte × List Nat :=
  let bs := partBytes p
  let lost := partLost p
  if k.op = 3 then
    let lo := k.before t j
    let n := k.share t j
    ((bs.drop lo).take n, (lost.filter (fun i => decide (lo ≤ i ∧ i < lo + n))).map (· - lo))
  else (bs, lost)

/-- The reading has ended: the data goes out, and the device's own part is kept beside the others'. -/
def collSent (k : Nat) (g : Group) (x : Cmd) (s : State) : State × Nat :=
  let c := Coll.parse x.desc
  let t := x.countTable
  let p := lookD x.parts 0 []
  let out (j : Nat) := c.partFor t p j
  let s := s.toMembers g (fun j => .data g.id x.collSeq (out j).1 ((out j).2) x.flags)
  let own : CollPart := { seq := x.collSeq, member := g.self, bytes := (out g.self).1, lost := (out g.self).2, flags := x.flags }
  let s := s.updGroup g.ctx g.id (fun g => { g with parts := g.parts ++ [own] })
  (s.setStage k x 2 .waiting, St.pending)

/-- The writing has ended: every member hears of this one's flags and whether it has lost data. -/
def collEnded (k : Nat) (g : Group) (x : Cmd) (s : State) : State × Nat :=
  let lost := if (partLost (lookD x.parts 0 [])) = [] then [] else [0]
  let s := s.toMembers g (fun _ => .data g.id x.collSeq [] lost x.flags)
  let own : CollPart := { seq := x.collSeq, member := g.self, bytes := [], lost := lost, flags := x.flags }
  let s := s.updGroup g.ctx g.id (fun g => { g with parts := g.parts ++ [own] })
  (s.setStage k x 4 .waiting, St.pending)

/-- The units of a collective at its stage. The group is read when the unit runs. -/
def collPlan (k : Nat) (x : Cmd) : Plan :=
  let c := Coll.parse x.desc
  let t := x.countTable
  let withGroup (f : Group → U PUnit) : U PUnit := do
    match (← uState).group (k / 64) c.group with
    | some g => f g
    | none => pure ⟨⟩
  let ends (f : Group → Cmd → State → State × Nat) (y : Cmd) (s : State) : State × Nat :=
    match s.group (k / 64) c.group with
    | some g => f g y s
    | none => (s, St.peerLost)
  if x.collStage ≤ 1 then
    { units := [(0, Unit.hub)], run := fun _ => withGroup (fun g => collRead c t g.dialect g.conns.length g.self),
      fin := ends (collSent k) }
  else
    { units := [(1, Unit.hub)],
      run := fun _ => withGroup (fun g => collWrite c t g.dialect g.self (g.dataOf x.collSeq 0)),
      fin := ends (collEnded k) }

/-- The signatures are in: they are judged, and the source is read (R463). -/
def State.collJudge (s : State) (k : Nat) (x : Cmd) (g : Group) : State :=
  let ss := g.sigsOf x.collSeq
  let own := Coll.sig (Coll.parse x.desc) x.countTable g.conns.length g.self
  let seq := x.collSeq
  match ss.zipIdx.find? (fun a => !sigAgree a.1 own) with
  | some (_, j) =>
    let s := s.raise (netNtc 0x0C07 Sev.error (some g.ctx) g.id seq j)
    (s.clearColl g.ctx g.id seq).endOut k x.count St.descInvalid
  | none =>
    if !sigsFit ss || (Coll.parse x.desc).meetsRows ss g.self then (s.clearColl g.ctx g.id seq).endOut k x.count St.descInvalid
    else
      let y := { x with aux := collAux seq 1, phase := .stalled }
      (s.updCmd k x.count (fun _ => y)).runPlan k y (collPlan k y)

/-- All data is in: the result is written. -/
def State.collCombine (s : State) (k : Nat) (x : Cmd) : State :=
  let y := { x with aux := collAux x.collSeq 3, phase := .stalled }
  (s.updCmd k x.count (fun _ => y)).runPlan k y (collPlan k y)

/-- Every member has ended: the flags of all are joined, and a loss anywhere is a loss everywhere (R465, R466). -/
def State.collFinish (s : State) (k : Nat) (x : Cmd) (g : Group) : State :=
  let ends := g.dataOf x.collSeq 1
  let y := { x with flags := ends.foldl (fun a p => a ||| p.flags) x.flags,
                    dataLoss := x.dataLoss || ends.any (fun p => p.lost != []) }
  let s := (s.updCmd k x.count (fun _ => y)).clearColl g.ctx g.id x.collSeq
  s.endCmd k y St.ok

/-! ### DIGEST (R239 to R242) -/

structure Dig where
  b : List Byte
  sel : Nat
  headOnly : Bool
  compare : Bool
  slot : Nat
  sum : Bool
  first : Nat
  count : Nat
  interval : Nat
  group : Nat
  addr : Nat
  gather : Nat
  deriving DecidableEq, Repr

def Dig.parse (d : List Byte) : Dig :=
  { b := d, sel := fieldAt d 1 0 1, headOnly := fieldAt d 1 1 1 == 1, compare := fieldAt d 1 2 1 == 1, slot := fieldAt d 2 0 6,
    sum := fieldAt d 2 6 1 == 1, first := fieldAt d 4 0 16, count := fieldAt d 6 0 16, interval := fieldAt d 8 0 32,
    group := fieldAt d 12 0 16, addr := fieldAt d 16 0 64, gather := fieldAt d 24 0 64 }

def Dig.ok (g : Dig) : Bool :=
  fieldAt g.b 0 0 8 == 1 && fieldAt g.b 1 3 5 == 0 && fieldAt g.b 2 7 1 == 0 && fieldAt g.b 3 0 8 == 0 && 1 ≤ g.count &&
  (g.compare || (g.group == 0 && g.gather == 0)) && fieldAt g.b 14 0 16 == 0 && zeroAt g.b 32 64

/-- INTERVAL lets the command run on this version. -/
def Dig.runs (g : Dig) (v : Nat) : Bool := g.interval ≤ 1 || v % g.interval == 0

def digestPrep (s : State) (k : Nat) (x : Cmd) : U Prep := do
  match ← readDesc x 64 8 with
  | .error e => return .error e
  | .ok d =>
    let g := Dig.parse d
    if !g.ok then return .error St.descInvalid
    else if !g.runs (s.rd F.ctxVersion_CURRENT (k / 64) + g.sel) then return .ok (d, [])
    else match ← uGroups (k / 64) g.first g.count with
      | none => return .error St.descInvalid
      | some t => return (do need ((groupsOf t).all PGroup.ok) St.descInvalid; .ok (d, [t]))

/-- The streams of the groups of a DIGEST. -/
def digStreams (x : Cmd) : List (List (Nat × Nat)) :=
  let g := Dig.parse x.desc
  (groupsOf ((x.tables[0]?).getD [])).map (fun p => p.stream g.headOnly (x.ver + g.sel))

/-- The chunks of all groups: group and chunk. -/
def digChunks (ss : List (List (Nat × Nat))) : List (Nat × Nat) :=
  ss.zipIdx.flatMap (fun p => (List.range (ceilDiv (streamBytes p.1) chunkBytes)).map (fun q => (p.2, q)))

/-- The digests of the groups, from the chunks that were not lost. -/
def digests (x : Cmd) : List Nat :=
  let ss := digStreams x
  let cs := digChunks ss
  (List.range ss.length).map (fun i => digestOf (cs.zipIdx.filterMap (fun c =>
    if c.1.1 = i then (look x.parts c.2).map (fun p => (c.1.2, p.headD 0)) else none)))

/-- The value held by most members; among equals the one of the lowest member (R242). -/
def reference (vs : List Nat) : Nat :=
  let n (v : Nat) : Nat := (vs.filter (· == v)).length
  vs.foldl (fun r v => if n r < n v then v else r) (vs.headD 0)

/-- Groups whose members disagree: group index, members that disagree, the lowest of them. -/
def disagreements (n : Nat) (parts : List CollPart) : List (Nat × Nat × Nat) :=
  (List.range n).filterMap (fun i =>
    let vs := parts.map (fun p => fieldAt p.bytes (16 * i) 0 128)
    let r := reference vs
    match vs.zipIdx.filter (fun v => v.1 != r) with
    | [] => none
    | l@((_, j) :: _) => some (i, l.length, j))

/-- The end of a DIGEST: the notices of the groups that disagree, and the summary (R242, R253). -/
def digFin (k : Nat) (parts : List CollPart) (x : Cmd) (s : State) : State × Nat :=
  let g := Dig.parse x.desc
  let c := k / 64
  let d := s.fetchDie k
  let bad := if parts = [] then [] else disagreements g.count parts
  let s := bad.foldl (fun s e => (s.count F.ctxTrainCounts_DIGEST c 1).raise
    { code := 0x0902, sev := Sev.error, ctx := some c, data := Unit.die d, ctrl := Path.bar d,
      a1 := g.first + e.1, a2 := e.2.1, a3 := e.2.2 }) s
  let s := if g.sum then
      ((s.effTiles k).filter s.tilePresent).foldl (fun s t => s.setSlot c t g.slot (x36Code (Num.ofNat bad.length))) s
    else s
  (s, St.ok)

/-- The digests written, and with COMPARE those of all members. -/
def digWrite (x : Cmd) (parts : List CollPart) : U PUnit := do
  let g := Dig.parse x.desc
  if g.addr ≠ 0 then uOut g.addr ((digests x).flatMap (natLE 16))
  if g.gather ≠ 0 then
    uOut g.gather ((List.range g.count).flatMap (fun i => parts.flatMap (fun p => slice p.bytes (16 * i) 16)))

/-- The chunks are read: the digests go to the members. -/
def digSent (k : Nat) (g : Group) (x : Cmd) (s : State) : State × Nat :=
  let bs := (digests x).flatMap (natLE 16)
  let s := s.toMembers g (fun _ => .data g.id x.collSeq bs [] 0)
  let own : CollPart := { seq := x.collSeq, member := g.self, bytes := bs, lost := [], flags := 0 }
  let s := s.updGroup g.ctx g.id (fun g => { g with parts := g.parts ++ [own] })
  (s.setStage k x 2 .waiting, St.pending)

def digPlan (k : Nat) (x : Cmd) : Plan :=
  let g := Dig.parse x.desc
  let ss := digStreams x
  let cs := digChunks ss
  let n := cs.length
  let chunk (j : Nat) : U PUnit := uStrict do
    match cs[j]? with
    | some (i, q) => uPart [← uChunk ((ss[i]?).getD []) q]
    | none => pure ⟨⟩
  let withCmd (f : Cmd → U PUnit) : U PUnit := do
    match ← uLive k x.count with
    | some y => f y
    | none => pure ⟨⟩
  if !g.compare then
    { units := tileUnits x.tiles n
      run := fun j => if j < n then chunk j else withCmd (fun y => digWrite y [])
      late := fun y => if g.addr = 0 then [] else [(n, y.unit)]
      fin := digFin k [] }
  else if x.collStage ≤ 1 then
    { units := tileUnits x.tiles n, run := chunk
      fin := fun y s => match s.group (k / 64) g.group with
        | some gr => digSent k gr y s
        | none => (s, St.peerLost) }
  else
    { units := [(n, x.unit)]
      run := fun _ => withCmd (fun y => do
        match (← uState).group (k / 64) g.group with
        | some gr => digWrite y (gr.dataOf x.collSeq 0)
        | none => pure ⟨⟩)
      fin := fun y s => match s.group (k / 64) g.group with
        | some gr => digFin k (gr.dataOf x.collSeq 0) y (s.clearColl gr.ctx gr.id x.collSeq)
        | none => (s, St.peerLost) }

/-! ### Going on -/

/-- A collective, or the comparison of a DIGEST, goes on when what its stage waits for has come. -/
def State.collStep (s : State) (k count : Nat) : State :=
  match s.cmdAt k count with
  | none => s
  | some x =>
    if x.phase ≠ .waiting ∨ x.aux.headD 0 ≠ 1 then s
    else match s.group (k / 64) x.collGroup with
      | none => s
      | some g =>
        let n := g.conns.length
        match x.collStage with
        | 0 => if (g.sigsOf x.collSeq).length = n then s.collJudge k x g else s
        | 2 =>
          if (g.dataOf x.collSeq 0).length = n then
            if x.opcode = 0x0062 then
              let y := { x with aux := collAux x.collSeq 3, phase := .stalled }
              (s.updCmd k count (fun _ => y)).runPlan k y (digPlan k y)
            else s.collCombine k x
          else s
        | 4 => if (g.dataOf x.collSeq 1).length = n then s.collFinish k x g else s
        | _ => s

/-- As far as it can go now. -/
def State.collAdvance (s : State) (k count : Nat) : State := ((s.collStep k count).collStep k count).collStep k count

/-- The command of a context that runs a group's collective with a sequence number. -/
def State.collCmd (s : State) (c id seq : Nat) : Option (Nat × Cmd) :=
  (s.rings.flatMap (fun e => if e.1 / 64 = c then
    (e.2.cmds.filter (fun x => x.phase == .waiting && (x.opcode == 0x0070 || x.opcode == 0x0062) && x.collGroup == id &&
      x.aux.headD 0 == 1 && x.collSeq == seq)).map (fun x => (e.1, x)) else [])).head?

/-- The group may be used: the status when it may not (R460, R466). -/
def State.groupUse (s : State) (c id : Nat) : Except Nat Group :=
  match s.group c id with
  | none => .error St.descInvalid
  | some g => if g.phase = 2 then .error St.peerLost else if g.phase = 0 then .error St.descInvalid else .ok g

/-- What a group's dialect lacks of a command (R461). -/
def Coll.dialectStatus (k : Coll) (g : Group) : Option Nat :=
  if g.dialect = 1 ∧ k.reduces ∧ k.src = FC.x36 then some St.fmtUnsupported
  else if g.dialect = 1 ∧ k.countAddr ≠ 0 then some St.descInvalid else none

/-- Source and destination overlap in a way that R464 does not allow. -/
def Coll.overlaps (k : Coll) (t : Option (List Byte)) (n i : Nat) : Bool :=
  let a := (k.srcAddr, vecBytes k.src (k.srcCount t n i))
  let b := (k.dstAddr, if k.op = 3 ∧ k.countAddr ≠ 0 then 0 else vecBytes k.dst (k.dstCount t n i ((List.range n).map (fun _ => (List.range n).map (k.share t)))))
  spansMeet a b && !((k.op == 0 || k.op == 4) && k.srcAddr == k.dstAddr)

/-- A collective on a formed group: its signature goes out (R463). -/
def State.startOnGroup (s : State) (k : Nat) (x : Cmd) : State :=
  let c := Coll.parse x.desc
  match s.groupUse (k / 64) c.group with
  | .error st => s.rejectCmd k x.count st
  | .ok g =>
    let n := g.conns.length
    match c.dialectStatus g with
    | some st => s.rejectCmd k x.count st
    | none =>
      if c.overlaps x.countTable n g.self || (c.op == 4 && c.root ≥ n) then s.rejectCmd k x.count St.descInvalid
      else
        let sg := c.sig x.countTable n g.self
        let s := s.updGroup g.ctx g.id (fun h => { h with seq := h.seq + 1, sigs := h.sigs ++ [(g.seq, g.self, sg)] })
        let s := s.toMembers g (fun _ => .sig g.id g.seq sg)
        let s := s.updCmd k x.count (fun y => { y with phase := .waiting, aux := collAux g.seq 0, unit := Unit.hub })
        (s.collAdvance k x.count).armRing k

/-! ### FORM and DISSOLVE (R460) -/

/-- A JOIN judged by a forming group: the member's maximum is kept, or the JOIN disagrees. -/
def Group.takeJoin (g : Group) (conn n index mx : Nat) : Option Group :=
  if g.conns[index]? = some conn ∧ n = g.conns.length then some { g with joins := put g.joins index mx } else none

/-- The command that forms a group. -/
def State.formCmd (s : State) (c id : Nat) : Option (Nat × Cmd) :=
  (s.rings.flatMap (fun e => if e.1 / 64 = c then
    (e.2.cmds.filter (fun x => x.phase == .waiting && x.opcode == 0x0070 && fieldAt x.desc 1 0 4 == 8 &&
      fieldAt x.desc 6 0 16 == id && x.aux != [])).map (fun x => (e.1, x)) else [])).head?

/-- A JOIN for a forming group; FORM ends with the last, or with one that disagrees. -/
def State.joinForm (s : State) (g : Group) (conn n index mx : Nat) : State :=
  match s.formCmd g.ctx g.id with
  | none => s
  | some (k, x) =>
    match g.takeJoin conn n index mx with
    | none =>
      let s := { s with groups := s.groups.filter (fun h => !(h.ctx == g.ctx && h.id == g.id)) }
      (s.raise (netNtc 0x0C06 Sev.error (some g.ctx) g.id index n)).endOut k x.count St.descInvalid
    | some h =>
      if h.joins.length = h.conns.length then
        let d := (h.joins.map (·.2)).foldl min 15
        if d = 0 then s.updGroup g.ctx g.id (fun _ => h)
        else
          let s := (s.updGroup g.ctx g.id (fun _ => { h with phase := 1, dialect := d, joins := [] })).updCmd k x.count
            (fun y => { y with counts := d })
          s.endCmd k x St.ok
      else s.updGroup g.ctx g.id (fun _ => h)

/-- The dialect maximum that a member announces (R460). -/
def State.joinMax (s : State) (conns : List Nat) : Nat :=
  let m := (s.ownRange 1).2
  if conns.any (fun c => s.connVer c 5 ≤ 1) then min m 2 else m

/-- FORM on open connections: the group forms, and JOIN goes to every member. -/
def State.startForm (s : State) (k : Nat) (x : Cmd) : State :=
  let c := k / 64
  let d := Coll.parse x.desc
  let conns := formConns x
  let others := conns.filter (· ≠ 0xFFFF)
  if (s.group c d.group).isSome ∨ s.groups.length ≥ 1024 then s.rejectCmd k x.count St.descInvalid
  else if others.any (fun m => s.connVer m 1 == 0) then s.rejectCmd k x.count St.versionMismatch
  else
    let mx := s.joinMax others
    let g : Group := { ctx := c, id := d.group, conns := conns, self := d.root }
    let s := { s with groups := s.groups ++ [g] }
    let s := s.toMembers g (fun _ => .join g.id conns.length d.root mx)
    let s := s.updCmd k x.count (fun y => { y with phase := .waiting, aux := collAux 0 0, unit := Unit.hub })
    let early := s.net.joins.filter (fun j => j.2.1 == g.id && s.connCtx j.1 == c)
    let s := { s with net := { s.net with joins := s.net.joins.filter (fun j => !(j.2.1 == g.id && s.connCtx j.1 == c)) } }
    (((0xFFFF, g.id, conns.length, d.root, mx) :: early).foldl (fun s j =>
      match s.group c g.id with
      | some h => if h.phase = 0 then s.joinForm h j.1 j.2.2.1 j.2.2.2.1 j.2.2.2.2 else s
      | none => s) s).armRing k

/-- The commands of a context that run over a group. -/
def State.groupCmds (s : State) (c id : Nat) : List (Nat × Nat) :=
  s.rings.flatMap (fun e => if e.1 / 64 = c then
    (e.2.cmds.filter (fun x => (x.phase == .waiting || x.phase == .stalled) && x.aux != [] &&
      ((x.opcode == 0x0070 && fieldAt x.desc 1 0 4 != 5 && fieldAt x.desc 1 0 4 != 9) ||
       (x.opcode == 0x0062 && fieldAt x.desc 1 2 1 == 1)) && x.collGroup == id)).map (fun x => (e.1, x.count)) else [])

/-- A group becomes BROKEN: what runs over it completes PEER_LOST (R466). -/
def State.breakGroup (s : State) (c id : Nat) : State :=
  let hits := s.groupCmds c id
  hits.foldl (fun s h => s.endOut h.1 h.2 St.peerLost)
    (s.updGroup c id (fun g => { g with phase := 2, sigs := [], parts := [] }))

/-- DISSOLVE: the group is removed here and the members hear LEAVE (R460). -/
def State.dissolve (s : State) (k : Nat) (x : Cmd) : State :=
  let c := k / 64
  let id := fieldAt x.desc 6 0 16
  match s.group c id with
  | none => s.rejectCmd k x.count St.descInvalid
  | some g =>
    let s := (s.breakGroup c id).toMembers g (fun _ => .leave id)
    let s := { s with groups := s.groups.filter (fun h => !(h.ctx == c && h.id == id)) }
    s.endCmd k { x with unit := Unit.hub } St.ok

/-- GCT_JOIN (R460): a JOIN before the local FORM is kept for it. -/
def execGctJoin (hdr : GctHdr) (group n index : BitVec 16) (max : BitVec 4) (s : State) : Host.Outcome State Fault Refusal :=
  .next (if !s.netUp then s else match s.receive hdr true with
    | none => s
    | some s =>
      let conn := hdr.conn.val
      match s.group (s.connCtx conn) group.toNat with
      | some g => if g.phase = 0 then s.joinForm g conn n.toNat index.toNat max.toNat
                  else { s with net := { s.net with joins := s.net.joins ++ [(conn, group.toNat, n.toNat, index.toNat, max.toNat)] } }
      | none => { s with net := { s.net with joins := s.net.joins ++ [(conn, group.toNat, n.toNat, index.toNat, max.toNat)] } })

/-- GCT_LEAVE (R460). -/
def execGctLeave (hdr : GctHdr) (group : BitVec 16) (s : State) : Host.Outcome State Fault Refusal :=
  .next (if !s.netUp then s else match s.receive hdr true with
    | none => s
    | some s => match s.group (s.connCtx hdr.conn.val) group.toNat with
      | some g => if g.conns.contains hdr.conn.val then s.breakGroup g.ctx g.id else s
      | none => s)

/-- What arrives for a group on a member's connection. A member that has every JOIN may send while the group still forms
here: that is kept (R460, R463). -/
def State.memberOf (s : State) (conn id : Nat) : Option (Group × Nat) :=
  match s.group (s.connCtx conn) id with
  | some g => if g.phase ≠ 2 then (g.conns.zipIdx.find? (fun e => e.1 == conn)).map (fun e => (g, e.2)) else none
  | none => none

/-- The command that waits for the data of a group goes on. -/
def State.collGo (s : State) (g : Group) (seq : Nat) : State :=
  match s.collCmd g.ctx g.id seq with
  | some (k, x) => s.collAdvance k x.count
  | none => s

/-- GCT_COLL_SIGNATURE (R463). -/
def execGctCollSignature (hdr : GctHdr) (group : BitVec 16) (seq : BitVec 32) (sig : CollSig) (s : State) :
    Host.Outcome State Fault Refusal :=
  .next (if !s.netUp then s else match s.receive hdr true with
    | none => s
    | some s => match s.memberOf hdr.conn.val group.toNat with
      | some (g, j) =>
        (s.updGroup g.ctx g.id (fun h => { h with sigs := h.sigs ++ [(seq.toNat, j, sig)] })).collGo g seq.toNat
      | none => s)

/-- GCT_COLLECTIVE_DATA (R465): a member's data, or the word of its end, which comes after it. -/
def execGctCollectiveData (hdr : GctHdr) (group : BitVec 16) (seq : BitVec 32) (bytes : List Byte) (lost : List Nat)
    (flags : Byte) (s : State) : Host.Outcome State Fault Refusal :=
  .next (if !s.netUp then s else match s.receive hdr true with
    | none => s
    | some s => match s.memberOf hdr.conn.val group.toNat with
      | some (g, j) =>
        let p : CollPart := { seq := seq.toNat, member := j, bytes := bytes, lost := lost, flags := flags.toNat }
        (s.updGroup g.ctx g.id (fun h => { h with parts := h.parts ++ [p] })).collGo g seq.toNat
      | none => s)

/-- The members that a collective has not heard from at its stage (R466). -/
def State.silent (s : State) (c : Nat) (x : Cmd) : Nat :=
  match s.group c x.collGroup with
  | none => 0
  | some g =>
    let n := g.conns.length
    if fieldAt x.desc 1 0 4 = 8 then n - g.joins.length
    else if x.collStage = 0 then n - (g.sigsOf x.collSeq).length
    else if x.collStage ≤ 2 then n - (g.dataOf x.collSeq 0).length
    else n - (g.dataOf x.collSeq 1).length

/-- COLLECTIVE_TIMEOUT (R466): the command completes PEER_LOST; on a group, the notice is raised and the group breaks. -/
def execCollectiveTimeout (id : CmdId) (s : State) : Host.Outcome State Fault Refusal :=
  let c := id.ctx.val
  let k := CmdKey id
  .next (match s.cmd id with
    | none => s
    | some x =>
      if x.opcode = 0x0070 ∧ (x.phase = .waiting ∨ x.phase = .stalled) ∧ x.aux ≠ [] ∧ s.timedOut x then
        if fieldAt x.desc 1 0 4 = 5 then s.endOut k x.count St.peerLost
        else
          let s := s.raise (netNtc 0x0C08 Sev.error (some c) x.collGroup x.collSeq (s.silent c x))
          s.breakGroup c x.collGroup
      else s)

/-! ### TRANSFER at the sender (R467) -/

/-- The runs of a source that are intact: offset and length. -/
def intactRuns (lost : List Nat) (n : Nat) : List (Nat × Nat) :=
  if lost = [] then [(0, n)]
  else
    ((List.range n).foldl (fun (a : List (Nat × Nat)) i =>
      if lost.contains i then a
      else match a with
        | (o, m) :: t => if o + m = i then (o, m + 1) :: t else (i, 1) :: (o, m) :: t
        | [] => [(i, 1)]) []).reverse

/-- The bytes read go out: each intact run by itself, the addition with the last message. -/
def transferSent (k : Nat) (x : Cmd) (s : State) : State × Nat :=
  let c := Coll.parse x.desc
  let p := lookD x.parts 0 []
  let bs := partBytes p
  let runs := match intactRuns (partLost p) bs.length with
    | [] => [(0, 0)]
    | rs => rs
  let (q, s) := s.takeReq c.group
  let s := runs.zipIdx.foldl (fun s r =>
    let last := r.2 + 1 == runs.length
    s.sendGct c.group (.transfer q (c.dstAddr + r.1.1) (if last then c.root else 0) (if last then c.add else 0)
      ((bs.drop r.1.1).take r.1.2))) s
  (s.updCmd k x.count (fun y => { y with aux := [c.group, q, runs.length, 0], counts := bs.length - (partLost p).length }), St.pending)

def transferPlan (k : Nat) (x : Cmd) : Plan :=
  let c := Coll.parse x.desc
  { units := [(0, Unit.hub)],
    run := fun _ => do
      let (bs, lost) ← uBytes c.srcAddr c.count
      uPart (packPart lost bs),
    fin := transferSent k }

def State.startTransfer (s : State) (k : Nat) (x : Cmd) : State :=
  let y := { x with phase := .stalled, unit := Unit.hub }
  (s.updCmd k x.count (fun _ => y)).runPlan k y (transferPlan k y)

/-! ### The engines -/

def collFoot (x : Cmd) : List (Nat × Nat × Bool) :=
  let c := Coll.parse x.desc
  match c.op with
  | 5 => [footRange c.srcAddr c.count false]
  | 8 => []
  | 9 => []
  | _ =>
    let t := x.countTable
    let n := match t with | some t => t.length / 8 | none => 1
    [footRange c.srcAddr (vecBytes c.src (max (c.before t n) c.count)) false, footRange c.dstAddr c.space true]

def collEngine : Engine where
  prep := collPrep
  foot := collFoot
  early := fun _ => pure false
  plan := fun k x => if fieldAt x.desc 1 0 4 = 5 then transferPlan k x else collPlan k x
  start := fun s k x =>
    match fieldAt x.desc 1 0 4 with
    | 5 => s.onConns k x State.startTransfer
    | 8 => s.onConns k x State.startForm
    | 9 => s.dissolve k x
    | _ => s.startOnGroup k x

/-- DIGEST at issue: skipped by INTERVAL, or its chunks run; with COMPARE it takes its place in the group's order. -/
def State.startDigest (s : State) (k : Nat) (x : Cmd) : State :=
  let d := Dig.parse x.desc
  if !d.runs (x.ver + d.sel) then s.endCmd k x St.okEmpty
  else if !d.compare then s.runPlan k x (digPlan k x)
  else match s.groupUse (k / 64) d.group with
    | .error st => s.rejectCmd k x.count st
    | .ok g =>
      if (g.conns.filter (· ≠ 0xFFFF)).any (fun m => s.connVer m 4 == 0) then s.rejectCmd k x.count St.versionMismatch
      else
        let y := { x with aux := collAux g.seq 1 }
        let s := s.updGroup g.ctx g.id (fun h => { h with seq := h.seq + 1 })
        ((s.updCmd k x.count (fun _ => y)).runPlan k y (digPlan k y)).collAdvance k x.count

def digestEngine : Engine where
  prep := digestPrep
  foot := fun x =>
    let g := Dig.parse x.desc
    let gs := groupsOf ((x.tables[0]?).getD [])
    (if g.addr = 0 then [] else [footRange g.addr (16 * g.count) true]) ++
    (if g.gather = 0 then [] else [footRange g.gather (16 * g.count * 1024) true]) ++ gs.flatMap (fun p => p.foot false)
  tiled := true
  early := fun _ => pure false
  plan := digPlan
  start := State.startDigest

end Sys2Proof.Machine
end

