-- ==== Sys2Proof/Machine/Loan.lean ====
section
/-!
DEFINITION. Loans (R247 to R250, R468 to R470): windows and grants, accesses through a bound window, LOAN_STEP at the
borrower, and what the lender does for it.
-/
namespace Sys2Proof.Machine

/-! ### Windows of the borrower (R469) -/

/-- LOAN_BIND (R469). -/
def execLoanBind (w : Fin 16) (s : State) : Host.Outcome State Fault Refusal := .next (s.beginBind w.val)

/-- A write of UNBIND: a grant that is held or asked for is released, and the window is UNBOUND (R469, R470). -/
def State.unbind (s : State) (w : Nat) : State :=
  let st := s.rd F.netLoanWin_STATE w
  if st = 0 then s
  else
    let s := if st = 3 then s else s.sendGct (s.rd F.netLoanWin_CONN w) (.loan 2 [s.rd F.netLoanWin_OFFSET_GIB w] [])
    let s := if st = 3 then s else (s.failWindow w).dropWrites w
    s.wr F.netLoanWin_STATE w 0

/-- LOAN_UNBIND (R469). -/
def execLoanUnbind (w : Fin 16) (s : State) : Host.Outcome State Fault Refusal := .next (s.unbind w.val)

/-- LOAN_GRANT_REPLY (R469): BOUND on a grant; a refusal raises its notice and makes the faults that wait fatal. -/
def execLoanGrantReply (hdr : GctHdr) (w : Fin 16) (granted : Bool) (cause : BitVec 2) (s : State) :
    Host.Outcome State Fault Refusal :=
  .next (if !s.netUp then s else match s.receive hdr true with
    | none => s
    | some s =>
      if s.rd F.netLoanWin_STATE w.val = 1 ∧ s.rd F.netLoanWin_CONN w.val = hdr.conn.val then
        if granted then s.wr F.netLoanWin_STATE w.val 2
        else
          let s := (s.wr F.netLoanWin_STATE w.val 0).raise
            (netNtc 0x0C0B Sev.error (some (s.connCtx hdr.conn.val)) w.val hdr.conn.val cause.toNat)
          s.failWindow w.val
      else s)

/-! ### Grants of the lender (R468) -/

/-- The cause of a refusal, or none (R468, R473). -/
def State.grantCause (s : State) (conn off size : Nat) : Option Nat :=
  if !s.flag F.netLendCfg_ENABLE || s.connCtx conn != s.rd F.netLendCfg_CTX || !s.connMay conn 5 then some 2
  else if size = 0 ∨ size > 64 ∨ off + size > s.rd F.netLendCfg_SIZE_GIB then some 1
  else if s.grants.any (fun g => decide (off < g.base + g.size ∧ g.base < off + size)) then some 0
  else if s.grants.length ≥ 64 then some 3
  else none

/-- The state with other grants; GRANTS counts them. -/
def State.setGrants (s : State) (gs : List Grant) : State := { s with grants := gs }.wr F.netLendCfg_GRANTS 0 gs.length

/-- A grant is zeroed and given. -/
def State.giveGrant (s : State) (conn off size : Nat) : State :=
  let lo := (s.rd F.netLendCfg_BASE_GIB + off) * 2 ^ 30
  (s.zeroRange lo (lo + size * 2 ^ 30)).setGrants (s.grants ++ [{ conn := conn, base := off, size := size }])

/-- LOAN_GRANT_REQUEST (R468). -/
def execLoanGrantRequest (hdr : GctHdr) (offsetGib sizeGib : BitVec 16) (s : State) : Host.Outcome State Fault Refusal :=
  .next (if !s.netServes then s else match s.receive hdr true with
    | none => s
    | some s =>
      let conn := hdr.conn.val
      match s.grantCause conn offsetGib.toNat sizeGib.toNat with
      | some c => s.sendGct conn (.loan 1 [offsetGib.toNat, 0, c] [])
      | none => (s.giveGrant conn offsetGib.toNat sizeGib.toNat).sendGct conn (.loan 1 [offsetGib.toNat, 1, 0] []))

/-- LOAN_GRANT_RELEASE (R469). -/
def execLoanGrantRelease (hdr : GctHdr) (offsetGib : BitVec 16) (s : State) : Host.Outcome State Fault Refusal :=
  .next (if !s.netServes then s else match s.receive hdr true with
    | none => s
    | some s => s.setGrants (s.grants.filter (fun g => !(g.conn == hdr.conn.val && g.base == offsetGib.toNat))))

/-- The grant of a connection that holds `n` bytes at an offset of the loan region. -/
def State.grantOf (s : State) (conn off n : Nat) : Option Grant :=
  s.grants.find? (fun g => g.conn == conn && decide (g.base * 2 ^ 30 ≤ off ∧ off + n ≤ (g.base + g.size) * 2 ^ 30))

/-- The physical address of an offset of the loan region. -/
def State.lendAddr (s : State) (off : Nat) : Nat := s.rd F.netLendCfg_BASE_GIB * 2 ^ 30 + off

/-- A borrower's access to a grant: the bytes of a granule, or an acknowledgement; the second field says that the data
is lost. An access outside the borrower's grants is answered as lost. -/
def State.lendAccess (s : State) (conn off : Nat) (write : Option (List Byte)) : State :=
  match write with
  | none =>
    if (s.grantOf conn off 64).isNone then s.sendGct conn (.loan 3 [off, 1] [])
    else
      let (bs, lost, s) := s.readPhys (s.lendAddr off) 64
      match lost with
      | g :: _ => (s.tellLoss (s.rd F.netLendCfg_CTX) Unit.hub g 1).sendGct conn (.loan 3 [off, 1] [])
      | [] => s.sendGct conn (.loan 3 [off, 0] bs)
  | some b =>
    if (s.grantOf conn off b.length).isNone then s.sendGct conn (.loan 4 [off, 1] [])
    else
      let (ok, s) := s.writePhys (s.lendAddr off) b
      s.sendGct conn (.loan 4 [off, b2n (!ok)] [])

/-- LOAN_ACCESS_REQUEST (R469). -/
def execLoanAccessRequest (hdr : GctHdr) (offset : Word) (write : Option (List Byte)) (s : State) :
    Host.Outcome State Fault Refusal :=
  .next (if !s.netServes then s else match s.receive hdr false with
    | none => s
    | some s => s.lendAccess hdr.conn.val offset.toNat write)

/-! ### LOAN_STEP at the borrower (R248) -/

/-- The entry of a group as words, for the lender. -/
def PGroup.words (g : PGroup) : List Word := (chunks 8 17 g.bytes).map (fun b => BitVec.ofNat 64 (leNat b))

/-- The gradient scale of a LOAN_STEP: the immediate, or the slot of the lowest present tile of the ring's set (R228). -/
def State.loanScale (s : State) (k : Nat) (o : Opt) : Nat :=
  if o.fromSum then s.slot (k / 64) (((s.effTiles k).filter s.tilePresent).headD 0) o.slot else fieldAt o.b 16 0 36

/-- A gradient in the wire format with the flags of its conversion: rounded to BF16, or exact in X36. -/
def wireGrad (wire : Nat) (xs : List Num) : List Byte × Fl :=
  if wire = 1 then (packBales (xs.map Fmt.x36.code), {})
  else
    let ys := xs.map (Fmt.bf16.round {} none)
    (ys.flatMap (fun y => natLE 2 (Fmt.bf16.code y.1)), ys.foldl (fun a y => a.or y.2) {})

/-- The groups of a LOAN_STEP. -/
def loanGroups (x : Cmd) : List PGroup := groupsOf ((x.tables[0]?).getD [])

/-- What a command keeps: 2, its stage (1 reading, 2 sent), the gradient scale. -/
def loanAux (stage scale : Nat) : List Nat := [2, stage, scale]

/-- A list of strips in front of bytes, as a command keeps them, and the two apart. -/
def packStrips (strips : List Nat) (bytes : List Byte) : List Nat := strips.length :: strips ++ bytes.map (·.toNat)
def stripsIn (p : List Nat) : List Nat := (p.drop 1).take (p.headD 0)
def bytesIn (p : List Nat) : List Byte := (p.drop (1 + p.headD 0)).map (BitVec.ofNat 8)

/-- The gradient of a group read strip by strip (R234): the strips that met lost data, and the bytes of the wire, zeros
where the data is lost. -/
def uGradient (o : Opt) (g : PGroup) : U PUnit := do
  let rs ← (List.range (ceilDiv g.elems 4096)).mapM (fun j => do
    let n := min 4096 (g.elems - 4096 * j)
    let ((xs, _), bad) ← uLossy ((slotRef o.gradFmt 0 0 g.elems g.grad).readNums false 0 (4096 * j) n)
    let (bs, fl) := wireGrad o.wire (if bad then List.replicate n Num.zero else xs)
    uFlags fl
    return (j, bad, bs))
  uPart (packStrips ((rs.filter (·.2.1)).map (·.1)) (rs.flatMap (·.2.2)))

/-- A request for each group. The strips whose gradient is lost are named behind the group's entry (log entry 129). -/
def loanSend (k : Nat) (x : Cmd) (s : State) : State :=
  let o := Opt.parse x.desc
  let gs := loanGroups x
  let s := gs.zipIdx.foldl (fun s g =>
    let part := lookD x.parts (gs.length + g.2) []
    let fields := [o.wire, x.aux.getD 2 0, fieldAt o.b 24 0 64] ++ g.1.words.map (·.toNat) ++ stripsIn part
    s.sendGct g.1.lender (.loan 7 ([o.op, o.target, o.first + g.2] ++ fields) (bytesIn part))) s
  s.updCmd k x.count (fun y => { y with aux := loanAux 2 (y.aux.getD 2 0) })

/-- A lender's reply as the command keeps it: status, seven values (RATIO, RMS_W, RMS_D, TAIL_SAT, NONFINITE, the cause of
UPDATE_RATIO plus one, flags), the strips that met lost data, the bytes. -/
def replyPart (m : LoanReplyMsg) : List Nat :=
  m.status.toNat :: (List.range 7).map (fun j => ((m.fields[j]?).map (·.toNat)).getD 0) ++
  packStrips ((m.fields.drop 7).map (·.toNat)) m.bytes
def replyStatus (p : List Nat) : Nat := p.headD 0
def replySkipped (p : List Nat) : List Nat := stripsIn (p.drop 8)
def replyBytes (p : List Nat) : List Byte := bytesIn (p.drop 8)

/-- A reply that carries what the lender made: for STEP, also one that says that strips are lost. -/
def replyWrites (o : Opt) (p : List Nat) : Bool :=
  replyStatus p == St.ok || (o.op == 0 && replyStatus p == St.dataLoss && replyBytes p != [])

/-- What the replies leave in memory: the strips of the new head with its telemetry entry, or the tail and the moment
buffer. -/
def loanWrite (o : Opt) (i : Nat) (g : PGroup) (p : List Nat) : U PUnit := do
  let t := o.target
  let b := replyBytes p
  if o.op = 0 then do
    (List.range (ceilDiv g.elems 4096)).forM (fun j =>
      if (replySkipped p).contains j then pure ⟨⟩ else uOut (g.headAt t + 8192 * j) ((b.drop (8192 * j)).take 8192))
    if o.telem ≠ 0 then
      uOut (o.telem + 32 * i) (natLE 4 (p.getD 1 0) ++ natLE 4 (p.getD 2 0) ++ natLE 4 (p.getD 3 0) ++ natLE 4 (t % 2 ^ 32) ++
        natLE 4 (min (p.getD 4 0) (2 ^ 32 - 1)) ++ natLE 4 (min (p.getD 5 0) (2 ^ 32 - 1)) ++ natLE 8 0)
  else if o.op = 2 then do
    uOut (g.tailAt t) (b.take (2 * g.elems))
    uOut (g.momAt t) (b.drop (2 * g.elems))

/-- All replies are in: the notices of the groups and the first failing status (R238, R248, R249). -/
def loanFin (k : Nat) (x : Cmd) (s : State) : State × Nat :=
  let o := Opt.parse x.desc
  let c := k / 64
  let ps := (loanGroups x).zipIdx.map (fun g => (o.first + g.2, lookD x.parts g.2 [], g.1))
  let good := if o.op = 0 then ps.filter (fun p => replyWrites o p.2.1) else []
  let s := good.foldl (fun s p => s.groupNotices c Unit.hub Path.barp p.1 o.target (if p.2.1.getD 6 0 = 0 then none else some (p.2.1.getD 6 0 - 1))
    (p.2.1.getD 1 0) (p.2.1.getD 4 0) (p.2.1.getD 5 0)) s
  let s := s.tailNotice c Unit.hub Path.barp o.target (good.map (fun p => (p.1, p.2.1.getD 4 0)))
  (s, ((ps.map (fun p => replyStatus p.2.1)).find? (· ≠ St.ok)).getD St.ok)

def loanPlan (k : Nat) (x : Cmd) : Plan :=
  let o := Opt.parse x.desc
  let gs := loanGroups x
  let n := gs.length
  { units := if o.op = 0 then (List.range n).map (fun i => (n + i, Unit.hub)) else []
    run := fun u =>
      if u < 2 * n then do
        match gs[u - n]? with
        | some g => uGradient o g
        | none => pure ⟨⟩
      else do
        match ← uLive k x.count, gs[u - 2 * n]? with
        | some y, some g => loanWrite o (u - 2 * n) g (lookD y.parts (u - 2 * n) [])
        | _, _ => pure ⟨⟩
    late := fun y => if y.aux.getD 1 0 ≠ 2 ∨ o.op = 1 then [] else
      (List.range n).filterMap (fun i => match look y.parts i with
        | some p => if replyWrites o p then some (2 * n + i, Unit.hub) else none
        | none => none)
    fin := fun y s =>
      if y.aux.getD 1 0 ≠ 2 then
        let s := loanSend k y s
        match s.cmdAt k y.count with
        | some z => if z.unanswered = [] then loanFin k z s else (s, St.pending)
        | none => (s, St.pending)
      else if y.unanswered = [] then loanFin k y s
      else (s, St.pending) }

/-- LOAN_STEP on open connections (R248, R458). -/
def State.startLoanStep (s : State) (k : Nat) (x : Cmd) : State :=
  if (s.cmdConns (k / 64) x).any (fun c => s.connVer c 3 == 0) then s.rejectCmd k x.count St.versionMismatch
  else
    let y := { x with aux := loanAux 1 (s.loanScale k (Opt.parse x.desc)), phase := .stalled, unit := Unit.hub }
    (s.updCmd k x.count (fun _ => y)).runPlan k y (loanPlan k y)

def loanEngine : Engine where
  prep := optPrep true
  foot := fun x =>
    let o := Opt.parse x.desc
    let gs := loanGroups x
    gs.flatMap (fun g => footRange g.grad (payBytes o.gradFmt g.elems) false :: g.foot true) ++
    (if o.telem = 0 then [] else [footRange o.telem (32 * gs.length) true])
  early := fun _ => pure false
  gone := fun s k x => (Opt.parse x.desc).fromSum && ((s.effTiles k).filter s.tilePresent).isEmpty
  plan := loanPlan
  start := fun s k x => s.onConns k x State.startLoanStep

/-- The LOAN_STEP that waits for a group's reply, and the group's place in its range. -/
def State.loanCmd (s : State) (conn : Nat) (m : LoanReplyMsg) : Option (Nat × Cmd × Nat) :=
  let c := s.connCtx conn
  (s.rings.flatMap (fun e => if e.1 / 64 = c then e.2.cmds.filterMap (fun x =>
    let o := Opt.parse x.desc
    let i := m.group.toNat - o.first
    if (x.phase == .waiting || x.phase == .stalled) && x.opcode == 0x0072 && x.aux.getD 1 0 == 2 && o.op == m.op.toNat &&
        o.target == m.target.toNat && decide (o.first ≤ m.group.toNat ∧ i < o.count) && (look x.parts i).isNone &&
        ((loanGroups x)[i]?).any (fun g => g.lender == conn)
    then some (e.1, x, i) else none) else [])).head?

/-- LOAN_REPLY (R248). -/
def execLoanReply (hdr : GctHdr) (m : LoanReplyMsg) (s : State) : Host.Outcome State Fault Refusal :=
  .next (if !s.netUp then s else match s.receive hdr true with
    | none => s
    | some s => match s.loanCmd hdr.conn.val m with
      | none => s
      | some (k, x, i) =>
        let s := s.updCmd k x.count (fun y => { y with
          parts := put y.parts i (replyPart m), counts := y.counts + 1,
          flags := if m.op = 0 then y.flags ||| (replyPart m).getD 7 0 else y.flags })
        s.settle k x.count (loanPlan k x))

/-- LOAN_STEP_TIMEOUT (R250). -/
def execLoanStepTimeout (id : CmdId) (s : State) : Host.Outcome State Fault Refusal :=
  .next (match s.cmd id with
    | some x => if x.opcode = 0x0072 ∧ (x.phase = .waiting ∨ x.phase = .stalled) ∧ x.aux ≠ [] ∧ x.unanswered ≠ [] ∧
          s.timedOut x then s.loanStepLost (CmdKey id) x else s
    | none => s)

/-! ### The lender (R247, R249) -/

/-- The group's state at the lender as a group whose slots alternate: two heads, two tails, two moment buffers, each
padded to 64 bytes, from a physical address on. -/
def PGroup.atLender (g : PGroup) (pa : Nat) : PGroup :=
  let h := roundUp (2 * g.elems) 64
  let m := roundUp (momBytes g.elems) 64
  { g with versions := 1, head := pa, headStride := h, tail := pa + 2 * h, tailStride := h, mom := pa + 4 * h, momStride := m,
           castEn := false }

/-- The bytes of the group's state at the lender; the version record of the group is the last of them (R247). -/
def PGroup.lenderBytes (g : PGroup) : Nat := 4 * roundUp (2 * g.elems) 64 + 2 * roundUp (momBytes g.elems) 64 + 64
def PGroup.recordAt (g : PGroup) (pa : Nat) : Nat := pa + g.lenderBytes - 64

/-- The version record of a group as 64 bytes: the committed version L, then a byte that says that the record is held and
whether version L + 1 is pending (log entry 127). A zeroed grant holds no record. -/
def loanRec (r : Nat × Bool) : List Byte := natLE 8 r.1 ++ natLE 1 (1 + 2 * b2n r.2) ++ List.replicate 55 0
def State.getRec (s : State) (at_ : Nat) : Option (Nat × Bool) :=
  let b := s.peekN at_ 9
  if (fieldAt b 8 0 1) = 0 then none else some (fieldAt b 0 0 64, fieldAt b 8 1 1 == 1)
def State.setRec (s : State) (at_ : Nat) (r : Nat × Bool) : State := (s.writePhys at_ (loanRec r)).2

/-- The values of a moment from its payload and its scales. -/
def momNums (coarse : Int) (n : Nat) (pay scale : List Byte) : List Num :=
  (List.range (ceilDiv n 32)).flatMap (fun q =>
    (decodeBlock 3 coarse (min 32 (n - 32 * q)) (slice pay (32 * q) 32) (fieldAt scale q 0 8) []).map El.num)

/-- The gradient from its wire format. -/
def gradNums (wire n : Nat) (b : List Byte) : List Num :=
  if wire = 1 then (List.range n).map (fun i => x36Of (bitsOf (leNat ((b.drop (i / 16 * 72)).take 72)) (36 * (i % 16)) 36))
  else (List.range n).map (fun i => Fmt.bf16.decode (fieldAt b (2 * i) 0 16))

/-- Writes of a unit made at physical addresses. -/
def State.writeAll (s : State) (ws : List (Nat × List Byte)) : State := ws.foldl (fun s w => (s.writePhys w.1 w.2).2) s

/-- What the lender has made of a version: the device, the head, the values of each strip, the flags, the strips not
written, the lost granules that it met. -/
structure Lent where
  s : State
  head : List Byte := []
  parts : Tbl (List Nat) := []
  flags : Fl := {}
  skipped : List Nat := []
  lost : List Nat := []

/-- Reads of planes at physical addresses, with the lost granules among them. -/
def State.readAll (s : State) (rs : List (Nat × Nat)) : List (List Byte) × List Nat × State :=
  rs.foldl (fun a r => let (b, l, s) := a.2.2.readPhys r.1 r.2; (a.1 ++ [b], joinLost a.2.1 l, s)) ([], [], s)

/-- Strip `j` of version `t` of a group computed at the lender (R230 to R234). A strip that meets lost data, at either end,
writes nothing (R236). Its draws come from the tiles of the loan-service context, which are not stated: free values. -/
def Lent.strip (g : PGroup) (t : Nat) (k : StepK) (grads : List Num) (gone : List Nat) (a : Lent) (j : Nat) : Lent :=
  let e := 4096 * j
  let n := min 4096 (g.elems - e)
  let q := ceilDiv n 32
  let m := g.mRef (t - 1)
  let r := g.rRef (t - 1)
  let (bs, lost, s) := a.s.readAll [(g.headAt (t - 1) + 2 * e, 2 * n), (g.tailAt (t - 1) + 2 * e, 2 * n), (m.pay + e, 32 * q),
    (m.sc + e / 32, q), (r.pay + e, 32 * q), (r.sc + e / 32, q)]
  let b (i : Nat) : List Byte := (bs[i]?).getD []
  if lost ≠ [] ∨ gone.contains j then
    { a with s := s, head := a.head ++ List.replicate (2 * n) 0, skipped := a.skipped ++ [j], lost := joinLost a.lost lost }
  else
    let half (b : List Byte) : List Nat := (List.range n).map (fun i => fieldAt b (2 * i) 0 16)
    let (es, fl) := elems g k (((grads.drop e).take n).zip ((half (b 0)).zip ((half (b 1)).zip
      ((momNums g.mCoarse n (b 2) (b 3)).zip (momNums g.rCoarse n (b 4) (b 5))))))
    let draw (i : Nat) : Nat := (Config.freeValue (s.nfree + i)).toNat % 2 ^ 16
    let om := (g.mRef t).encodeRow draw 0 e (es.map (·.m))
    let orr := (g.rRef t).encodeRow (fun i => draw (n + i)) 0 e (es.map (·.r))
    let head := es.flatMap (fun z => natLE 2 z.h)
    let s := { s with nfree := if (Cvt.ofByte g.momCvt).stoch then s.nfree + 2 * n else s.nfree }
    { a with
      s := s.writeAll ([(g.headAt t + 2 * e, head), (g.tailAt t + 2 * e, es.flatMap (fun z => natLE 2 z.t))] ++ om.writes ++ orr.writes)
      head := a.head ++ head
      parts := put a.parts j (stripStats es)
      flags := ((a.flags.or fl).or (momentFlags om)).or (momentFlags orr) }

/-- Version `t` of a group computed at the lender. -/
def State.lendStep (s : State) (g : PGroup) (t wire : Nat) (k : StepK) (grad : List Byte) (gone : List Nat) : Lent :=
  (List.range (ceilDiv g.elems 4096)).foldl (Lent.strip g t k (gradNums wire g.elems grad) gone) { s := s }

/-- A reply to the borrower. -/
def State.loanReply (s : State) (conn : Nat) (m : LoanStepMsg) (status : Nat) (fields : List Nat) (bytes : List Byte) : State :=
  s.sendGct conn (.loan 8 ([m.op.toNat, m.target.toNat, m.group.toNat, status] ++ fields) bytes)

/-- Data loss that the lender meets in its own memory (R296). -/
def State.lendLoss (s : State) (lost : List Nat) : State := match lost with
  | x :: _ => s.tellLoss (s.rd F.netLendCfg_CTX) Unit.hub x lost.length
  | [] => s

/-- A request that the lender's versions do not fit: nothing changes (R249). -/
def State.loanMismatch (s : State) (conn : Nat) (m : LoanStepMsg) (l : Nat) : State :=
  (s.raise (netNtc 0x0905 Sev.error (some (s.rd F.netLendCfg_CTX)) m.group.toNat (l % 2 ^ 32) (m.target.toNat % 2 ^ 32))).loanReply
    conn m St.versionMismatch [] []

/-- STEP with a version that fits (R249): the version is computed, and pending. -/
def State.lendVersion (s : State) (conn : Nat) (m : LoanStepMsg) (g : PGroup) (at_ : Nat) : State :=
  let f (j : Nat) : Nat := ((m.fields[j]?).map (·.toNat)).getD 0
  let t := m.target.toNat
  let k : StepK := { gs := x36Of (f 1), bc1 := Fmt.fp32.decode (f 2 % 2 ^ 32), bc2 := Fmt.fp32.decode (f 2 / 2 ^ 32) }
  let a := (s.setRec at_ (t - 1, true)).lendStep g t (f 0) k m.bytes ((m.fields.drop 19).map (·.toNat))
  let (sw, sd, sat, bad) := groupStats [g] { count := 0, record := [], parts := a.parts } 0
  let (ratio, w, d) := groupRatio g sw sd
  let cause := match ratioCause g ratio with | some q => q + 1 | none => 0
  (a.s.lendLoss a.lost).loanReply conn m (if a.lost = [] then St.ok else St.dataLoss)
    ([fp32Code ratio, fp32Code w, fp32Code d, sat, bad, cause, a.flags.bits] ++ a.skipped) a.head

/-- FETCH of the committed version: its tail and its moments (R248). -/
def State.lendFetch (s : State) (conn : Nat) (m : LoanStepMsg) (g : PGroup) : State :=
  let t := m.target.toNat
  let (bs, lost, s) := s.readAll [(g.tailAt t, 2 * g.elems), (g.momAt t, momBytes g.elems)]
  if lost = [] then s.loanReply conn m St.ok [] bs.flatten else (s.lendLoss lost).loanReply conn m St.dataLoss [] []

/-- The group's entry as a request carries it. -/
def loanEntry (m : LoanStepMsg) : PGroup := PGroup.parse (((m.fields.drop 3).take 16).flatMap (fun w => natLE 8 w.toNat))

/-- The physical address at which the lender holds the state of the group that a request names, in a grant of its
connection (R247, R469). -/
def State.lentAt (s : State) (conn : Nat) (m : LoanStepMsg) : Option Nat :=
  (s.grants.find? (fun g => g.conn == conn && decide ((loanEntry m).remote + (loanEntry m).lenderBytes ≤ g.size * 2 ^ 30))).map
    (fun gr => s.lendAddr (gr.base * 2 ^ 30 + (loanEntry m).remote))

/-- The lender acts on a request (R249), by its version record of the group; a lost record serves nothing. -/
def State.lendLoanStep (s : State) (conn : Nat) (m : LoanStepMsg) : State :=
  let t := m.target.toNat
  match s.lentAt conn m with
  | none => s.loanReply conn m St.faultTranslation [] []
  | some pa =>
    let g := (loanEntry m).atLender pa
    let at_ := (loanEntry m).recordAt pa
    let (gone, s) := s.checkGran at_
    if gone then (s.lendLoss [at_]).loanReply conn m St.dataLoss [] []
    else match m.op.toNat, s.getRec at_ with
    | 0, some (l, p) => if t = l + 1 ∨ (t = l + 2 ∧ p) then s.lendVersion conn m g at_ else s.loanMismatch conn m l
    | 1, none => (s.setRec at_ (t, false)).loanReply conn m St.ok [] []
    | 1, some (l, p) =>
      if t = l then s.loanReply conn m St.ok [] []
      else if t = l + 1 ∧ p then (s.setRec at_ (l + 1, false)).loanReply conn m St.ok [] []
      else s.loanMismatch conn m l
    | 2, some (l, _) => if t = l then s.lendFetch conn m g else s.loanMismatch conn m l
    | _, _ => s.loanMismatch conn m 0

/-- LENDER_LOAN_STEP (R249). -/
def execLenderLoanStep (hdr : GctHdr) (m : LoanStepMsg) (s : State) : Host.Outcome State Fault Refusal :=
  .next (if !s.netServes then s else match s.receive hdr true with
    | none => s
    | some s => s.lendLoanStep hdr.conn.val m)

end Sys2Proof.Machine
end

