-- ==== Sys2Proof/Machine/StepCommit.lean ====
section
/-!
DEFINITION. Step commit (R265 to R280): the group record, the messages of a round, and STEP_COMMIT.
-/
namespace Sys2Proof.Machine

/-! ### The group record (R265, R266) -/

abbrev Dec.none : Nat := 0
abbrev Dec.commit : Nat := 1
abbrev Dec.abort : Nat := 2

/-- The record of a context, through its translation; none where it cannot be read. -/
def State.stepRec (s : State) (c : Nat) : Option (List Byte) × State :=
  let va := s.rd F.ctxStepRec_RECORD_ADDR c
  if va = 0 ∨ va % 64 ≠ 0 then (none, s)
  else match State.winAccess c va 1280 none (winFuel 1280) s [] [] with
    | (.done bs, s) => (some bs, s)
    | (_, s) => (none, s)

/-- A resolvable fault keeps the network engine from the record. -/
def State.recHeld (s : State) (c : Nat) : Bool × State :=
  match State.winAccess c (s.rd F.ctxStepRec_RECORD_ADDR c) 1280 none (winFuel 1280) s [] [] with
  | (.held, s) => (true, s)
  | (_, s) => (false, s)

/-- Bytes of the record written. -/
def State.recPut (s : State) (c off : Nat) (bs : List Byte) : State :=
  (State.winAccess c (s.rd F.ctxStepRec_RECORD_ADDR c + off) bs.length (some bs) (winFuel 1280) s [] []).2

def recMembers (r : List Byte) : Nat := fieldAt r 0 0 32
def recQuorum (r : List Byte) : Nat := fieldAt r 4 0 32
/-- The round: target and attempt. -/
def recRound (r : List Byte) : Nat × Nat := (fieldAt r 8 0 64, fieldAt r 16 0 16)
def recDecision (r : List Byte) : Nat := fieldAt r 18 0 2
def recApplied (r : List Byte) : Bool := fieldAt r 18 2 1 == 1
def recReady (r : List Byte) : Nat := fieldAt r 64 0 1024
def recWeight (r : List Byte) (j : Nat) : Nat := fieldAt r 192 (8 * j) 8

/-- The reserved fields of the record are zero (R11, R265). -/
def recReserved (r : List Byte) : Bool := fieldAt r 18 3 5 == 0 && zeroAt r 19 24 && zeroAt r 32 64 && zeroAt r 1216 1280

/-- The conditions of R266, for a group of `n` members. -/
def recOk (r : List Byte) (n : Nat) : Bool :=
  recReserved r && recMembers r == n && 1 ≤ n && n ≤ 1024 &&
  decide (2 * recQuorum r > ((List.range n).map (recWeight r)).sum) && zeroAt r (192 + n) 1216

/-- One round is later than another (R268). -/
def laterRound (a b : Nat × Nat) : Bool := decide (b.1 < a.1 ∨ (a.1 = b.1 ∧ b.2 < a.2))

/-- The round that CTX_STEP_STATE names (R279). -/
def State.showRound (s : State) (c : Nat) (t : Nat × Nat) : State :=
  (s.wr F.ctxStepState_ATTEMPT c t.2).wr F.ctxStepState_TARGET c (t.1 % 2 ^ 32)

/-- A round becomes current: DECISION, APPLIED and READY are cleared (R269). -/
def State.newRound (s : State) (c : Nat) (t : Nat × Nat) : State :=
  ((s.recPut c 8 (natLE 8 t.1 ++ natLE 2 t.2 ++ natLE 1 0)).recPut c 64 (natLE 128 0)).showRound c t

/-- DECISION and APPLIED written. -/
def State.putDecision (s : State) (c d : Nat) (applied : Bool) : State := s.recPut c 18 (natLE 1 (d + 4 * b2n applied))

/-- The step group of a context. -/
def State.stepGroup (s : State) (c : Nat) : Option Group :=
  match s.group c (s.rd F.ctxStepCfg_COLL_GROUP c) with
  | some g => if g.phase = 0 then none else some g
  | none => none

/-- CTX_STEP_STATE.STATE, with the round in doubt. -/
def State.setStep (s : State) (c st : Nat) (doubt : Option (Nat × Nat) := none) : State :=
  (s.wr F.ctxStepState_STATE c st).setCtx c { s.ctx c with doubt := doubt }

/-! ### Applying a decision (R271) -/

/-- A decision takes effect in CTX_VERSION.CURRENT and, where the record still holds the round, in its APPLIED and
DECIDED_TIME; DECISION stays as it was written (R272). The member is IDLE. -/
def State.applyDecision (s : State) (c : Nat) (t : Nat × Nat) (d : Nat) : State :=
  let s := if d = Dec.commit then s.wr F.ctxVersion_CURRENT c t.1 else s
  let s := match s.stepRec c with
    | (some r, s) =>
      if recRound r = t then (s.putDecision c (recDecision r) true).recPut c 24 (natLE 8 s.time) else s
    | (none, s) => s
  s.setStep c 0

/-- The lowest member whose READY bit is clear. -/
def lowestClear (ready n : Nat) : Nat := ((List.range n).find? (fun j => !ready.testBit j)).getD n

def stepNtc (code sev c : Nat) (t : Nat × Nat) (a3 : Nat) : Ntc := netNtc code sev (some c) (t.1 % 2 ^ 32) t.2 a3

/-- A decision that a STEP_COMMIT applies is the boundary that a waiting activation of its context looks for (R560); not
while the device is BRACED (R565). -/
def State.markBoundary (s : State) (c : Nat) : State :=
  if s.rd F.secActStatus_STATE = 3 ∧ s.rd F.secActStatus_CTX = c ∧ s.dev ≠ Dev.braced then
    { s with sec := { s.sec with boundary := true } }
  else s

/-- The weight of the members whose READY bits a record holds. -/
def readyWeight (r : List Byte) : Nat :=
  (((List.range (recMembers r)).filter (recReady r).testBit).map (recWeight r)).sum

/-- IN_DOUBT (R271). -/
def State.stepDoubt (s : State) (k : Nat) (x : Cmd) (t : Nat × Nat) (weight : Nat) : State :=
  let c := k / 64
  let s := (s.setStep c 3 (some t)).raise (stepNtc 0x0A03 Sev.error c t weight)
  s.endOut k x.count St.peerLost

/-- A STEP_COMMIT applies a decision and completes (R271). A decision whose cross-check fails is not applied, and the
member is IN_DOUBT (R525); the weight is that of the members whose READY it holds. -/
def State.stepApply (s : State) (k : Nat) (x : Cmd) (t : Nat × Nat) (d : Nat) (r : List Byte) (forced : Bool) : State :=
  let c := k / 64
  match s.crossCheck Act.step with
  | (false, s) => s.stepDoubt k x t (readyWeight r)
  | (true, s) =>
    let s := (s.applyDecision c t d).markBoundary c
    let s := s.raise (if forced then stepNtc 0x0A05 Sev.warn c t d
      else if d = Dec.commit then stepNtc 0x0A01 Sev.info c t ((s.ivl - x.issuedAt) / 1000 % 2 ^ 32)
      else stepNtc 0x0A02 Sev.warn c t (lowestClear (recReady r) (recMembers r)))
    if d = Dec.commit then s.endCmd k x St.ok else s.endOut k x.count St.abortedCommit

/-- The decision of the round in doubt, inferred from a READY for a later one (R273). -/
def State.stepInfer (s : State) (c : Nat) (t : Nat × Nat) : State :=
  match (s.ctx c).doubt with
  | none => s
  | some old =>
    if s.inDoubt c && laterRound t old then
      let d := if t.1 = old.1 then Dec.abort else Dec.commit
      match s.crossCheck Act.step with
      | (false, s) => s
      | (true, s) => (s.applyDecision c old d).raise (stepNtc 0x0A04 Sev.info c old d)
    else s

/-! ### The command (R267, R268, R270) -/

def stepOp (x : Cmd) : Nat := fieldAt x.desc 1 0 2
def stepRound (x : Cmd) : Nat × Nat := (fieldAt x.desc 8 0 64, fieldAt x.desc 2 0 16)

def stepDescOk (d : List Byte) : Bool :=
  let op := fieldAt d 1 0 2
  fieldAt d 0 0 8 == 1 && (op == 2 || fieldAt d 1 2 1 == 0) && fieldAt d 1 3 5 == 0 && zeroAt d 4 8 &&
  (op == 0 || zeroAt d 16 24) && zeroAt d 24 64

/-- The check of R268. -/
def State.stepRoundOk (s : State) (c : Nat) (d r : List Byte) (self : Nat) : Bool :=
  let op := fieldAt d 1 0 2
  let t := (fieldAt d 8 0 64, fieldAt d 2 0 16)
  let cur := recRound r
  if op = 0 ∨ op = 3 then
    !s.inDoubt c && t.1 == s.rd F.ctxVersion_CURRENT c + 1 &&
    (laterRound t cur || (t == cur && !recApplied r && !(recReady r).testBit self))
  else t == cur && !recApplied r

/-- An address that the context maps outside the stack tier (R265). -/
def State.outsideStacks (s : State) (c va : Nat) : Bool :=
  match s.translate (s.root c) va .read with
  | .ok pa _ => (match s.place pa with | .stack _ _ => false | _ => true)
  | _ => false

def stepPrep (s : State) (k : Nat) (x : Cmd) : U Prep := do
  let c := k / 64
  match ← readDesc x 64 8 with
  | .error e => return .error e
  | .ok d =>
    let va := s.rd F.ctxStepRec_RECORD_ADDR c
    let g := s.stepGroup c
    if !stepDescOk d || va == 0 || va % 64 != 0 || (g.isNone && fieldAt d 1 0 2 != 2) || s.outsideStacks c va ||
        s.outsideStacks c (va + 1279) then return .error St.descInvalid
    else
      let r ← uRead va 1280
      return (do
        need (recOk r ((g.map (·.conns.length)).getD (recMembers r))) St.descInvalid
        need (s.stepRoundOk c d r ((g.map (·.self)).getD 0)) St.versionMismatch
        .ok (d, []))

/-- What a command keeps: 3, its stage (0 voting, 1 query, 2 proposal), when the stage began. -/
def stepAux (stage now : Nat) : List Nat := [3, stage, now]
def Cmd.stepStage (x : Cmd) : Nat := x.aux.getD 1 0

/-- A step-commit message of this member. -/
def stepMsg (g : Group) (t : Nat × Nat) (d ready : Nat) : StepMsg :=
  { group := BitVec.ofNat 16 g.id, target := BitVec.ofNat 64 t.1, attempt := BitVec.ofNat 16 t.2, member := BitVec.ofNat 16 g.self,
    decision := BitVec.ofNat 2 d, ready := BitVec.ofNat 1024 ready }

/-- The kinds of message: READY, query, proposal, reply. -/
abbrev Step.ready : Nat := 0
abbrev Step.query : Nat := 1
abbrev Step.propose : Nat := 2
abbrev Step.reply : Nat := 3

/-- The replies of a stage: member, decision, READY bits, in order of member. -/
def stepReplies (x : Cmd) (stage n : Nat) : List (Nat × Nat × Nat) :=
  (List.range n).filterMap (fun j => (look x.parts (2000 * stage + j)).map (fun p => (j, p.headD 0, p.getD 1 0)))

/-- What a member wants after its query (R270). -/
def stepWant (r : List Byte) (g : Group) (replies : List (Nat × Nat × Nat)) : Nat :=
  let n := g.conns.length
  let union := replies.foldl (fun a p => a ||| p.2.2) (recReady r)
  let weight := (replies.map (fun p => recWeight r p.1)).sum + recWeight r g.self
  let want := match replies.find? (fun p => p.2.1 != 0) with
    | some p => p.2.1
    | none => if lowestClear union n = n then Dec.commit else if weight ≥ recQuorum r then Dec.abort else Dec.none
  if recDecision r ≠ 0 then recDecision r else want

/-- The decision that members of weight QUORUM hold (R270), if any. -/
def stepHeld (r : List Byte) (g : Group) (replies : List (Nat × Nat × Nat)) : Option Nat :=
  let holds (d : Nat) : Nat := ((replies.filter (fun p => p.2.1 == d)).map (fun p => recWeight r p.1)).sum +
    (if recDecision r = d then recWeight r g.self else 0)
  [Dec.commit, Dec.abort].find? (fun d => holds d ≥ recQuorum r)

/-- The weight of the members that replied, this one included. -/
def repliedWeight (r : List Byte) (g : Group) (replies : List (Nat × Nat × Nat)) : Nat :=
  (replies.map (fun p => recWeight r p.1)).sum + recWeight r g.self

/-- A STEP_COMMIT whose round another has decided meanwhile completes with what that one applied. -/
def State.stepDone (s : State) (k : Nat) (x : Cmd) : State :=
  if s.rd F.ctxVersion_CURRENT (k / 64) = (stepRound x).1 then s.endCmd k x St.ok else s.endOut k x.count St.abortedCommit

/-- The stage of a proposal: decided by a quorum, or at its end in doubt. -/
def State.stepJudge (s : State) (k : Nat) (x : Cmd) (g : Group) (isOver : Bool) : State :=
  let c := k / 64
  let t := stepRound x
  let n := g.conns.length
  match s.stepRec c with
  | (none, s) => if isOver then s.stepDoubt k x t 0 else s
  | (some r, s) =>
    let replies := stepReplies x 2 n
    if recRound r ≠ t then s.stepDoubt k x t (repliedWeight r g replies)
    else if recApplied r then s.stepDone k x
    else match stepHeld r g replies with
      | some d => s.stepApply k x t d r false
      | none => if isOver || replies.length + 1 ≥ n then s.stepDoubt k x t (repliedWeight r g replies) else s

/-- A proposal goes to every member, this one included (R270, R275); this member keeps the first for the round. -/
def State.stepPropose (s : State) (k : Nat) (x : Cmd) (g : Group) (want : Nat) : State :=
  let c := k / 64
  let t := stepRound x
  match s.stepRec c with
  | (none, s) => s.stepDoubt k x t 0
  | (some r, s) =>
    let s := if recDecision r = 0 then s.putDecision c want false else s
    let s := (s.setStep c 2).toMembers g (fun _ => .step Step.propose (stepMsg g t want (recReady r)))
    let y := { x with phase := .waiting, aux := stepAux 2 s.ivl }
    (s.updCmd k x.count (fun _ => y)).stepJudge k y g false

/-- The end of the query: the member proposes, or is in doubt. -/
def State.stepDecide (s : State) (k : Nat) (x : Cmd) (g : Group) (isOver : Bool) : State :=
  let c := k / 64
  let t := stepRound x
  let replies := stepReplies x 1 g.conns.length
  if !isOver && replies.length + 1 < g.conns.length then s
  else match s.stepRec c with
    | (none, s) => s.stepDoubt k x t 0
    | (some r, s) =>
      if recRound r ≠ t then s.stepDoubt k x t (repliedWeight r g replies)
      else if recApplied r then s.stepDone k x
      else
        let w := stepWant r g replies
        if w = Dec.none then s.stepDoubt k x t (repliedWeight r g replies) else s.stepPropose k x g w

/-- A query goes to every member (R270). -/
def State.stepQuery (s : State) (k : Nat) (x : Cmd) (g : Group) : State :=
  let t := stepRound x
  let s := (s.setStep (k / 64) 2).toMembers g (fun _ => .step Step.query (stepMsg g t 0 0))
  let y := { x with phase := .waiting, aux := stepAux 1 s.ivl }
  (s.updCmd k x.count (fun _ => y)).stepDecide k y g false

/-- The STEP_COMMIT of a context that waits at a stage. -/
def State.stepCmd (s : State) (c : Nat) (p : Cmd → Bool) : Option (Nat × Cmd) :=
  (s.rings.flatMap (fun e => if e.1 / 64 = c then
    (e.2.cmds.filter (fun x => x.phase == .waiting && x.opcode == 0x0061 && x.aux.headD 0 == 3 && p x)).map (fun x => (e.1, x))
    else [])).head?

/-- The bitmap wait: with every READY bit set the member proposes its own DECISION, or COMMIT where it has none. A command
that is set aside goes on when its context resumes, and one whose timeout has then passed goes straight to the query
(R276). -/
def State.stepGo (s : State) (c : Nat) : State :=
  if s.ctxHeld c then s
  else match s.stepCmd c (fun x => x.stepStage == 0), s.stepGroup c with
    | some (k, x), some g =>
      (match s.stepRec c with
       | (none, s) => s
       | (some r, s) =>
         if recRound r = stepRound x ∧ lowestClear (recReady r) g.conns.length = g.conns.length then
           s.stepPropose k x g (if recDecision r = 0 then Dec.commit else recDecision r)
         else s)
    | _, _ => s

/-- A step commit set aside goes on from its wait (R276). -/
def State.stepResume (s : State) (c : Nat) : State :=
  match s.stepCmd c (fun x => x.stepStage == 0 && s.timedOut x), s.stepGroup c with
  | some (k, x), some g => s.stepQuery k x g
  | _, _ => s.stepGo c

/-- A READY of the current round from member `j`: its first sets the bit and adds 1 to the READY bead (R269). -/
def State.takeReady (s : State) (c j : Nat) (r : List Byte) : State :=
  if (recReady r).testBit j then s
  else
    let s := s.recPut c 64 (natLE 128 (setBits (recReady r) j 1 1))
    let v := s.rd F.ctxStepCfg_READY_BEAD c
    match s.vid c v with
    | (none, e) => s.tellUnmapped c Unit.hub v 0 e
    | (some n, _) =>
      let (e, s) := (s.keepVid c v).beadAdd n 1
      match e with
      | .done => s.armAll
      | e => s.tellRefused e c Unit.hub v n 1

/-- STEP_COMMIT at issue (R270, R273 to R275). -/
def State.startStepCommit (s : State) (k : Nat) (x : Cmd) : State :=
  let c := k / 64
  let t := stepRound x
  let s := s.updCmd k x.count (fun y => { y with unit := Unit.hub })
  let x := { x with unit := Unit.hub }
  match stepOp x, s.stepGroup c, s.stepRec c with
    | 2, _, (some r, s) =>
      let d := if recDecision r = 0 then (if fieldAt x.desc 1 2 1 = 1 then Dec.commit else Dec.abort) else recDecision r
      let s := if recDecision r = 0 then s.putDecision c d false else s
      (s.showRound c t).stepApply k x t d r true
    | 1, some g, (some _, s) => ((s.showRound c t).stepQuery k x g).armRing k
    | op, some g, (some r, s) =>
         let s := if laterRound t (recRound r) then s.newRound c t else s.showRound c t
         if op = 3 then (s.stepPropose k x g Dec.abort).armRing k
         else
           let s := (s.setStep c 1).toMembers g (fun _ => .step Step.ready (stepMsg g t 0 0))
           let s := s.updCmd k x.count (fun y => { y with phase := .waiting, aux := stepAux 0 s.ivl })
           let s := match s.stepRec c with
             | (some r, s) => s.takeReady c g.self r
             | (none, s) => s
           (s.stepGo c).armRing k
    | _, _, (_, s) => s.rejectCmd k x.count St.descInvalid

def stepEngine : Engine where
  prep := stepPrep
  early := fun _ => pure false
  start := State.startStepCommit

/-! ### The messages (R269) -/

/-- The network engine reaches the group record: not once a brace has put the stacks into self-refresh (R533). -/
def State.stepServes (s : State) : Bool := s.netUp && !(s.dev == Dev.braced && decide (s.rd F.mgtBraceStatus_PHASE ≥ 5))

/-- A message of a round on a member's connection: the context, the group, the member. -/
def State.stepFrom (s : State) (conn : Nat) (m : StepMsg) : Option (Nat × Group × Nat) :=
  let c := s.connCtx conn
  match s.stepGroup c with
  | some g => if g.id = m.group.toNat then (g.conns.zipIdx.find? (fun e => e.1 == conn)).map (fun e => (c, g, e.2)) else none
  | none => none

def msgRound (m : StepMsg) : Nat × Nat := (m.target.toNat, m.attempt.toNat)

/-- A message of a round taken from a member. Where a resolvable fault keeps the engine from the record the message is not
acknowledged, and its sender repeats it (log entry 130). -/
def State.takeStep (s : State) (hdr : GctHdr) (m : StepMsg) (act : State → Nat → Group → Nat → State) : State :=
  if !s.stepServes then s
  else match s.receive hdr true, s.stepFrom hdr.conn.val m with
    | none, _ => s
    | some s', none => s'
    | some s', some (c, g, j) =>
      match s.recHeld c with
      | (true, s) => s
      | (false, _) => act s' c g j

/-- A READY (R269, R273). -/
def State.onReady (s : State) (c j : Nat) (t : Nat × Nat) : State :=
  match (s.stepInfer c t).stepRec c with
  | (none, s) => s
  | (some r, s) =>
    if laterRound t (recRound r) then
      let s := s.newRound c t
      match s.stepRec c with
      | (some r, s) => (s.takeReady c j r).stepGo c
      | (none, s) => s
    else if t = recRound r then (s.takeReady c j r).stepGo c
    else
      let x := s.ctx c
      let s' := s.setCtx c { x with late := x.late + 1, lateTold := some (recRound r) }
      if x.lateTold = some (recRound r) then s' else s'.raise (stepNtc 0x0A06 Sev.info c t j)

/-- GCT_READY (R269). -/
def execGctReady (hdr : GctHdr) (m : StepMsg) (s : State) : Host.Outcome State Fault Refusal :=
  .next (s.takeStep hdr m (fun s c _ j => s.onReady c j (msgRound m)))

/-- The reply of this member for a round (R269): its DECISION and its READY bits, of that round, or where a later one has
replaced it of the round that the record holds. Of a later round than the record's it has none yet. -/
def State.stepReply (s : State) (c conn : Nat) (g : Group) (t : Nat × Nat) : State :=
  match s.stepRec c with
  | (none, s) => s
  | (some r, s) =>
    if laterRound t (recRound r) then s.sendGct conn (.step Step.reply (stepMsg g t 0 0))
    else s.sendGct conn (.step Step.reply (stepMsg g (recRound r) (recDecision r) (recReady r)))

/-- GCT_QUERY (R269). -/
def execGctQuery (hdr : GctHdr) (m : StepMsg) (s : State) : Host.Outcome State Fault Refusal :=
  .next (s.takeStep hdr m (fun s c g _ => s.stepReply c hdr.conn.val g (msgRound m)))

/-- A proposal: the first for the round is kept in DECISION (R269). One for a later round makes that round current. -/
def State.onPropose (s : State) (c : Nat) (t : Nat × Nat) (d : Nat) : State :=
  match s.stepRec c with
  | (none, s) => s
  | (some r, s) =>
    if laterRound t (recRound r) then (s.newRound c t).putDecision c d false
    else if t = recRound r ∧ recDecision r = 0 then s.putDecision c d false
    else s

/-- GCT_PROPOSE (R269). -/
def execGctPropose (hdr : GctHdr) (m : StepMsg) (s : State) : Host.Outcome State Fault Refusal :=
  .next (s.takeStep hdr m (fun s c g _ =>
    if m.decision.toNat = 1 ∨ m.decision.toNat = 2 then
      (s.onPropose c (msgRound m) m.decision.toNat).stepReply c hdr.conn.val g (msgRound m)
    else s))

/-- A reply: kept, and the stage goes on (R270). A reply without a decision answers a query, never a proposal. -/
def State.onStepReply (s : State) (c : Nat) (g : Group) (j : Nat) (m : StepMsg) : State :=
  match s.stepCmd c (fun x => (x.stepStage == 1 || (x.stepStage == 2 && m.decision != 0)) && stepRound x == msgRound m) with
  | none => s
  | some (k, x) =>
    let y := { x with parts := put x.parts (2000 * x.stepStage + j) [m.decision.toNat, m.ready.toNat] }
    let s := s.updCmd k x.count (fun _ => y)
    if s.ctxHeld c then s
    else if y.stepStage = 1 then s.stepDecide k y g false else s.stepJudge k y g false

/-- GCT_COMMIT_REPLY (R270). -/
def execGctCommitReply (hdr : GctHdr) (m : StepMsg) (s : State) : Host.Outcome State Fault Refusal :=
  .next (s.takeStep hdr m (fun s c g j => s.onStepReply c g j m))

/-- COMMIT_READY_TIMEOUT (R270): the query begins. A command that is set aside begins it when it resumes (R276). -/
def execCommitReadyTimeout (ctx : Fin 16) (s : State) : Host.Outcome State Fault Refusal :=
  let c := ctx.val
  .next (match s.stepCmd c (fun x => x.stepStage == 0 && s.timedOut x), s.stepGroup c with
    | some (k, x), some g => if s.ctxHeld c then s else s.stepQuery k x g
    | _, _ => s)

/-- The window of a query or of a proposal (R270). -/
abbrev stepWindow : Nat := 1000000

/-- COMMIT_QUERY_TIMEOUT (R270). -/
def execCommitQueryTimeout (ctx : Fin 16) (s : State) : Host.Outcome State Fault Refusal :=
  let c := ctx.val
  .next (match s.stepCmd c (fun x => x.stepStage != 0 && decide (s.ivl - x.aux.getD 2 0 ≥ stepWindow)), s.stepGroup c with
    | some (k, x), some g =>
      if s.ctxHeld c then s
      else if (s.recHeld c).1 then (s.recHeld c).2
      else if x.stepStage = 1 then s.stepDecide k x g true else s.stepJudge k x g true
    | _, _ => s)

end Sys2Proof.Machine
end

