-- ==== Sys2Proof/Machine/Media.lean ====
section
/-!
DEFINITION. The media front ends (R413 to R446, R471): MEDIA_BATCH from memory and from a live queue, its slots, spares
and status table, the reception of live frames, and the resets of a front end.
-/
namespace Sys2Proof.Machine

/-! ### Checks of the descriptor (R417 to R420) -/

def mediaHeadCheck (m : Media) : Except Nat Unit :=
  let d := m.d
  let text := m.kind == MKind.text
  let audio := m.kind == MKind.audio
  let within (x lo hi : Nat) : Bool := decide (lo ≤ x ∧ x ≤ hi)
  need (fieldAt d 0 0 8 == 2 && (!m.live || m.isPic) && !(m.live && m.refill) && (text || !m.utf8) && fieldAt d 1 6 2 == 0 &&
    (m.isPic || m.levels == 0) &&
    (if m.isPic then m.chans == 1 || m.chans == 3 else if audio then m.chans == 1 || m.chans == 2 else m.chans == 1) &&
    within m.slots 1 4096 && (if m.refill then m.spares ≤ 4096 else m.spares == 0) && m.x ≥ 1 &&
    (if text then m.y == 1 else m.y ≥ 1) && (if m.kind = MKind.video then m.t ≥ 1 else m.t == 1) &&
    (if audio then within m.rate 8000 192000 && within m.hop 1 m.y else m.rate == 0 && m.hop == 0) &&
    m.samples % 32 == 0 && (m.refill || m.spareTab == 0) && m.status % 32 == 0 &&
    m.levelTab % 64 == 0 && (text || m.tokens == 0) &&
    (if m.live then within m.queue 17 255 else m.queue == 0 && m.maxAge == 0 && m.liveWait == 0) &&
    zeroAt d 73 76 && zeroAt d 112 128) St.descInvalid

/-- A level entry (R418): its output reference, the address and the pitch of its mask. -/
def levelRef (levels : List Byte) (l : Nat) : TRef := TRef.parse levels (128 * l)
def levelMaskAt (levels : List Byte) (l : Nat) : Nat × Nat :=
  (fieldAt levels (128 * l + 64) 0 64, fieldAt levels (128 * l + 72) 0 32)

def Media.levelList (m : Media) : List Nat := List.range (m.levels + 1)

/-- Every range that a batch names: outputs, masks, status entries, tables. -/
def Media.ranges (m : Media) (levels : List Byte) (tokenBytes : Nat) : List (Nat × Nat) :=
  (m.levelList.flatMap (fun l => (levelRef levels l).spans ++
    [((levelMaskAt levels l).1, (m.slots - 1) * (levelMaskAt levels l).2 + ceilDiv (m.slotRows l) 8)]) ++
   [(m.status, 32 * m.slots), (m.samples, 32 * m.slots), (m.spareTab, 32 * m.spares),
    (m.levelTab, 128 * (m.levels + 1)), (m.tokens, tokenBytes)]).filter (fun r => r.2 != 0)

/-- The formats that an output takes (R419). -/
def mediaFmt (m : Media) (f : Nat) : Bool :=
  if m.kind = MKind.text then f == FC.int32 else f == FC.bf16 || f == FC.fp16 || f == FC.fp32 || f == 3 || f == 4

/-- The checks of the level entries (R418, R419) in the order of R618. -/
def mediaLevelCheck (m : Media) (levels : List Byte) (tokenBytes : Nat) : Except Nat Unit := do
  m.levelList.forM (fun l => do
    (levelRef levels l).check true
    let k := levelMaskAt levels l
    need (k.1 % 8 == 0 && k.2 % 8 == 0 && zeroAt levels (128 * l + 76) (128 * l + 128)) St.descInvalid)
  need (m.levelList.all (fun l => mediaFmt m (levelRef levels l).fmt)) St.fmtUnsupported
  let rs := (m.ranges levels tokenBytes).zipIdx
  need (m.levelList.all (fun l =>
      let r := levelRef levels l
      r.rows == m.slots * m.slotRows l && r.cols == m.cols && decide (8 * (levelMaskAt levels l).2 ≥ m.slotRows l)) &&
    rs.all (fun a => rs.all (fun b => a.2 == b.2 || !spansMeet a.1 b.1))) St.descInvalid

/-! ### The tokenizer table of a front end (R429) -/

/-- The front ends that may run a command (R414). -/
def State.kfeUp (s : State) (mask : Nat) : List Nat :=
  (List.range 4).filter (fun k => mask.testBit k && s.kfeFitted k && s.flag F.kfeStatus_UP k)

/-- The physical pages that a table of `n` bytes stands on, as the context maps them. -/
def tablePages (s : State) (root va n : Nat) : List Nat :=
  (List.range (n / 65536 + 1)).map (fun i => match s.translate root (va + 65536 * i) .read with
    | .ok pa _ => pa
    | _ => 0)

/-- A front end holds the table that a command names. -/
def tableHeld (s : State) (c root addr k : Nat) : Bool :=
  match look s.kfe.tables k with
  | some t => t.ctx == c && t.addr == addr && t.pages == tablePages s root addr t.bytes.length
  | none => false

/-- A notice of a front end (R446). -/
def kfeNtc (code sev k : Nat) (c : Option Nat) (a1 a2 a3 : Nat) : Ntc :=
  { code := code, sev := sev, ctx := c, data := Unit.kfe k, ctrl := unitPath (Unit.kfe k), a1 := a1, a2 := a2, a3 := a3 }

/-- A table held by a front end. -/
def State.holdTable (s : State) (k : Nat) (t : KfeTable) : State :=
  { s with kfe := { s.kfe with tables := put s.kfe.tables k t } }.wr F.kfeStatus_TABLE_VALID k 1

/-- The table that a command names, loaded and checked by each front end that does not hold it (R429). -/
def uTokens (c addr : Nat) (up : List Nat) : U (Except Nat (List Byte)) := do
  let a ← (fun a => (a, a) : U Acc)
  match up.filter (fun k => !tableHeld a.s c a.root addr k), up with
  | [], k :: _ => return .ok (((look a.s.kfe.tables k).map (·.bytes)).getD [])
  | k :: rest, _ =>
    let head ← uRead addr 320
    let n := fieldAt head 8 0 32
    let merges ← uRead (addr + 320) (if n ≤ 262144 then 8 * n else 0)
    let t := head ++ merges
    match ← uClean, tabCheck t with
    | false, _ => return .ok t
    | true, some (why, off) =>
      let tell : U PUnit := fun a => (⟨⟩, { a with s := a.s.raise (kfeNtc 0x0B04 Sev.error k (some c) (addr % 2 ^ 32) off why) })
      tell
      return .error St.descInvalid
    | true, none =>
      let store : U PUnit := fun a =>
        let kt : KfeTable := { ctx := c, addr := addr, pages := tablePages a.s a.root addr t.length, bytes := t }
        (⟨⟩, { a with s := (k :: rest).foldl (fun s j => s.holdTable j kt) a.s })
      store
      return .ok t
  | [], [] => return .error St.unitAbsent

/-! ### Dispatch -/

/-- The context may take frames of the queue that a live batch names (R445). -/
def State.liveMayTake (s : State) (c q : Nat) : Bool :=
  (List.range 64).any (fun n => s.flag F.kfeLiveCfg_ENABLE n && s.rd F.kfeLiveCfg_QUEUE n == q && s.rd F.kfeLiveCfg_CTX n == c)

/-- The dispatcher's reading of MEDIA_BATCH: the front ends, the level entries, the sample and spare tables, and the
tokenizer table. -/
def mediaPrep (s : State) (k : Nat) (x : Cmd) : U Prep := do
  if (List.range 4).all (fun j => !s.kfeFitted j) then return .error St.unitAbsent
  else match ← readDesc x 128 64 with
  | .error e => return .error e
  | .ok d =>
    let m := Media.parse d
    let up := s.kfeUp (fieldAt d 2 0 4)
    match mediaHeadCheck m with
    | .error e => return .error e
    | .ok _ =>
      if up = [] then return .error St.unitAbsent
      else
        let levels ← uRead m.levelTab (128 * (m.levels + 1))
        match mediaLevelCheck m levels 0 with
        | .error e => return .error e
        | .ok _ =>
          let samples ← uRead m.samples (32 * m.slots)
          let spares ← uRead m.spareTab (32 * m.spares)
          let tab ← if m.kind = MKind.text then uTokens (k / 64) m.tokens up else pure (.ok [])
          match tab with
          | .error e => return .error e
          | .ok t => return (do
              mediaLevelCheck m levels t.length
              need (!m.live || s.liveMayTake (k / 64) m.queue) St.descInvalid
              .ok (d, [natLE 1 ((up.map (fun j => 2 ^ j)).foldl (· + ·) 0), levels, samples, spares, t]))

def Cmd.media (x : Cmd) : Media := Media.parse x.desc
def Cmd.tab (x : Cmd) (i : Nat) : List Byte := (x.tables[i]?).getD []

/-- The front end that takes a slot of a command (log entry 14). -/
def kfeOf (k : Nat) (x : Cmd) (slot : Nat) : Nat :=
  let up := bitList (leNat (x.tab 0)) 4
  (up[Config.sampleKfe k x.count slot % up.length]?).getD 0

/-- The footprint of a batch. -/
def mediaFoot (x : Cmd) : List (Nat × Nat × Bool) :=
  let m := x.media
  let levels := x.tab 1
  let input (t : List Byte) (i : Nat) : Nat × Nat × Bool := footRange (fieldAt t (32 * i + 8) 0 64) (fieldAt t (32 * i + 16) 0 32) false
  m.levelList.flatMap (fun l => (levelRef levels l).foot true ++
    [footRange (levelMaskAt levels l).1 (m.slots * (levelMaskAt levels l).2) true]) ++
  [footRange m.status (32 * m.slots) true] ++
  (if m.live then [] else (List.range m.slots).map (input (x.tab 2)) ++ (List.range m.spares).map (input (x.tab 3)))

/-! ### Slots -/

abbrev Key.live : Nat := 10000
abbrev Key.forced : Nat := 20000
abbrev Key.resets : Nat := 30000

/-- The work so far has met no fault. -/
def uFine : U Bool := fun a => (a.fault.isNone, a)
/-- A change of the device's state by a unit. -/
def uDo (f : State → State) : U PUnit := fun a => (⟨⟩, { a with s := f a.s })

/-- Mask bits as bytes (R418). -/
def maskBytes (bits : List Bool) : List Byte :=
  (chunks 8 (bits.length + 1) bits).map (fun c => BitVec.ofNat 8 ((c.zipIdx.map (fun b => b2n b.1 <<< b.2)).foldl (· + ·) 0))

/-- What a slot holds written at every level: its rows, unless they stay unchanged, and its mask. -/
def uFill (k : Nat) (x : Cmd) (slot : Nat) (rows : Bool) (outs : List SlotOut) : U PUnit := do
  let m := x.media
  let levels := x.tab 1
  m.levelList.forM (fun l => do
    let o := (outs[l]?).getD {}
    let r := levelRef levels l
    let n := m.slotRows l
    let base := ((List.range l).map (fun j => m.slotRows j * m.cols)).foldl (· + ·) 0
    if rows then do
      o.rows.zipIdx.forM (fun p =>
        r.writeRow (fun i => (Config.mediaDraw k x.count slot (base + p.2 * m.cols + i)).toNat) (slot * n + p.2) 0 p.1)
      o.ints.zipIdx.forM (fun p => r.writeInts (slot * n + p.2) 0 [p.1])
    let mk := levelMaskAt levels l
    uOut (mk.1 + slot * mk.2) (maskBytes o.mask))

/-- A status entry (R433). -/
def uStatus (m : Media) (slot orig fill result why spare detail rejected : Nat) : U PUnit :=
  uOut (m.status + 32 * slot) (natLE 8 orig ++ natLE 8 fill ++ natLE 1 result ++ natLE 1 why ++ natLE 2 spare ++
    natLE 4 detail ++ natLE 2 rejected ++ natLE 6 0)

/-- The padding of a slot at every level. -/
def Media.voids (m : Media) : List SlotOut := m.levelList.map m.voidSlot

/-- The limits in force (R445). -/
def State.limits (s : State) : Limits :=
  { expansion := s.rd F.kfeLimits_EXPANSION_MAX, pixels := s.rd F.kfeLimits_PIXEL_BUDGET * 2 ^ 20,
    ns := s.rd F.kfeLimits_SAMPLE_TIME_MAX * 1000000 }

/-- Bytes read in pieces: the whole, or the offset of the first lost one. -/
def uInput (va n : Nat) : U (Except Nat (List Byte)) := do
  let ps ← uTry va n
  match ps.find? (fun p => p.2.isNone) with
  | some p => return .error p.1
  | none => return .ok (ps.flatMap (fun p => p.2.getD []))

/-- The augmentation record of a slot: the identity at address 0, and for TEXT (R420, R421). -/
def uAug (m : Media) (addr : Nat) : U (Except Nat Aug) := do
  if addr = 0 ∨ m.kind = MKind.text then return .ok {}
  else match ← uInput addr 32 with
    | .error o => return .error o
    | .ok d => return .ok (if addr % 32 = 0 then Aug.parse d else { ok := false })

/-- The tokenizer table that the front end of a slot works with. -/
def State.tableOf (s : State) (k : Nat) (x : Cmd) (slot : Nat) : List Byte :=
  match look s.kfe.tables (kfeOf k x slot) with
  | some t => if t.ctx = k / 64 ∧ t.addr = x.media.tokens then t.bytes else x.tab 4
  | none => x.tab 4

/-- A sample of a table decoded under an augmentation record (R420, R431). -/
def uSample (k : Nat) (x : Cmd) (slot : Nat) (e : List Byte) (augAddr : Nat) : U SampleEnd := do
  let m := x.media
  let n := fieldAt e 16 0 32
  let codec := fieldAt e 20 0 8
  let s ← uState
  if !zeroAt e 21 24 || !codecOk m.kind codec || n = 0 || n > 2 ^ 30 then return badHere Why.kind
  else match ← uAug m augAddr with
    | .error _ => return badHere Why.inputLost
    | .ok a =>
      if !a.ok then return badHere Why.kind
      else match ← uInput (fieldAt e 8 0 64) n with
        | .error o => return .bad Why.inputLost o
        | .ok bs => return m.sample s.limits a (s.tableOf k x slot) codec bs

/-- The physical address of a live frame slot. -/
def State.liveSlotAddr (s : State) (stream slot : Nat) : Nat :=
  s.rd F.kfeLiveBuf_BASE stream * 65536 + slot * (s.rd F.kfeLiveCfg_FRAME_MAX_KIB stream * 1024)

/-- A live frame decoded (R441, R442): what was assigned to the slot is 0 no frame, 1 a frame, 2 a frame from ahead of
time; stream, frame number, frame slot, codec, bytes. -/
def uFrame (x : Cmd) (slot : Nat) (e : List Byte) : U SampleEnd := do
  let m := x.media
  let p := lookD x.parts (Key.live + slot) []
  let s ← uState
  match p with
  | [1, stream, _, fslot, codec, n] =>
    if !zeroAt e 0 24 || !codecOk m.kind codec then return badHere Why.kind
    else match ← uAug m (fieldAt e 24 0 64) with
      | .error _ => return badHere Why.inputLost
      | .ok a =>
        if !a.ok then return badHere Why.kind
        else
          let read : U (List Byte × List Nat) := fun a =>
            let (bs, lost, s) := a.s.readPhys (s.liveSlotAddr stream fslot) n
            ((bs, lost), { a with s := s, lost := joinLost a.lost lost })
          let (bs, lost) ← read
          match lost with
          | g :: _ => return .bad Why.inputLost (g - s.liveSlotAddr stream fslot)
          | [] => return m.sample s.limits a [] codec bs
  | 2 :: _ => return badHere Why.time
  | _ => return badHere Why.noFrame

/-- ORIG_ID of a slot. Of a live slot without a frame it is free. -/
def origId (x : Cmd) (slot : Nat) (e : List Byte) : U Nat := do
  if !x.media.live then return fieldAt e 0 0 64
  else match lookD x.parts (Key.live + slot) [] with
    | _ :: stream :: frame :: _ => return stream * 2 ^ 48 + frame
    | _ => fun a => let (v, s) := a.s.fresh; (v.toNat, { a with s := s })

/-- A sample counted in KFE_COUNTS. -/
def uTally (kfe why : Nat) : U PUnit :=
  if why = 0 then uDo (fun s => s.count F.kfeCounts_SAMPLES kfe 1)
  else if why = Why.noFrame then pure ⟨⟩
  else uDo (fun s => s.count F.kfeCounts_CORRUPT kfe 1)

/-- The sample of a slot (R435, R443): what it leaves is its reason and the byte offset. In REFILL mode a corrupt slot
waits for the spares. -/
def mediaUnit (k : Nat) (x : Cmd) (slot : Nat) : U PUnit := do
  let m := x.media
  let e := slice (x.tab 2) (32 * slot) 32
  let r ← match look x.parts (Key.forced + slot) with
    | some _ => pure (badHere Why.timeout)
    | none => if m.live then uFrame x slot e else uSample k x slot e (fieldAt e 24 0 64)
  if ← uFine then do
    let orig ← origId x slot e
    match r with
    | .good outs clipped => do
      uFill k x slot true outs
      uStatus m slot orig orig (b2n clipped) 0 0xFFFF 0xFFFFFFFF 0
      uTally (kfeOf k x slot) 0
      uPart [0, 0]
    | .bad why detail => do
      if !m.refill then do
        uFill k x slot (why != Why.inputLost) m.voids
        uStatus m slot orig 0 2 why 0xFFFF detail 0
      uTally (kfeOf k x slot) why
      uPart [why, detail]

/-- The slots whose original is corrupt, in ascending order. -/
def Cmd.corrupt (x : Cmd) : List Nat :=
  (List.range x.media.slots).filter (fun i => (lookD x.parts i []).getD 0 0 != 0)

/-- One step of the refilling (R436); what it keeps: place in the list of failed slots, next spare, spares found corrupt
for this slot, slots refilled, slots voided, first slot voided. -/
def refillStep (k : Nat) (x : Cmd) : U PUnit := do
  let m := x.media
  let c ← (fun a => (a.carry, a) : U (List Nat))
  let g (i : Nat) : Nat := c.getD i 0
  match (x.corrupt)[g 0]?, ← uFine with
  | some slot, true =>
    let e := slice (x.tab 2) (32 * slot) 32
    let part := lookD x.parts slot []
    let why := part.getD 0 0
    let detail := part.getD 1 0
    if g 1 ≥ m.spares then do
      uFill k x slot (why != Why.inputLost) m.voids
      uStatus m slot (fieldAt e 0 0 64) 0 2 why 0xFFFF detail (g 2)
      uCarry [g 0 + 1, g 1, 0, g 3, g 4 + 1, if g 4 = 0 then slot else g 5]
      uFlush
    else do
      let sp := slice (x.tab 3) (32 * g 1) 32
      let r ← uSample k x slot sp (fieldAt e 24 0 64)
      if ← uFine then do
        match r with
        | .good outs _ => do
          uFill k x slot true outs
          uStatus m slot (fieldAt e 0 0 64) (fieldAt sp 0 0 64) 3 why (g 1) detail (g 2)
          uTally (kfeOf k x slot) 0
          uCarry [g 0 + 1, g 1 + 1, 0, g 3 + 1, g 4, g 5]
          uFlush
        | .bad w _ => do
          uTally (kfeOf k x slot) w
          uCarry [g 0, g 1 + 1, g 2 + 1, g 3, g 4, g 5]
  | _, _ => pure ⟨⟩

/-- The refilling of the failed slots: what it leaves is the slots refilled and voided, the first one voided, and the
spares tried. -/
def refillUnit (k : Nat) (x : Cmd) : U PUnit := do
  let s ← uState
  let x := (s.cmdAt k x.count).getD x
  (List.range (x.media.slots + x.media.spares)).forM (fun _ => refillStep k x)
  if ← uFine then do
    let c ← (fun a => (a.carry, a) : U (List Nat))
    uPart [c.getD 3 0, c.getD 4 0, c.getD 5 0, c.getD 1 0]
    uCarry []

/-! ### The end of a batch (R437) -/

/-- Frames dropped for age in a live batch: their number, the last stream and its age (R441). -/
def Cmd.stale (x : Cmd) : Nat × Nat × Nat := (x.aux.getD 2 0, x.aux.getD 3 0, x.aux.getD 4 0)

def mediaFin (k : Nat) (y : Cmd) (s : State) : State × Nat :=
  let c := k / 64
  let m := y.media
  let bad := y.corrupt
  let r := lookD y.parts m.slots []
  let second := if m.live then y.stale.1 else r.getD 0 0
  let s := s.updCmd k y.count (fun z => { z with counts := min bad.length 0xFFFF + min second 0xFFFF * 65536 })
  let s := match bad with
    | i :: _ => s.raise (kfeNtc 0x0B01 Sev.info (kfeOf k y i) (some c) i ((lookD y.parts i []).getD 0 0) bad.length)
    | [] => s
  let s := if m.refill ∧ r.getD 1 0 ≠ 0 then
      s.raise (kfeNtc 0x0B02 Sev.warn (kfeOf k y (r.getD 2 0)) (some c) (r.getD 2 0) (r.getD 3 0) (r.getD 1 0)) else s
  let s := if y.stale.1 ≠ 0 ∧ m.live then
      s.raise (kfeNtc 0x0B03 Sev.info (kfeOf k y 0) (some c) y.stale.2.1 y.stale.1 y.stale.2.2) else s
  (s, St.ok)

/-- A batch as restart units: one sample each (R443), the refilling last. -/
def mediaPlan (k : Nat) (x : Cmd) : Plan :=
  let n := x.media.slots
  { units := (List.range n).map (fun i => (i, Unit.kfe (kfeOf k x i))),
    run := fun u => if u < n then mediaUnit k x u else refillUnit k x,
    late := fun y => if y.media.refill && y.corrupt != [] && (List.range n).all y.doneUnits.contains then [(n, Unit.kfe (kfeOf k y 0))] else [],
    fin := mediaFin k }

/-- Samples of a command run, and the command settled. -/
def State.runMedia (s : State) (k count : Nat) (us : List (Nat × Nat)) : State :=
  match s.cmdAt k count with
  | none => s
  | some x => (s.runUnits k count (mediaPlan k x) us).settle k count (mediaPlan k x)

/-! ### Live batches (R441) -/

/-- The next slot takes what it is assigned, and the wait for the slot after it begins. -/
def State.assign (s : State) (k count slot : Nat) (p : List Nat) : State :=
  s.updCmd k count (fun y => { y with
    parts := put y.parts (Key.live + slot) p,
    aux := [slot + 1, s.ivl, y.aux.getD 2 0, y.aux.getD 3 0, y.aux.getD 4 0] })

/-- A frame dropped for age. -/
def State.dropStale (s : State) (k : Nat) (x : Cmd) (stream age : Nat) : State :=
  let s := (s.count F.kfeLiveCount_STALE stream 1).count F.kfeCounts_STALE (kfeOf k x (x.aux.getD 0 0)) 1
  s.updCmd k x.count (fun y => { y with
    flags := y.flags ||| FlBit.staleDrop,
    aux := [y.aux.getD 0 0, y.aux.getD 1 0, y.aux.getD 2 0 + 1, stream, age / 1000] })

/-- Slots filled in ascending order from the head packets of the queue, while there is one or the wait is over; when
every slot has its frame, the samples run. -/
def State.liveGo (k count : Nat) : Nat → State → State
  | 0, s => s
  | f + 1, s =>
    match s.cmdAt k count with
    | none => s
    | some x =>
      let m := x.media
      let slot := x.aux.getD 0 0
      if slot ≥ m.slots then
        (s.updCmd k count (fun y => { y with phase := .stalled })).runMedia k count (mediaPlan k x).units
      else match (s.que m.queue).head with
        | none =>
          if s.ivl - x.aux.getD 1 0 ≥ m.liveWait * 1000 then State.liveGo k count f (s.assign k count slot [0])
          else s.updCmd k count (fun y => { y with phase := .waiting })
        | some _ =>
          let e := (s.que m.queue).entry
          let capture := fieldAt e 0 0 64
          let stream := fieldAt e 12 0 16
          let t := s.time
          let s := ((s.queSkip m.queue).quePointers m.queue).2
          if m.maxAge ≠ 0 ∧ t - capture > m.maxAge * 1000 then
            State.liveGo k count f (s.dropStale k x stream (t - capture))
          else
            State.liveGo k count f (s.assign k count slot
              [if capture > t + 1000000 then 2 else 1, stream, fieldAt e 8 0 32, fieldAt e 20 0 32, fieldAt e 14 0 8, fieldAt e 16 0 32])

/-- Enough steps for every slot and every packet. -/
def State.liveFuel (s : State) (x : Cmd) : Nat := x.media.slots + (s.que x.media.queue).pkts.length + 2

def State.startMedia (s : State) (k : Nat) (x : Cmd) : State :=
  if x.media.live then
    let s := s.updCmd k x.count (fun y => { y with aux := [0, s.ivl, 0, 0, 0] })
    State.liveGo k x.count (s.liveFuel x) s
  else s.runMedia k x.count (mediaPlan k x).units

def mediaEngine : Engine where
  prep := mediaPrep
  foot := mediaFoot
  early := fun _ => pure false
  plan := mediaPlan
  start := State.startMedia

/-- Live batches that wait on a queue take a frame that has just been committed. -/
def State.feedLive (s : State) (q : Nat) : State :=
  let hits := s.rings.flatMap (fun e => (e.2.cmds.filter (fun x =>
    x.opcode == 0x0080 && x.phase == .waiting && x.media.live && x.media.queue == q)).map (fun x => (e.1, x)))
  hits.foldl (fun s h => if s.ctxHeld (h.1 / 64) then s else State.liveGo h.1 h.2.count (s.liveFuel h.2) s) s

/-- LIVE_WAIT_EXPIRY (R441): the slot that waits is VOID with reason NO_FRAME. -/
def execLiveWaitExpiry (id : CmdId) (s : State) : Host.Outcome State Fault Refusal :=
  let k := CmdKey id
  .next (match s.cmd id with
    | some x =>
      if x.opcode = 0x0080 ∧ x.phase = .waiting ∧ x.media.live ∧ !s.ctxHeld (k / 64) ∧
          s.ivl - x.aux.getD 1 0 ≥ x.media.liveWait * 1000 then
        State.liveGo k x.count (s.liveFuel x) s
      else s
    | none => s)

/-! ### Samples that take too long, and resets of front ends (R432, R444) -/

/-- The samples in progress on a front end: ring, command, slot. -/
def State.samplesOn (s : State) (kfe : Nat) : List (Nat × Nat × Nat) :=
  s.rings.flatMap (fun e => e.2.cmds.flatMap (fun x =>
    if x.opcode = 0x0080 ∧ x.phase = .stalled then
      (x.stalls.filter (fun st => !st.dispatch && kfeOf e.1 x st.unit == kfe)).map (fun st => (e.1, x.count, st.unit))
    else []))

/-- A sample made corrupt with reason TIMEOUT: it ends. -/
def State.forceTimeout (s : State) (k count slot : Nat) : State :=
  let s := s.updCmd k count (fun y => { y with
    parts := put y.parts (Key.forced + slot) [Why.timeout], stalls := y.stalls.filter (fun st => st.unit != slot || st.dispatch),
    held := del y.held slot })
  match s.cmdAt k count with
  | some x => s.runMedia k count [(slot, Unit.kfe (kfeOf k x slot))]
  | none => s

/-- SAMPLE_TIMEOUT (R432): a sample that has been in progress for SAMPLE_TIME_MAX. -/
def execSampleTimeout (id : CmdId) (slot : BitVec 16) (s : State) : Host.Outcome State Fault Refusal :=
  let k := CmdKey id
  .next (match s.cmd id with
    | some x =>
      if x.opcode = 0x0080 ∧ x.phase = .stalled ∧ slot.toNat < x.media.slots ∧ !s.ctxHeld (k / 64) ∧
          x.stalls.any (fun st => st.unit == slot.toNat && !st.dispatch) ∧ s.ivl - x.issuedAt ≥ s.limits.ns then
        s.forceTimeout k x.count slot.toNat
      else s
    | none => s)

/-- A front end is reset (R444): out of service, its table gone; the samples in progress on it run again, and one that
meets its second reset is corrupt. -/
def State.resetKfe (s : State) (kfe cause : Nat) : State :=
  let hits := s.samplesOn kfe
  let s := (((s.wr F.kfeStatus_UP kfe 0).wr F.kfeStatus_TABLE_VALID kfe 0).count F.kfeStatus_RESETS kfe 1)
  let s := { s with kfe := { s.kfe with tables := del s.kfe.tables kfe, resetting := s.kfe.resetting ++ [kfe] } }
  let s := s.raise (kfeNtc 0x0B05 Sev.warn kfe none kfe hits.length cause)
  hits.foldl (fun s h =>
    match s.cmdAt h.1 h.2.1 with
    | none => s
    | some x =>
      let slot := h.2.2
      if slot ≥ x.media.slots then s
      else if (look x.parts (Key.resets + slot)).isSome then s.forceTimeout h.1 h.2.1 slot
      else s.updCmd h.1 h.2.1 (fun y => { y with parts := put y.parts (Key.resets + slot) [1] })) s

/-- KFE_WATCHDOG (R444). Whether the watchdog or an SRAM error is the cause is free. -/
def execKfeWatchdog (k : Fin 4) (s : State) : Host.Outcome State Fault Refusal :=
  .next (if s.kfeFitted k.val ∧ s.flag F.kfeStatus_UP k.val then
      let (v, s) := s.fresh
      s.resetKfe k.val (v.toNat % 2)
    else s)

/-- KFE_RESET_DONE (R444). -/
def execKfeResetDone (k : Fin 4) (s : State) : Host.Outcome State Fault Refusal :=
  .next (if s.kfe.resetting.contains k.val then
      { s with kfe := { s.kfe with resetting := s.kfe.resetting.filter (· != k.val) } }.wr F.kfeStatus_UP k.val 1
    else s)

/-! ### Live frames (R439, R440, R442, R471) -/

/-- Bytes `[p, …)` that arrivals cover without a gap, as far as they reach. -/
def reach (got : List (Nat × Nat)) : Nat → Nat → Nat
  | 0, p => p
  | f + 1, p => match got.find? (fun g => decide (g.1 ≤ p ∧ p < g.2)) with
    | some g => reach got f g.2
    | none => p

/-- The bytes of a payload that have not arrived before, as runs. -/
def freshRuns (got : List (Nat × Nat)) : Nat → List Byte → List (Nat × List Byte)
  | _, [] => []
  | off, b :: t =>
    let rest := freshRuns got (off + 1) t
    if got.any (fun g => decide (g.1 ≤ off ∧ off < g.2)) then rest
    else match rest with
      | (o, bs) :: more => if o = off + 1 then (off, b :: bs) :: more else (off, [b]) :: rest
      | [] => [(off, [b])]

/-- A frame slot holds a frame that waits in the stream's queue, or one that a command has taken and not decoded. -/
def State.slotPinned (s : State) (stream slot : Nat) : Bool :=
  (s.que (s.rd F.kfeLiveCfg_QUEUE stream)).pkts.any (fun p => p.ents.any (fun e =>
    fieldAt e 12 0 16 == stream && fieldAt e 20 0 32 == slot)) ||
  s.rings.any (fun e => e.2.cmds.any (fun x => x.opcode == 0x0080 && x.phase != .ended && x.media.live &&
    x.parts.any (fun p => decide (Key.live ≤ p.1 ∧ p.1 < Key.live + 4096) && !x.doneUnits.contains (p.1 - Key.live) &&
      p.2.getD 1 0x10000 == stream && p.2.getD 3 0 == slot)))

/-- A notice about live reception (R446). -/
def liveNtc (code sev a1 a2 a3 : Nat) : Ntc :=
  { code := code, sev := sev, data := Unit.hub, ctrl := Path.barp, a1 := a1, a2 := a2, a3 := a3 }

/-- A live message that no stream takes (R439): counted where a stream is named, and reported once per second. -/
def State.liveUnknown (s : State) (n : Option Nat) (id bytes cause : Nat) : State :=
  let s := match n with | some n => s.count F.kfeLiveCount_OVERRUN n 1 | none => s
  let (due, s) := s.oncePerSecond 1064
  if due then s.raise (liveNtc 0x0B07 Sev.info id bytes cause) else s

/-- A live frame dropped because its slot is in use (R442); its notice comes at most once per second per stream. -/
def State.liveOverrun (s : State) (n slot : Nat) : State :=
  let s := s.count F.kfeLiveCount_OVERRUN n 1
  let k := lookD s.kfe.dropped n 0 + 1
  let (due, s) := s.oncePerSecond (1000 + n)
  if due then { s with kfe := { s.kfe with dropped := del s.kfe.dropped n } }.raise (liveNtc 0x0B06 Sev.warn n k slot)
  else { s with kfe := { s.kfe with dropped := put s.kfe.dropped n k } }

/-- The stream that a message names: an enabled one before one that is not. -/
def State.liveStream (s : State) (id : Nat) : Option Nat :=
  let hits := (List.range 64).filter (fun n => s.rd F.kfeLiveCfg_STREAM_ID n == id)
  (hits.find? (fun n => s.flag F.kfeLiveCfg_ENABLE n)).orElse (fun _ => hits.head?)

/-- A frame whose bytes have all arrived is committed (R440). -/
def State.liveCommit (s : State) (fr : LiveFrame) : State :=
  let n := fr.stream
  let q := s.rd F.kfeLiveCfg_QUEUE n
  let s := { s with kfe := { s.kfe with frames := s.kfe.frames.filter (fun g => g != fr) } }
  let entry := natLE 8 fr.capture ++ natLE 4 fr.frame ++ natLE 2 n ++ natLE 1 fr.codec ++ natLE 1 0 ++ natLE 4 fr.total ++
    natLE 4 fr.slot ++ natLE 8 s.time
  let (e, s) := s.enqueue q (s.rd F.kfeLiveCfg_PRIO n) [entry] 3
  match e with
  | .committed _ => (s.count F.kfeLiveCount_RECEIVED n 1).feedLive q
  | _ => s

/-- A datagram of a frame of stream `n` (R471). -/
def State.liveBytes (s : State) (n frame off capture total codec : Nat) (payload : List Byte) : State :=
  let slot := frame % s.rd F.kfeLiveCfg_FRAME_SLOTS n
  match s.kfe.frames.find? (fun f => f.stream == n && f.frame == frame) with
  | none =>
    let busy := s.slotPinned n slot || s.kfe.frames.any (fun f => f.stream == n && f.slot == slot && !f.dead)
    let fr : LiveFrame := { stream := n, frame := frame, slot := slot, total := total, got := [], firstAt := s.ivl,
                            capture := capture, codec := codec, dead := busy }
    let s := { s with kfe := { s.kfe with frames := s.kfe.frames ++ [fr] } }
    if busy then s.liveOverrun n slot else take s fr
  | some fr => if fr.dead then s else take s fr
where
  take (s : State) (fr : LiveFrame) : State :=
    if off + payload.length > fr.total then s
    else
      let s := (freshRuns fr.got off payload).foldl (fun s r => (s.writePhys (s.liveSlotAddr n fr.slot + r.1) r.2).2) s
      let new := { fr with got := fr.got ++ [(off, off + payload.length)] }
      let s := { s with kfe := { s.kfe with frames := s.kfe.frames.map (fun f => if f = fr then new else f) } }
      if reach new.got (new.got.length + 1) 0 ≥ new.total then s.liveCommit new else s

/-- A live datagram (R413, R439, R471). -/
def State.liveDatagram (s : State) (d : List Byte) : State :=
  let id := fieldAt d 4 0 16
  let total := fieldAt d 24 0 32
  if d.length < 32 ∨ fieldAt d 0 0 32 ≠ 0x4C584247 ∨ fieldAt d 7 0 8 ≠ 0 ∨ fieldAt d 28 0 32 ≠ 0 then s
  else if (List.range 4).all (fun k => !s.kfeFitted k) then s.liveUnknown none id total 3
  else match s.liveStream id with
    | none => s.liveUnknown none id total 0
    | some n =>
      if !s.flag F.kfeLiveCfg_ENABLE n then s.liveUnknown (some n) id total 1
      else if total > s.rd F.kfeLiveCfg_FRAME_MAX_KIB n * 1024 ∨ s.rd F.kfeLiveCfg_FRAME_SLOTS n = 0 then
        s.liveUnknown (some n) id total 2
      else s.liveBytes n (fieldAt d 8 0 32) (fieldAt d 12 0 32) (fieldAt d 16 0 64) total (fieldAt d 6 0 8) (d.drop 32)

/-- LIVE_DATAGRAM (R471). -/
def execLiveDatagram (lp : Fin 24) (bytes : List Byte) (s : State) : Host.Outcome State Fault Refusal :=
  .next (if s.netServes ∧ s.lpUp lp.val then s.liveDatagram bytes else s)

/-- LIVE_FRAME_TIMEOUT (R471): a frame still incomplete 10 ms after its first datagram is dropped and counted. -/
def execLiveFrameTimeout (stream : Fin 64) (frame : BitVec 32) (s : State) : Host.Outcome State Fault Refusal :=
  .next (match s.kfe.frames.find? (fun f => f.stream == stream.val && f.frame == frame.toNat) with
    | some f =>
      if s.ivl - f.firstAt ≥ 10000000 then
        let s := { s with kfe := { s.kfe with frames := s.kfe.frames.filter (fun g => g != f) } }
        if f.dead then s else s.count F.kfeLiveCount_OVERRUN stream.val 1
      else s
    | none => s)

end Sys2Proof.Machine
end

