-- ==== Sys2Proof/Machine/BraceSet.lean ====
section
/-!
DEFINITION. BRACE_SET (R537): the entries of a brace set and their checks.
-/
namespace Sys2Proof.Machine

def beKind (e : List Byte) : Nat := fieldAt e 0 0 2
def beTarget (e : List Byte) : Nat := fieldAt e 0 2 2
def beConn (e : List Byte) : Nat := fieldAt e 2 0 16
def beFirst (e : List Byte) : Nat := fieldAt e 4 0 16
def beCount (e : List Byte) : Nat := fieldAt e 6 0 16
def beSrc (e : List Byte) : Nat := fieldAt e 8 0 64
def beLength (e : List Byte) : Nat := fieldAt e 16 0 64
def beDest (e : List Byte) : Nat := fieldAt e 24 0 64

/-- The field rules of an entry. -/
def braceEntryOk (e : List Byte) : Bool :=
  let groups := beKind e == 1
  (groups || beKind e == 2) && beTarget e < 2 && fieldAt e 0 4 4 == 0 && fieldAt e 1 0 8 == 0 &&
  (beTarget e == 0 || beConn e == 0) &&
  (if groups then beCount e ≥ 1 && beSrc e == 0
   else beFirst e == 0 && beCount e == 0 && beSrc e % 64 == 0 && beLength e % 64 == 0)

/-- The bytes of the stream of a group range (R243 to R245). -/
def groupStreamBytes (t : List Byte) : Nat := Export.total ((groupsOf t).map (fun g => g.stream false 0))

/-- An entry against the context, its connections and its groups. -/
def uBraceEntry (s : State) (c : Nat) (e : List Byte) : U (Except Nat Unit) := do
  let conn := beConn e
  let target := if beTarget e = 0 then conn < 4096 && s.connKind conn == Kind.gct && s.connCtx conn == c
                else decide (beDest e + beLength e ≤ 2 ^ 40)
  if beKind e = 2 then return need target St.descInvalid
  else match ← uGroups c (beFirst e) (beCount e) with
    | none => return .error St.descInvalid
    | some t => return need (target && decide (groupStreamBytes t ≤ beLength e)) St.descInvalid

/-- The entries of a descriptor. -/
def braceEntries (d : List Byte) : List (List Byte) := (List.range (fieldAt d 0 0 8)).map (fun i => slice d (64 + 32 * i) 32)

def bracePrep (s : State) (k : Nat) (x : Cmd) : U Prep := do
  match ← readDesc x 64 64 with
  | .error e => return .error e
  | .ok h =>
    if fieldAt h 0 0 8 > 32 || !zeroAt h 1 64 then return .error St.descInvalid
    else
      let d := h ++ (← uRead (x.descAddr + 64) (32 * fieldAt h 0 0 8))
      let es := braceEntries d
      if !es.all braceEntryOk then return .error St.descInvalid
      else
        let rs ← es.mapM (uBraceEntry s (k / 64))
        return (do rs.forM id; .ok (d, []))

/-- The set replaces the context's earlier one. -/
def State.startBraceSet (s : State) (k : Nat) (x : Cmd) : State :=
  let es := braceEntries x.desc
  let s := { s with brace := { s.brace with sets := if es = [] then del s.brace.sets (k / 64) else put s.brace.sets (k / 64) es } }
  let y := { x with counts := es.length }
  (s.updCmd k x.count (fun _ => y)).endCmd k y St.ok

def braceSetEngine : Engine where
  prep := bracePrep
  start := State.startBraceSet

end Sys2Proof.Machine
end

