-- ==== Sys2Proof/Machine/Commands.lean ====
section
/-!
DEFINITION. The commands of a ring, each as the event of its issue (R104, R581, R588): which engine runs an opcode, and
which row of the table an operation of a shared opcode is.
-/
namespace Sys2Proof.Machine

/-- The engine of an opcode (R588). -/
def engineOf (op : Nat) : Option Engine :=
  match op with
  | 0x0001 => some nopEngine
  | 0x0010 => some (dmaEngine 0x0010)
  | 0x0011 => some (dmaEngine 0x0011)
  | 0x0012 => some (dmaEngine 0x0012)
  | 0x0020 => some (gemmEngine false)
  | 0x0021 => some (gemmEngine true)
  | 0x0030 => some convEngine
  | 0x0031 => some poolEngine
  | 0x0040 => some vecEngine
  | 0x0041 => some (redEngine true)
  | 0x0042 => some (redEngine false)
  | 0x0048 => some convertEngine
  | 0x0050 => some (attnEngine false)
  | 0x0051 => some (attnEngine true)
  | 0x0052 => some appendEngine
  | 0x0053 => some kvPageEngine
  | 0x0060 => some optEngine
  | 0x0061 => some stepEngine
  | 0x0062 => some digestEngine
  | 0x0063 => some exportEngine
  | 0x0070 => some collEngine
  | 0x0071 => some remoteBeadEngine
  | 0x0072 => some loanEngine
  | 0x0080 => some mediaEngine
  | 0x0090 => some beadOpEngine
  | 0x0091 => some pegOpEngine
  | 0x00A0 => some branchEngine
  | 0x00A1 => some remapEngine
  | 0x00B0 => some queuePutEngine
  | 0x00C0 => some braceSetEngine
  | _ => none

/-- NOP (R588): the event of its issue. -/
def execNop (id : CmdId) (s : State) : Host.Outcome State Fault Refusal := .next (s.issue id 0x0001 engineOf)

/-- DMA_COPY (R309): the event of its issue. -/
def execDmaCopy (id : CmdId) (s : State) : Host.Outcome State Fault Refusal := .next (s.issue id 0x0010 engineOf)

/-- DMA_SCATTER (R309): the event of its issue. -/
def execDmaScatter (id : CmdId) (s : State) : Host.Outcome State Fault Refusal := .next (s.issue id 0x0011 engineOf)

/-- DMA_GATHER (R309): the event of its issue. -/
def execDmaGather (id : CmdId) (s : State) : Host.Outcome State Fault Refusal := .next (s.issue id 0x0012 engineOf)

/-- GEMM (R95): the event of its issue. -/
def execGemm (id : CmdId) (s : State) : Host.Outcome State Fault Refusal := .next (s.issue id 0x0020 engineOf)

/-- GEMM_GROUPED (R101): the event of its issue. -/
def execGemmGrouped (id : CmdId) (s : State) : Host.Outcome State Fault Refusal := .next (s.issue id 0x0021 engineOf)

/-- CONV (R158): the event of its issue. -/
def execConv (id : CmdId) (s : State) : Host.Outcome State Fault Refusal := .next (s.issue id 0x0030 engineOf)

/-- POOL (R169): the event of its issue. -/
def execPool (id : CmdId) (s : State) : Host.Outcome State Fault Refusal := .next (s.issue id 0x0031 engineOf)

/-- VEC (R123): the event of its issue. -/
def execVec (id : CmdId) (s : State) : Host.Outcome State Fault Refusal := .next (s.issue id 0x0040 engineOf)

/-- SCAN (R132): the event of its issue. -/
def execScan (id : CmdId) (s : State) : Host.Outcome State Fault Refusal := .next (s.issue id 0x0041 engineOf)

/-- REDUCE (R133): the event of its issue. -/
def execReduce (id : CmdId) (s : State) : Host.Outcome State Fault Refusal := .next (s.issue id 0x0042 engineOf)

/-- CONVERT (R143): the event of its issue. -/
def execConvert (id : CmdId) (s : State) : Host.Outcome State Fault Refusal := .next (s.issue id 0x0048 engineOf)

/-- ATTN_FWD (R202): the event of its issue. -/
def execAttnFwd (id : CmdId) (s : State) : Host.Outcome State Fault Refusal := .next (s.issue id 0x0050 engineOf)

/-- ATTN_BWD (R207): the event of its issue. -/
def execAttnBwd (id : CmdId) (s : State) : Host.Outcome State Fault Refusal := .next (s.issue id 0x0051 engineOf)

/-- KV_APPEND_SCATTER (R190): the event of its issue. -/
def execKvAppendScatter (id : CmdId) (s : State) : Host.Outcome State Fault Refusal := .next (s.issue id 0x0052 engineOf)

/-- OPT_STEP (R230): the event of its issue. -/
def execOptStep (id : CmdId) (s : State) : Host.Outcome State Fault Refusal := .next (s.issue id 0x0060 engineOf)

/-- DIGEST (R241): the event of its issue. -/
def execDigest (id : CmdId) (s : State) : Host.Outcome State Fault Refusal := .next (s.issue id 0x0062 engineOf)

/-- STATE_EXPORT (R243): the event of its issue. -/
def execStateExport (id : CmdId) (s : State) : Host.Outcome State Fault Refusal := .next (s.issue id 0x0063 engineOf)

/-- BRANCH (R113): the event of its issue. -/
def execBranch (id : CmdId) (s : State) : Host.Outcome State Fault Refusal := .next (s.issue id 0x00a0 engineOf)

/-- REMAP (R261): the event of its issue. -/
def execRemap (id : CmdId) (s : State) : Host.Outcome State Fault Refusal := .next (s.issue id 0x00a1 engineOf)

/-- QUEUE_PUT (R400): the event of its issue. -/
def execQueuePut (id : CmdId) (s : State) : Host.Outcome State Fault Refusal := .next (s.issue id 0x00b0 engineOf)

/-- BRACE_SET (R537): the event of its issue. -/
def execBraceSet (id : CmdId) (s : State) : Host.Outcome State Fault Refusal := .next (s.issue id 0x00c0 engineOf)

/-- The state with a command of opcode 0x0053 issued, when it is of the row with operation `op`. -/
def State.kvRow (s : State) (id : CmdId) (op : Nat) : State :=
  if s.isRow id 0 0 8 [1, 2, 3, 4, 5, 6] op then s.issue id 0x0053 engineOf else s

/-- KV_ALLOC (R198): the event of its issue. -/
def execKvAlloc (id : CmdId) (s : State) : Host.Outcome State Fault Refusal := .next (s.kvRow id 1)

/-- KV_RELEASE (R198): the event of its issue. -/
def execKvRelease (id : CmdId) (s : State) : Host.Outcome State Fault Refusal := .next (s.kvRow id 2)

/-- KV_SHARE (R198): the event of its issue. -/
def execKvShare (id : CmdId) (s : State) : Host.Outcome State Fault Refusal := .next (s.kvRow id 3)

/-- KV_TREE_LOOKUP (R198): the event of its issue. -/
def execKvTreeLookup (id : CmdId) (s : State) : Host.Outcome State Fault Refusal := .next (s.kvRow id 4)

/-- KV_TREE_INSERT (R198): the event of its issue. -/
def execKvTreeInsert (id : CmdId) (s : State) : Host.Outcome State Fault Refusal := .next (s.kvRow id 5)

/-- KV_TREE_REMOVE (R198): the event of its issue. -/
def execKvTreeRemove (id : CmdId) (s : State) : Host.Outcome State Fault Refusal := .next (s.kvRow id 6)

/-- The state with a command of opcode 0x0072 issued, when it is of the row with operation `op`. -/
def State.loanStepRow (s : State) (id : CmdId) (op : Nat) : State :=
  if s.isRow id 1 0 2 [0, 1, 2] op then s.issue id 0x0072 engineOf else s

/-- LOAN_STEP_STEP (R248): the event of its issue. -/
def execLoanStepStep (id : CmdId) (s : State) : Host.Outcome State Fault Refusal := .next (s.loanStepRow id 0)

/-- LOAN_STEP_COMMIT (R248): the event of its issue. -/
def execLoanStepCommit (id : CmdId) (s : State) : Host.Outcome State Fault Refusal := .next (s.loanStepRow id 1)

/-- LOAN_STEP_FETCH (R248): the event of its issue. -/
def execLoanStepFetch (id : CmdId) (s : State) : Host.Outcome State Fault Refusal := .next (s.loanStepRow id 2)

/-- The state with a command of opcode 0x0061 issued, when it is of the row with operation `op`. -/
def State.stepRow (s : State) (id : CmdId) (op : Nat) : State :=
  if s.isRow id 1 0 2 [0, 1, 2, 3] op then s.issue id 0x0061 engineOf else s

/-- STEP_COMMIT (R270): the event of its issue. -/
def execStepCommit (id : CmdId) (s : State) : Host.Outcome State Fault Refusal := .next (s.stepRow id 0)

/-- STEP_COMMIT_RESOLVE (R273): the event of its issue. -/
def execStepCommitResolve (id : CmdId) (s : State) : Host.Outcome State Fault Refusal := .next (s.stepRow id 1)

/-- STEP_COMMIT_FORCE (R274): the event of its issue. -/
def execStepCommitForce (id : CmdId) (s : State) : Host.Outcome State Fault Refusal := .next (s.stepRow id 2)

/-- STEP_COMMIT_ABSTAIN (R275): the event of its issue. -/
def execStepCommitAbstain (id : CmdId) (s : State) : Host.Outcome State Fault Refusal := .next (s.stepRow id 3)

/-- The state with a command of opcode 0x0070 issued, when it is of the row with operation `op`. -/
def State.collRow (s : State) (id : CmdId) (op : Nat) : State :=
  if s.isRow id 1 0 4 [0, 1, 2, 3, 4, 5, 8, 9] op then s.issue id 0x0070 engineOf else s

/-- COLLECTIVE_ALL_REDUCE (R464): the event of its issue. -/
def execCollectiveAllReduce (id : CmdId) (s : State) : Host.Outcome State Fault Refusal := .next (s.collRow id 0)

/-- COLLECTIVE_REDUCE_SCATTER (R464): the event of its issue. -/
def execCollectiveReduceScatter (id : CmdId) (s : State) : Host.Outcome State Fault Refusal := .next (s.collRow id 1)

/-- COLLECTIVE_ALL_GATHER (R464): the event of its issue. -/
def execCollectiveAllGather (id : CmdId) (s : State) : Host.Outcome State Fault Refusal := .next (s.collRow id 2)

/-- COLLECTIVE_ALL_TO_ALL (R464): the event of its issue. -/
def execCollectiveAllToAll (id : CmdId) (s : State) : Host.Outcome State Fault Refusal := .next (s.collRow id 3)

/-- COLLECTIVE_BROADCAST (R464): the event of its issue. -/
def execCollectiveBroadcast (id : CmdId) (s : State) : Host.Outcome State Fault Refusal := .next (s.collRow id 4)

/-- COLLECTIVE_TRANSFER (R467): the event of its issue. -/
def execCollectiveTransfer (id : CmdId) (s : State) : Host.Outcome State Fault Refusal := .next (s.collRow id 5)

/-- COLLECTIVE_FORM (R460): the event of its issue. -/
def execCollectiveForm (id : CmdId) (s : State) : Host.Outcome State Fault Refusal := .next (s.collRow id 8)

/-- COLLECTIVE_DISSOLVE (R460): the event of its issue. -/
def execCollectiveDissolve (id : CmdId) (s : State) : Host.Outcome State Fault Refusal := .next (s.collRow id 9)

/-- The state with a command of opcode 0x0071 issued, when it is of the row with operation `op`. -/
def State.remoteBeadRow (s : State) (id : CmdId) (op : Nat) : State :=
  if s.isRow id 0 0 2 [0, 1, 2] op then s.issue id 0x0071 engineOf else s

/-- REMOTE_BEAD_ADD (R379): the event of its issue. -/
def execRemoteBeadAdd (id : CmdId) (s : State) : Host.Outcome State Fault Refusal := .next (s.remoteBeadRow id 0)

/-- REMOTE_BEAD_WAIT_GE (R379): the event of its issue. -/
def execRemoteBeadWaitGe (id : CmdId) (s : State) : Host.Outcome State Fault Refusal := .next (s.remoteBeadRow id 1)

/-- REMOTE_BEAD_READ (R379): the event of its issue. -/
def execRemoteBeadRead (id : CmdId) (s : State) : Host.Outcome State Fault Refusal := .next (s.remoteBeadRow id 2)

/-- The state with a command of opcode 0x0090 issued, when it is of the row with operation `op`. -/
def State.beadOpRow (s : State) (id : CmdId) (op : Nat) : State :=
  if s.isRow id 0 0 2 [0, 1, 2] op then s.issue id 0x0090 engineOf else s

/-- BEAD_OP_ADD (R373): the event of its issue. -/
def execBeadOpAdd (id : CmdId) (s : State) : Host.Outcome State Fault Refusal := .next (s.beadOpRow id 0)

/-- BEAD_OP_WAIT_GE (R373): the event of its issue. -/
def execBeadOpWaitGe (id : CmdId) (s : State) : Host.Outcome State Fault Refusal := .next (s.beadOpRow id 1)

/-- BEAD_OP_READ (R373): the event of its issue. -/
def execBeadOpRead (id : CmdId) (s : State) : Host.Outcome State Fault Refusal := .next (s.beadOpRow id 2)

/-- The state with a command of opcode 0x0091 issued, when it is of the row with operation `op`. -/
def State.pegOpRow (s : State) (id : CmdId) (op : Nat) : State :=
  if s.isRow id 0 0 2 [0, 1, 2, 3] op then s.issue id 0x0091 engineOf else s

/-- PEG_SET (R389): the event of its issue. -/
def execPegSet (id : CmdId) (s : State) : Host.Outcome State Fault Refusal := .next (s.pegOpRow id 0)

/-- PEG_CLEAR (R389): the event of its issue. -/
def execPegClear (id : CmdId) (s : State) : Host.Outcome State Fault Refusal := .next (s.pegOpRow id 1)

/-- PEG_WAIT_SET (R389): the event of its issue. -/
def execPegWaitSet (id : CmdId) (s : State) : Host.Outcome State Fault Refusal := .next (s.pegOpRow id 2)

/-- PEG_WAIT_CLEAR (R389): the event of its issue. -/
def execPegWaitClear (id : CmdId) (s : State) : Host.Outcome State Fault Refusal := .next (s.pegOpRow id 3)

/-- The front ends that a MEDIA_BATCH may use and that are not ON (R506). -/
def State.kfeAsleep (s : State) (k : Nat) (x : Cmd) : List Nat :=
  ((s.kfeUp (s.peekDesc k x 2 0 4)).map kfeDom).filter (fun d => !s.domOn d && !s.pwr.failed.contains d)

/-- MEDIA_BATCH at its issue, by its source: the front ends that it may use are woken first. -/
def State.mediaRow (s : State) (id : CmdId) (source : Nat) : State :=
  match s.cmd id with
  | none => s
  | some x =>
    if x.opcode ≠ 0x0080 || !s.isRow id 1 2 1 [0, 1] source then s
    else if s.issuable (CmdKey id) x ∧ s.kfeAsleep (CmdKey id) x ≠ [] then (s.kfeAsleep (CmdKey id) x).foldl State.askWake s
    else s.issue id 0x0080 engineOf

/-- MEDIA_BATCH (R422): the event of its issue with its samples in memory. -/
def execMediaBatch (id : CmdId) (s : State) : Host.Outcome State Fault Refusal := .next (s.mediaRow id 0)

/-- MEDIA_BATCH_LIVE (R441): the event of its issue with its samples in a live queue. -/
def execMediaBatchLive (id : CmdId) (s : State) : Host.Outcome State Fault Refusal := .next (s.mediaRow id 1)

end Sys2Proof.Machine
end

