-- ==== Sys2Proof/Machine/Resolve.lean ====
section
/-!
DEFINITION. The resolution of faults that stall (R335 to R340): the events by which a die bar resolves copy-on-write,
loan and migration faults, the restarts of KV walks (R183), KV copy-on-write (R194), the lender's replies (R469), and the
replay of restart units.
-/
namespace Sys2Proof.Machine

/-! ### Replay (R340) -/

/-- The units of a context may run: it is not being set aside or disabled, and the device is not in an activation
pause. -/
def State.unitsRun (s : State) (c : Nat) : Bool :=
  (s.ctxState c == Ctx.idle || s.ctxState c == Ctx.active) && s.dev != Dev.paused

/-- An issued command that pre-emption waits for (R617): a remote addition or read, a collective under SAVE, a
LOAN_STEP, and the commands of the dispatcher that run to their end. -/
def delays (evict : Bool) (x : Cmd) : Bool :=
  (x.phase == .waiting || x.phase == .stalled) &&
  ((x.opcode == 0x0071 && fieldAt x.desc 0 0 2 != 1) || x.opcode == 0x0072 ||
   (x.phase == .stalled && (x.opcode == 0x0090 && fieldAt x.desc 0 0 2 == 2 || x.opcode == 0x00B0 || x.opcode == 0x00C0)) ||
   (!evict && (x.opcode == 0x0070 || (x.opcode == 0x0062 && x.phase == .waiting))))

/-- The units of a command may run: those of its context may, or a pre-emption waits for the command's end. -/
def State.cmdRuns (s : State) (c : Nat) (x : Cmd) : Bool :=
  s.unitsRun c || (s.ctxState c == Ctx.preempting && s.dev != Dev.paused && delays (s.ctx c).evict x)

/-- A collective goes on with what its units have left. -/
def State.onward (s : State) (k count : Nat) : State :=
  match s.cmdAt k count with
  | some x => if x.opcode = 0x0070 ∨ x.opcode = 0x0062 then s.collAdvance k count else s
  | none => s

/-- The time that a migration has already spent goes on with a unit that stalls on it again (R348). -/
def State.keepSpent (s : State) (k count : Nat) (old : Stall) : State :=
  if old.kind = .migrate then
    s.updCmd k count (fun y => { y with stalls := y.stalls.map (fun t =>
      if t.unit = old.unit ∧ t.kind = .migrate ∧ t.va = old.va then { t with spent := old.spent } else t) })
  else s

/-- The units of a command that may run do so, `first` before the others: those of its context may, and what it yielded
is free again (R343). -/
def State.goOn (s : State) (k count : Nat) (first : Option (Nat × Nat)) : State :=
  match s.cmdAt k count with
  | none => s
  | some x =>
    match engineOf x.opcode with
    | none => s
    | some e =>
      if x.phase = .ended ∨ !s.cmdRuns (k / 64) x ∨ !s.mayContinue k x (s.mainView k engineOf) then s
      else
        let p := e.plan k x
        let s := s.takeBack k x
        let s := match first with
          | some u => s.runUnit k count p u.1 u.2
          | none => s
        (s.settle k count p).onward k count

/-- A stall leaves its command; a unit that may run is replayed, and a read of the dispatcher is made again with the
issue of the command. -/
def State.replay (s : State) (k count : Nat) (st : Stall) : State :=
  let s := s.updCmd k count (fun y => { y with stalls := y.stalls.filter (fun t => t != st) })
  if st.dispatch then
    match s.cmdAt k count with
    | none => s
    | some x => s.issue { ctx := Fin.ofNat 16 (k / 64), ring := Fin.ofNat 64 k, count := BitVec.ofNat 32 count } x.opcode engineOf
  else (s.goOn k count (some (st.unit, st.src))).keepSpent k count st

/-- The units of a stalled command that have not ended run again, each from its restart point (R348). -/
def State.rerun (s : State) (k count : Nat) : State :=
  match s.cmdAt k count with
  | none => s
  | some x =>
    if x.phase ≠ .stalled then s
    else
      let s := (s.updCmd k count (fun y => { y with stalls := [] })).goOn k count none
      x.stalls.foldl (fun s st => s.keepSpent k count st) s

/-- Commands that have yielded and may continue do so, once nothing of theirs stalls (R109, R343; log entry 121). -/
def State.continueYielded (s : State) : State :=
  let hits := s.issuedCmds.filter (fun e => e.2.yielded != .no && e.2.phase == .stalled && e.2.stalls == [])
  hits.foldl (fun s e => s.goOn e.1 e.2.count none) s

/-! ### Where a stall stands -/

/-- A stall of a command's unit or of its dispatch, of a ring's completion record, or of its fetch (R342). -/
inductive StallAt where
  | unit (x : Cmd) (st : Stall)
  | compl (x : Cmd) (st : Stall)
  | fetch (st : Stall)
  deriving DecidableEq, Repr

def StallAt.stall : StallAt → Stall
  | .unit _ st => st
  | .compl _ st => st
  | .fetch st => st

/-- The stall that an event names: a unit of a fetched command; else its completion record; else, for the record that
HEAD names, its fetch. -/
def State.stallAt (s : State) (id : CmdId) (unit : Nat) : Option StallAt :=
  let k := CmdKey id
  match s.cmd id with
  | some x => match x.stalls.find? (fun st => st.unit == unit) with
    | some st => some (.unit x st)
    | none => match (s.ring k).complStall with
      | some st => if st.unit = x.count then some (.compl x st) else none
      | none => none
  | none => if s.rd F.ctxRingStatus_HEAD k = id.count.toNat then (s.ring k).fetchStall.map .fetch else none

/-- The stall is over. -/
def State.unstall (s : State) (k : Nat) (a : StallAt) : State :=
  match a with
  | .unit x st => s.replay k x.count st
  | .compl _ _ => s.setRing k { s.ring k with complStall := none }
  | .fetch _ => s.setRing k { s.ring k with fetchStall := none }

/-- The fault becomes fatal for a cause (R341, R342); the unit of a context that is being disabled is abandoned (R350). -/
def State.failAt (s : State) (k : Nat) (a : StallAt) (cause : Nat) : State :=
  if s.ctxState (k / 64) = Ctx.disabling then s.unstall k a
  else match a with
  | .unit x st => s.failStall k x st cause
  | .compl _ _ => s.failCompl k cause
  | .fetch _ => s.failFetch k cause

/-- The context's faults are being resolved: it is not set aside. -/
def State.resolves (s : State) (c : Nat) : Bool := !s.ctxHeld c

/-! ### COW, LOAN and MIGRATE (R337 to R339) -/

/-- COW_RESOLVE (R337). -/
def execCowResolve (id : CmdId) (unit : BitVec 32) (s : State) : Host.Outcome State Fault Refusal :=
  let c := id.ctx.val
  .next (match s.stallAt id unit.toNat with
    | some a =>
      if a.stall.kind = .cow ∧ s.resolves c then
        match s.resolveCow c a.stall with
        | (.replay, s) => s.unstall (CmdKey id) a
        | (.noFrame, s) => s.failAt (CmdKey id) a Cause.noFrame
      else s
    | none => s)

/-- LOAN_RESOLVE (R338): the entry is made valid once its window is bound; a window that is not is a refusal. -/
def execLoanResolve (id : CmdId) (unit : BitVec 32) (granted : Bool) (s : State) : Host.Outcome State Fault Refusal :=
  let c := id.ctx.val
  .next (match s.stallAt id unit.toNat with
    | some a =>
      let st := s.rd F.netLoanWin_STATE ((s.stallWindow a.stall).getD 16)
      if a.stall.kind = .loan ∧ s.resolves c then
        if granted ∧ st = 2 then (s.resolveLoan c a.stall).unstall (CmdKey id) a
        else if !granted ∧ (st = 0 ∨ st = 3) then s.failAt (CmdKey id) a Cause.loanLost
        else s
      else s
    | none => s)

/-- MIGRATE_POLL (R339): the die bar reads the entry again, and the unit replays once it is valid. -/
def execMigratePoll (id : CmdId) (unit : BitVec 32) (s : State) : Host.Outcome State Fault Refusal :=
  let c := id.ctx.val
  .next (match s.stallAt id unit.toNat with
    | some a =>
      if a.stall.kind = .migrate ∧ s.resolves c then
        let (gone, s) := s.checkGran a.stall.pte
        if !gone ∧ Pte.valid (s.peek64 a.stall.pte) then (s.count F.ctxFaultCounts_MIGRATE c 1).unstall (CmdKey id) a else s
      else s
    | none => s)

/-- MIGRATE_TIMEOUT (R339). -/
def execMigrateTimeout (id : CmdId) (unit : BitVec 32) (s : State) : Host.Outcome State Fault Refusal :=
  let c := id.ctx.val
  .next (match s.stallAt id unit.toNat with
    | some a =>
      if a.stall.kind = .migrate ∧ s.resolves c ∧ s.migrateSpent a.stall ≥ s.rd F.ctxFaultCfg_MIGRATE_WAIT c * 1000000 then
        s.failAt (CmdKey id) a Cause.migrateTimeout
      else s
    | none => s)

/-! ### KV walks and KV copy-on-write (R183, R194) -/

/-- KV_WALK_RESTART (R183): the walks of a sequence that have waited out their delay begin again. -/
def execKvWalkRestart (id : CmdId) (seq : BitVec 16) (s : State) : Host.Outcome State Fault Refusal :=
  let k := CmdKey id
  .next (match s.cmd id with
    | some x =>
      if s.resolves id.ctx.val then
        (x.stalls.filter (fun st => st.kind == .kvWalk && st.va == seq.toNat && decide (s.ivl - st.since ≥ st.entry))).foldl
          (fun s st => s.replay k x.count st) s
      else s
    | none => s)

/-- The pool and the page tables that a command works with (R186, R187). -/
def Cmd.kvPool (x : Cmd) : Pool × List Seq :=
  if x.opcode = 0x0052 then let (_, _, p, qs) := appendParts x; (p, qs)
  else
    let tb := (x.tables[5]?).getD []
    (Pool.parse ((x.tables[4]?).getD []), seqTable tb (tb.length / 32))

/-- The work of the owner's die bar on a KV copy-on-write fault. A resolvable fault on its own accesses that it can
resolve itself is resolved; another leaves the writer stalled. -/
def State.ownerCow (c : Nat) (p : Pool) (pt pte entry : Nat) : Nat → State → Option (KvCowEnd × Acc) × State
  | 0, s => (none, s)
  | f + 1, s =>
    let (r, a) := (uKvCow c p pt pte entry).run (s.acc c (Unit.die p.die) {})
    match a.fault with
    | none => (some (r, a), a.s)
    | some e => match e.why with
      | .fatal _ => (some (.replay, a), a.s)
      | .stall .cow =>
        let (w, s) := a.s.resolveCow c (stallOf a.s 0 (Unit.die p.die) .cow e false)
        (match w with
         | .replay => State.ownerCow c p pt pte entry f s
         | .noFrame => (some (.replay, { a with fault := some { e with why := .fatal Cause.noFrame } }), s))
      | .stall kind => (none, a.s.onStall (stallOf a.s 0 (Unit.die p.die) kind e false))

/-- KV_COW_RESOLVE (R194): a fatal fault of the owner's accesses fails the unit, an empty free stack its sequence. -/
def execKvCowResolve (id : CmdId) (unit : BitVec 32) (s : State) : Host.Outcome State Fault Refusal :=
  let c := id.ctx.val
  let k := CmdKey id
  .next (match s.stallAt id unit.toNat with
    | some (.unit x st) =>
      if st.kind = .kvCow ∧ s.resolves c then
        let (p, qs) := x.kvPool
        let i := st.va / 2 ^ 32
        let pt := ((qs[i]?).map (·.pt)).getD 0
        match State.ownerCow c p pt st.pte st.entry 8 s with
        | (none, s) => s
        | (some (r, a), s) =>
          match a.fault, r with
          | some f, _ => (match f.why with
            | .fatal cause => s.failStall k x st cause
            | .stall _ => s)
          | none, .exhausted =>
            -- The owner's die bar raises it (R212).
            let (_, b) := (uFailSeq c st.src (Path.bar p.die) i St.faultTranslation 0x0804 Sev.error (st.va % 2 ^ 32) p.pages).run
              (s.acc c (Unit.die p.die) {})
            (b.s.updCmd k x.count (fun y => { y with aux := y.aux ++ b.note })).replay k x.count st
          | none, .replay =>
            (s.updCmd k x.count (fun y => { y with
              lossUnit := if y.lost = [] ∧ a.lost ≠ [] then st.src else y.lossUnit,
              lost := joinLost y.lost a.lost })).replay k x.count st
      else s
    | _ => s)

/-! ### Replies of a lender to accesses (R469) -/

/-- The physical address in the loan range of an offset of a lender's region. -/
def State.loanAddr (s : State) (conn off : Nat) : Option Nat :=
  ((List.range 16).find? (fun w => s.rd F.netLoanWin_STATE w == 2 && s.rd F.netLoanWin_CONN w == conn &&
    decide (s.rd F.netLoanWin_OFFSET_GIB w * 2 ^ 30 ≤ off ∧
      off < (s.rd F.netLoanWin_OFFSET_GIB w + s.rd F.netLoanWin_SIZE_GIB w) * 2 ^ 30))).map
    (fun w => 0x0A0000000000 + w * 2 ^ 36 + (off - s.rd F.netLoanWin_OFFSET_GIB w * 2 ^ 30))

/-- A granule that has arrived, or that the lender has lost, reaches every read that waits for it. -/
def State.loanArrived (s : State) (pa : Nat) (data : Option (List Byte)) : State :=
  let waits (st : Stall) : Bool := st.kind == .loanData && st.pte == pa
  let key := if data.isSome then pa else pa + 1
  let hits := s.rings.flatMap (fun e => e.2.cmds.flatMap (fun x =>
    (x.stalls.filter waits).map (fun st => (e.1, x.count, st))))
  let add (l : Loans) : Loans := { bytes := l.bytes.writeN pa (data.getD []), got := key :: l.got }
  let keep (ls : Tbl Loans) (st : Stall) : Tbl Loans :=
    let i := if st.dispatch then 0 else st.unit + 1
    put ls i (add (lookD ls i {}))
  let s := s.mapCmds (fun _ x => { x with loans := (x.stalls.filter waits).foldl keep x.loans })
  let s := { s with rings := s.rings.map (fun e =>
    if (e.2.fetchStall.map waits).getD false then (e.1, { e.2 with fetchStall := none, loan := add e.2.loan }) else e) }
  hits.foldl (fun s h => s.replay h.1 h.2.1 h.2.2) s

/-- A write acknowledged, or lost: the command that made it is marked (R303, R372). -/
def State.loanWritten (s : State) (pa : Nat) (lost : Bool) : State :=
  s.mapCmds (fun _ x =>
    if x.loanOut.contains pa then
      { x with loanOut := x.loanOut.erase pa, dataLoss := x.dataLoss || lost,
               status := if lost ∧ x.phase = .ended ∧ (x.status = St.ok ∨ x.status = St.okEmpty) then St.dataLoss else x.status }
    else x)

/-- A reply to a granule access: data of a read, an empty acknowledgement of a write, or none for a granule that the
lender has lost. -/
def State.loanAnswer (s : State) (pa : Nat) (data : Option (List Byte)) : State :=
  match data with
  | some [] => s.loanWritten pa false
  | some b => s.loanArrived pa (some b)
  | none => (s.loanWritten pa true).loanArrived pa none

/-- LOAN_ACCESS_REPLY (R469). -/
def execLoanAccessReply (hdr : GctHdr) (offset : Word) (data : Option (List Byte)) (s : State) :
    Host.Outcome State Fault Refusal :=
  .next (if !s.netUp then s else match s.receive hdr true with
    | none => s
    | some s => match s.loanAddr hdr.conn.val offset.toNat with
      | some pa => s.loanAnswer pa data
      | none => s)

end Sys2Proof.Machine
end

