-- ==== Sys2Proof/Machine/Ctx.lean ====
section
/-!
DEFINITION. Contexts (R326, R334, R343 to R350): pre-emption with SAVE and with EVICT, resumption, invalidation, and the
disable of a context with work in flight.
-/
namespace Sys2Proof.Machine

/-! ### Who may act (R353, R484) -/

/-- A write of CTX_CTRL by its source (R353): PF0, or a job controller whose rights name the context and CTX_CTRL; anyone
else's is ignored. -/
def State.control (s : State) (src : CtxSrc) (c : Nat) (f : State → State) : State :=
  match src with
  | .fn v => if v = .pf0 then f s else s
  | .controller h => match s.fromController h with
    | none => s
    | some (k, s) => if (s.ctrlRights k).testBit c && (s.ctrlRights k).testBit 16 then f s else s

/-- A notice of a context (R362). -/
def ctxNtc (code sev c a1 a2 a3 : Nat) : Ntc :=
  { code := code, sev := sev, ctx := some c, data := Unit.hub, ctrl := Path.pup, a1 := a1, a2 := a2, a3 := a3 }

/-- The ring keys of a context that hold something. -/
def State.ctxRings (s : State) (c : Nat) : List Nat := (s.rings.map (·.1)).filter (fun k => k / 64 == c)

/-- The fetched commands of a context, each with its ring. -/
def State.ctxCmds (s : State) (c : Nat) : List (Nat × Cmd) :=
  (s.ctxRings c).flatMap (fun k => (s.ring k).cmds.map (fun x => (k, x)))

/-- The stalls of a context's units, and of its dispatchers on completion records and on the records they fetch. -/
def State.ctxStalls (s : State) (c : Nat) : List Stall :=
  (s.ctxCmds c).flatMap (fun e => e.2.stalls) ++
  (s.ctxRings c).flatMap (fun k => (s.ring k).complStall.toList ++ (s.ring k).fetchStall.toList)

/-- The dispatchers' stalls of a context changed. -/
def State.mapDispatch (s : State) (c : Nat) (f : Stall → Option Stall) : State :=
  { s with rings := s.rings.map (fun e =>
      if e.1 / 64 = c then (e.1, { e.2 with complStall := e.2.complStall.bind f, fetchStall := e.2.fetchStall.bind f }) else e) }

/-- A stall on a resolvable fault of R335; a KV copy-on-write fault is one. -/
def Stall.resolvable (st : Stall) : Bool := st.kind == .cow || st.kind == .loan || st.kind == .migrate || st.kind == .kvCow

/-- A fault whose entry a die bar is writing: that runs to its end (R346, R350). -/
def Stall.fixing (st : Stall) : Bool := st.kind == .cow || st.kind == .loan || st.kind == .kvCow

/-- A stall that ends by itself and that a pre-emption waits for (R346). -/
def Stall.begun (st : Stall) : Bool := st.fixing || st.kind == .loanData

/-- The units of a context stalled on resolvable faults (R354). -/
def State.stalledUnits (s : State) (c : Nat) : Nat := ((s.ctxStalls c).filter Stall.resolvable).length

/-! ### Pre-emption (R344 to R347, R617) -/

/-- The save area does not lie wholly in the stack range, or is not there: SAVE acts as EVICT (R356). -/
def State.saveUnusable (s : State) (c : Nat) : Bool :=
  let base := s.rd F.ctxSave_BASE c * 65536
  base == 0 || !s.inStackRange base (s.rd F.ctxSave_SIZE c * 2 ^ 20)

/-- A pre-emption begins (R344 step 1): fetch stops; a REMAP that waits for its drain stops with nothing changed and
starts again on resume (R262). -/
def State.preempt (s : State) (c : Nat) (evict : Bool) : State :=
  if s.ctxState c ≠ Ctx.idle ∧ s.ctxState c ≠ Ctx.active then s
  else
    let s := s.wr F.ctxState_STATE c Ctx.preempting
    let s := s.setCtx c { s.ctx c with evict := evict || s.saveUnusable c, askedAt := s.ivl }
    s.mapCmds (fun k x =>
      if k / 64 = c ∧ x.opcode = 0x00A1 ∧ x.phase = .waiting then { x with phase := .fetched } else x)

/-- CTX_PREEMPT (R344). -/
def execCtxPreempt (src : CtxSrc) (ctx : Fin 16) (s : State) : Host.Outcome State Fault Refusal :=
  .next (s.control src ctx.val (fun s => s.preempt ctx.val false))

/-- CTX_EVICT (R345). -/
def execCtxEvict (src : CtxSrc) (ctx : Fin 16) (s : State) : Host.Outcome State Fault Refusal :=
  .next (s.control src ctx.val (fun s => s.preempt ctx.val true))

/-- Every unit of the context is at a restart point and no resolution that has begun is unfinished. -/
def State.preemptReady (s : State) (c : Nat) : Bool :=
  (s.ctxStalls c).all (fun st => !st.begun) && (s.ctxCmds c).all (fun e => !delays (s.ctx c).evict e.2)

/-- A fetched command cut short with a status: the flags and the counts of its completed work stay, and its lost data
is told (R345, R349). -/
def State.cutShort (s : State) (k : Nat) (x : Cmd) (status : Nat) : State :=
  if x.phase = .fetched then
    s.updCmd k x.count (fun y => { y.endWith status s.time with unit := Unit.die (s.fetchDie k), start := s.time })
  else
    let s := (s.lossNotice k x).advanceSeeds k x
    let (u, s) := s.lastUnit x
    s.updCmd k x.count (fun y => { y.endWith status s.time with unit := u, lossTold := true })

/-- A command that has not ended completes PREEMPTED; a collective leaves its group BROKEN (R466). -/
def State.evictCmd (s : State) (k : Nat) (x : Cmd) : State :=
  if x.phase = .ended then s
  else
    let s' := s.cutShort k x St.preempted
    if (s.groupCmds (k / 64) x.collGroup).contains (k, x.count) then s'.breakGroup (k / 64) x.collGroup else s'

/-- Every fetched command of the context completes PREEMPTED, or with its own status when it has ended; the records are
written. Answers how many completed PREEMPTED. -/
def State.evictAll (s : State) (c : Nat) : Nat × State :=
  let hits := s.ctxCmds c
  let s := hits.foldl (fun s e => s.evictCmd e.1 e.2) (s.mapDispatch c (fun _ => none))
  let s := (s.ctxCmds c).foldl (fun s e =>
    if e.2.loanOut = [] ∧ (s.ring e.1).complStall.isNone then s.complete e.1 e.2 else s) s
  ((hits.filter (fun e => e.2.phase != .ended)).length, s)

/-- The bytes that a save needs, in a form that the device alone interprets: a free number, which the default area
always holds (R347). -/
def saveNeed (v : Nat) : Nat := 64 + v % (16 * 2 ^ 20 - 63)

/-- Step 3 under SAVE: the header and the saved state are written; the migration clocks stop (R346, R347). -/
def State.saveCtx (s : State) (c need : Nat) : State :=
  let base := s.rd F.ctxSave_BASE c * 65536
  let pending := ((s.ctxStalls c).filter (fun st => st.kind == .migrate)).length
  let hdr := natLE 4 0x56415347 ++ natLE 2 1 ++ natLE 2 pending ++ natLE 8 need ++ natLE 8 s.time ++ List.replicate 40 0
  let (body, s) := s.freeBytes (need - 64)
  let s := (s.writePhys base (hdr ++ body)).2
  let stop (st : Stall) : Stall := { st with spent := s.migrateSpent st, since := s.ivl }
  (s.mapCmds (fun k x => if k / 64 = c then { x with stalls := x.stalls.map stop } else x)).mapDispatch c (fun st => some (stop st))

/-- Steps 4 and 5 of R344. -/
def State.setAside (s : State) (c mode saved : Nat) : State :=
  let s := (s.wr F.ctxState_STATE c Ctx.preempted).suspendBeads c
  s.raise (ctxNtc 0x0404 Sev.info c mode saved ((s.ivl - (s.ctx c).askedAt) / 1000 % 2 ^ 32))

/-- The end of an eviction, once the record of every command is written. -/
def State.endEvict (s : State) (c : Nat) : State := if s.ctxCmds c = [] then s.setAside c 1 0 else s

/-- PREEMPT_COMPLETE (R344). A save that exceeds the area completes the commands PREEMPTED and raises SAVE_OVERFLOW
(R347). -/
def execPreemptComplete (ctx : Fin 16) (s : State) : Host.Outcome State Fault Refusal :=
  let c := ctx.val
  .next (
    if s.ctxState c ≠ Ctx.preempting ∨ !s.preemptReady c then s
    else if (s.ctx c).evict then ((s.evictAll c).2).endEvict c
    else
      let (v, s) := s.fresh
      let need := saveNeed v.toNat
      if need > s.rd F.ctxSave_SIZE c * 2 ^ 20 then
        let s := s.setCtx c { s.ctx c with evict := true }
        let (n, s) := s.evictAll c
        (s.raise (ctxNtc 0x0406 Sev.warn c (need % 2 ^ 32) (s.rd F.ctxSave_SIZE c) n)).endEvict c
      else (s.saveCtx c need).setAside c 0 (s.ctxCmds c).length)

/-! ### Resumption (R348) -/

/-- RESUME of a PREEMPTED context begins: step 1 discards every translation of the context. -/
def State.resume (s : State) (c : Nat) : State :=
  if s.ctxState c ≠ Ctx.preempted then s
  else (((s.wr F.ctxState_STATE c Ctx.resuming).setCtx c { s.ctx c with askedAt := s.ivl }).dropVids c).invalidate c 0 0

/-- CTX_RESUME (R348). -/
def execCtxResume (src : CtxSrc) (ctx : Fin 16) (s : State) : Host.Outcome State Fault Refusal :=
  .next (s.control src ctx.val (fun s => s.resume ctx.val))

/-- A dispatcher's stall on a migration goes on with the time it has spent when the entry still stands; any other is
met anew. -/
def State.keepDispatch (s : State) (st : Stall) : Option Stall :=
  if st.kind = .migrate ∧ s.peek64 st.pte = st.entry then some { st with since := s.ivl } else none

/-- The dispatchers' stalls of a context taken up again. -/
def State.redispatch (s : State) (c : Nat) : State :=
  (s.mapDispatch c s.keepDispatch).mapCmds (fun k x =>
    if k / 64 = c ∧ x.phase = .fetched then { x with stalls := x.stalls.filterMap s.keepDispatch } else x)

/-- Pending faults that failed at their replay. -/
def State.failedOf (s : State) (old : List (Nat × Nat × Stall)) : Nat :=
  (old.filter (fun e => match s.cmdAt e.1 e.2.1 with
    | some x => x.fatal.isSome && !x.doneUnits.contains e.2.2.unit
    | none => false)).length

/-- The commands of a context that wait on an opening connection are judged again (R620). -/
def State.startHeld (s : State) (c : Nat) : State :=
  (s.ctxCmds c).foldl (fun s e =>
    if e.2.heldOnConn then
      match engineOf e.2.opcode with
      | some g => g.start s e.1 e.2
      | none => s
    else s) s

/-- Steps 2 to 5 of R348. -/
def State.endResume (s : State) (c : Nat) : State :=
  let pend (s : State) : List (Nat × Nat × Stall) := (s.ctxCmds c).flatMap (fun e =>
    (e.2.stalls.filter (fun st => st.kind == .migrate)).map (fun st => (e.1, e.2.count, st)))
  let old := pend s
  let n := ((s.ctxStalls c).filter (fun st => st.kind == .migrate)).length
  let s := s.redispatch c
  let s := (s.ctxCmds c).foldl (fun s e => s.rerun e.1 e.2.count) s
  let failed := s.failedOf old
  let s := s.wr F.ctxState_STATE c (if s.ctxCmds c = [] then Ctx.idle else Ctx.active)
  let s := ((s.resumeBeads c).release.retime).armAll.stepResume c
  let qs := ((s.ctxCmds c).filter (fun e => e.2.opcode == 0x0080 && e.2.phase == .waiting)).map (fun e => e.2.media.queue)
  let s := (qs.eraseDups.foldl State.feedLive s).startHeld c
  s.raise (ctxNtc 0x0405 Sev.info c n failed ((s.ivl - (s.ctx c).askedAt) / 1000 % 2 ^ 32))

/-- RESUME_COMPLETE (R348). -/
def execResumeComplete (ctx : Fin 16) (s : State) : Host.Outcome State Fault Refusal :=
  .next (if s.ctxState ctx.val = Ctx.resuming then s.endResume ctx.val else s)

/-! ### Invalidation (R334, R355) -/

/-- An invalidation begins: its range is kept, and CTX_STATE shows that it is under way. -/
def State.startInval (s : State) (c vpn count : Nat) : State :=
  (s.wr F.ctxState_INVAL_BUSY c 1).setCtx c { s.ctx c with inval := some (vpn, count) }

/-- CTX_INVALIDATE (R355): a write while one is in progress has no effect. -/
def execCtxInvalidate (fn : Fn) (ctx : Fin 16) (vpn : BitVec 36) (count : BitVec 20) (s : State) :
    Host.Outcome State Fault Refusal :=
  .next (if Fn.reaches fn ctx.val ∧ !s.flag F.ctxState_INVAL_BUSY ctx.val then s.startInval ctx.val vpn.toNat count.toNat else s)

/-- An invalidation is done: no cache holds a translation of its range (R334). -/
def State.endInval (s : State) (c : Nat) : State :=
  let r := (s.ctx c).inval.getD (0, 0)
  ((s.invalidate c r.1 r.2).wr F.ctxState_INVAL_BUSY c 0).setCtx c { s.ctx c with inval := none }

/-- INVALIDATION_COMPLETE (R334). -/
def execInvalidationComplete (ctx : Fin 16) (s : State) : Host.Outcome State Fault Refusal :=
  .next (if s.flag F.ctxState_INVAL_BUSY ctx.val then s.endInval ctx.val else s)

/-! ### Disable (R349, R350) -/

/-- A disable begins: fetch stops, nothing more issues, and units that stall are abandoned, but for those whose
resolution has begun. During an activation pause it is held (R565). -/
def State.disable (s : State) (c : Nat) : State :=
  if s.ctxState c = Ctx.disabling ∨ s.dev = Dev.off then s
  else if s.dev = Dev.paused then
    { s with sec := { s.sec with heldDisable := (s.sec.heldDisable ++ [c]).eraseDups } }
  else
    let s := (s.wr F.ctxState_STATE c Ctx.disabling).setCtx c { s.ctx c with disabledAt := s.ivl, abandoned := 0 }
    let s := s.mapCmds (fun k x =>
      if k / 64 = c then { x with stalls := x.stalls.filter Stall.fixing, armed := false, since := none } else x)
    s.mapDispatch c (fun st => if st.fixing then some st else none)

/-- VF_FLR (R349). -/
def execVfFlr (k : Fin 16) (s : State) : Host.Outcome State Fault Refusal := .next (s.disable k.val)

/-- VF_DISABLE (R349). -/
def execVfDisable (s : State) : Host.Outcome State Fault Refusal := .next ((List.range 16).foldl State.disable s)

/-- DISABLE_UNIT_DEADLINE (R349): the units still running at 20 ms are abandoned. -/
def execDisableUnitDeadline (ctx : Fin 16) (s : State) : Host.Outcome State Fault Refusal :=
  let c := ctx.val
  .next (
    if s.ctxState c = Ctx.disabling ∧ s.ivl - (s.ctx c).disabledAt ≥ 20000000 then
      let left := ((s.ctxCmds c).map (fun e => e.2.stalls.length)).sum
      let s := (s.mapCmds (fun k x => if k / 64 = c then { x with stalls := [] } else x)).mapDispatch c (fun _ => none)
      s.setCtx c { s.ctx c with abandoned := (s.ctx c).abandoned + left }
    else s)

/-- A command of a disabled context completes ABORTED_DISABLE; its record is dropped when its write faults. -/
def State.abortCmd (s : State) (k : Nat) (x : Cmd) : State :=
  let s := s.cutShort k { x with loanOut := [] } St.abortedDisable
  match s.cmdAt k x.count with
  | none => s
  | some y =>
    if y.complAddr = 0 then s.writeCompletion k y none
    else match s.xlat { cache := tlbOf (Unit.die (s.fetchDie k)), ctx := k / 64, root := s.root (k / 64) } y.complAddr .write with
      | (.ok pa _, s) => s.writeCompletion k y (some pa)
      | (_, s) => s.dropCmd k y.count

/-- The connections of a context that are opening or open. -/
def State.ctxConns (s : State) (c : Nat) : List Nat :=
  (List.range 4096).filter (fun n => s.connKind n != 0 && s.connCtx n == c &&
    (s.connState n == ConnSt.opening || s.connState n == ConnSt.opened))

/-- A connection of a disabled context is closed: its peer hears CLOSE, and here it is lost (R349, R455). -/
def State.dropConn (s : State) (n : Nat) : State :=
  (if s.connKind n = Kind.gct then s.sendPlain n .close else s).loseConn n 3

/-- The copy `i` of register `r` belongs to context `c` (R572). -/
def ctxOwns (c r i : Nat) : Bool :=
  if r = Reg.tilSrngSeed then i / 48 == c
  else if r = Reg.ctxPeg || (Reg.ctxRingBase ≤ r && r ≤ Reg.ctxRingCtrl) then i / 64 == c
  else ((2 ≤ r && r ≤ 12 && r != 4) || (21 ≤ r && r ≤ 30) || (33 ≤ r && r ≤ 37)) && i == c

/-- The registers of a context at their reset values, sticky fields apart (R349 step 5). -/
def State.resetCtxRegs (s : State) (c : Nat) : State :=
  s.regs.foldl (fun s e => if ctxOwns c (e.1 / 1048576) (e.1 % 1048576) then s.resetReg (e.1 / 1048576) (e.1 % 1048576) else s) s

/-- What a context holds beside its registers is gone: its groups, its brace set, its summaries, its rings, and the MSI-X
table of its function (R13). -/
def State.clearCtx (s : State) (c : Nat) : State :=
  { s.dropVids c with
    groups := s.groups.filter (fun g => g.ctx != c), brace := { s.brace with sets := del s.brace.sets c },
    slots := s.slots.filter (fun e => e.1 / 64 / 48 != c), rings := s.rings.filter (fun e => e.1 / 64 != c),
    msix := s.msix.filter (fun e => e.1 / 256 != 16 + c), ctxs := del s.ctxs c, net := { s.net with joins := s.net.joins.filter (fun j => s.connCtx j.1 != c) } }

/-- The registers that a reset of PF0 resets, and nothing else of PF0's (R349): configuration space, the MSI-X table, the
mailbox, HUB_WINDOW and MEM_HOST_BASE. The result of a mailbox command in progress is lost (R576). -/
def State.resetPf0 (s : State) : State :=
  let s := (List.range 8).foldl (fun s i => s.resetReg Reg.hubMboxArg i) s
  let s := [Reg.hubMboxCmd, Reg.hubMboxStatus, Reg.hubWindow, Reg.memHostBase].foldl (fun s r => s.resetReg r 0) s
  { s with msix := s.msix.filter (fun e => e.1 ≥ 4096), mbox := s.mbox.map (fun j => { j with lost := true }) }

/-- The reset of PF0 comes to its own registers once the disable of every context has ended (R349). -/
def State.endPf0 (s : State) : State :=
  if s.pf0Reset && s.sec.heldDisable == [] && (List.range 16).all (fun c => s.ctxState c != Ctx.disabling) then
    { s with pf0Reset := false }.resetPf0
  else s

/-- Steps 3 to 6 of R349. -/
def State.endDisable (s : State) (c : Nat) : State :=
  let x := s.ctx c
  let cmds := s.ctxCmds c
  let s := cmds.foldl (fun s e => s.abortCmd e.1 e.2) s
  let s := s.breakBeads c
  let s := (s.ctxConns c).foldl State.dropConn s
  let s := ((s.invalidate c 0 0).clearCtx c).resetCtxRegs c
  let s := s.raise { ctxNtc 0x0407 Sev.info c cmds.length x.abandoned ((s.ivl - x.disabledAt) / 1000 % 2 ^ 32) with pf0Only := true }
  s.endPf0

/-- DISABLE_COMPLETE (R349): once every unit has ended or is abandoned. -/
def execDisableComplete (ctx : Fin 16) (s : State) : Host.Outcome State Fault Refusal :=
  .next (if s.ctxState ctx.val = Ctx.disabling ∧ s.ctxStalls ctx.val = [] then s.endDisable ctx.val
         else s)

/-- The PCIe functions are reset, and nothing else (R349, R476): every context is disabled, and then PF0's own registers
are reset. -/
def State.resetFunctions (s : State) : State := { (List.range 16).foldl State.disable s with pf0Reset := true }.endPf0

/-- PF0_FLR (R349). -/
def execPf0Flr (s : State) : Host.Outcome State Fault Refusal := .next (if s.dev < Dev.rom then s else s.resetFunctions)

end Sys2Proof.Machine
end

