-- ==== Sys2Proof/Machine/NetEv.lean ====
section
/-!
DEFINITION. The events of connections (R450, R453 to R458) and of the time source (R451), and what the device does when
no command waits.
-/
namespace Sys2Proof.Machine

/-! ### Opening (R453, R457, R458) -/

/-- The version that the two sides agree on, by interface. -/
def State.agreed (s : State) (ranges : List Nat) : List Nat :=
  (List.range 6).map (fun i => common (s.ownRange i) (rangeOf (ranges.getD i 0)))

/-- NET_VERSION_LIMITED for each interface that the connection lacks (R458, R473). -/
def State.tellLimited (s : State) (conn : Nat) (ranges : List Nat) : State :=
  ((s.agreed ranges).zipIdx.filter (fun v => v.1 == 0 && v.2 != 0)).foldl (fun s v =>
    let r := rangeOf (ranges.getD v.2 0)
    s.raise (netNtc 0x0C05 Sev.info (some (s.connCtx conn)) conn v.2 (r.1 * 16 + r.2))) s

/-- Both sides have met: the connection is OPEN at the agreed versions, the peer hears CAPS once more, and commands that
wait for it go on. -/
def State.acceptCaps (s : State) (conn : Nat) (epoch : Nat) (ranges : List Nat) : State :=
  let vs := s.agreed ranges
  if vs.headD 0 = 0 then s.failConn conn 1 (rangeOf (ranges.headD 0)).2
  else
    let word := (vs.zipIdx.map (fun v => v.1 <<< (4 * v.2))).sum
    let s := s.connWrite conn ConnSt.opened word (s.connEpoch conn)
    let s := s.setConn conn { s.conn conn with
      peerEpoch := epoch, heardAt := s.ivl, sentAt := s.ivl }
    ((s.sendPlain conn (s.capsMsg conn)).tellLimited conn ranges).startHeld (s.connCtx conn)

/-- The CAPS comes from the peer that the entry names: its connection, and one of its addresses. -/
def State.capsFits (s : State) (conn : Nat) (caps : Caps) : Bool :=
  s.connKind conn == Kind.gct && caps.peerConn.toNat == conn && s.connPeer conn == caps.conn.toNat &&
  caps.addrs.any (fun a => a.1 == s.connV6 conn &&
    (if a.1 then a.2.toNat == s.connIp conn else a.2.toNat % 2 ^ 32 == s.connIp conn % 2 ^ 32))

/-- GCT_CAPS (R453, R455): an opening that matches is accepted; on an open connection it is only heard, or with a new epoch
it is a loss. Setup waits while the core with that duty is being restarted (R524). -/
def execGctCaps (conn : Fin 4096) (caps : Caps) (s : State) : Host.Outcome State Fault Refusal :=
  let n := conn.val
  .next (
    if !s.netUp ∨ !s.capsFits n caps then s
    else if s.connState n = ConnSt.opening then
      if s.dutyHeld 2 then s else s.acceptCaps n caps.epoch.toNat (caps.ranges.map (·.toNat))
    else if s.connState n = ConnSt.opened then
      if caps.epoch.toNat = (s.conn n).peerEpoch then
        s.setConn n { s.conn n with heardAt := s.ivl }
      else s.loseConn n 2
    else s)

/-- A GCT connection that is opening. -/
def State.gctOpening (s : State) (c : Nat) : Bool := s.connKind c == Kind.gct && s.connState c == ConnSt.opening

/-- CAPS_TIMER (R453): CAPS every 1 ms while the connection opens. -/
def execCapsTimer (conn : Fin 4096) (s : State) : Host.Outcome State Fault Refusal :=
  let n := conn.val
  .next (
    if s.netUp ∧ s.gctOpening n ∧ !s.dutyHeld 2 ∧ s.ivl - (s.conn n).sentAt ≥ 1000000 then
      (s.setConn n { s.conn n with sentAt := s.ivl }).sendPlain n (s.capsMsg n)
    else s)

/-- OPEN_TIMEOUT (R453). -/
def execOpenTimeout (conn : Fin 4096) (s : State) : Host.Outcome State Fault Refusal :=
  .next (if s.gctOpening conn.val ∧ s.ivl - (s.conn conn.val).openedAt ≥ 1000000000 then s.failConn conn.val 0 0 else s)

/-! ### Acknowledgements, resends and rate (R450, R454) -/

/-- The round trip smoothed with a new sample: a free number between the two (log entry 1). -/
def State.smooth (s : State) (old sample : Nat) : Nat × State :=
  if old = 0 then (sample, s)
  else
    let (v, s) := s.fresh
    let lo := min old sample
    (lo + v.toNat % (max old sample - lo + 1), s)

/-- GCT_ACK (R454): packets acknowledged cumulatively and selectively are retired; a mark is fed back to the rate. -/
def execGctAck (conn : Fin 4096) (upto : BitVec 32) (sel : List (BitVec 32)) (ce : Bool) (s : State) :
    Host.Outcome State Fault Refusal :=
  let n := conn.val
  .next (
    if !s.netUp ∨ !s.gctOpen n then s
    else
      let x := s.conn n
      let acked (u : Unacked) : Bool := !seqBefore upto.toNat u.seq || (sel.map (·.toNat)).contains u.seq
      let done := x.unacked.filter acked
      let (rtt, s) := match done.getLast? with
        | some u => s.smooth x.rtt (s.ivl - u.sentAt)
        | none => (x.rtt, s)
      s.setConn n { x with
        unacked := x.unacked.filter (fun u => !acked u), rtt := rtt, heardAt := s.ivl,
        acked := x.acked + done.length, marked := x.marked + (if ce then done.length else 0) })

/-- GCT_RESEND_TIMER (R454): a packet is resent when its interval has passed, and the interval doubles. -/
def execGctResendTimer (conn : Fin 4096) (seq : BitVec 32) (s : State) : Host.Outcome State Fault Refusal :=
  let n := conn.val
  .next (
    if s.netUp ∧ s.gctOpen n ∧
        (s.conn n).unacked.any (fun u => u.seq == seq.toNat && decide (s.ivl - u.sentAt ≥ u.interval)) then
      s.resend n seq.toNat true
    else s)

/-- ECN_RECOVERY_TIMER (R450): the rate is cut by half the fraction of marked packets, or recovers by 1 % of the port
rate. -/
def execEcnRecoveryTimer (conn : Fin 4096) (s : State) : Host.Outcome State Fault Refusal :=
  let n := conn.val
  .next (
    if s.netUp ∧ s.gctOpen n then
      let x := s.conn n
      let r := if x.marked = 0 then min 1000000 (x.rate + 10000) else x.rate - x.rate * x.marked / (2 * x.acked)
      s.setConn n { x with rate := r, acked := 0, marked := 0 }
    else s)

/-! ### Loss (R455, R456) -/

/-- KEEPALIVE_TIMER (R455). A keepalive takes no number; a peer hears it as an acknowledgement (log entry 23). -/
def execKeepaliveTimer (conn : Fin 4096) (s : State) : Host.Outcome State Fault Refusal :=
  let n := conn.val
  .next (if s.netUp ∧ s.gctOpen n ∧ s.ivl - (s.conn n).sentAt ≥ 1000000 then
      (s.setConn n { s.conn n with sentAt := s.ivl }).sendPlain n .keepalive
    else s)

/-- A loss clock that started at `t` has run out: LOSS_TIMEOUT, and the duration of a HOLD whose pause the clock met. -/
def State.lossDue (s : State) (x : Conn) (t : Nat) : Bool :=
  decide (s.ivl - t ≥ s.rd F.netFabricCfg_LOSS_TIMEOUT * 1000000 + (if t ≤ x.holdEnd then x.hold else 0))

/-- CONNECTION_LOSS_TIMEOUT (R455). -/
def execConnectionLossTimeout (conn : Fin 4096) (s : State) : Host.Outcome State Fault Refusal :=
  let n := conn.val
  let x := s.conn n
  .next (
    if !s.netUp ∨ !s.gctOpen n then s
    else if s.lossDue x x.heardAt then s.loseConn n 0
    else if x.unacked.any (fun u => s.lossDue x u.firstAt) then s.loseConn n 1
    else s)

/-- GCT_CLOSE (R455): CLOSE from the peer, or an opening with a new epoch. -/
def execGctClose (conn : Fin 4096) (newEpoch : Option (BitVec 32)) (s : State) : Host.Outcome State Fault Refusal :=
  let n := conn.val
  .next (
    if !s.netUp ∨ !s.gctOpen n then s
    else match newEpoch with
      | none => s.loseConn n 2
      | some e => if e.toNat = (s.conn n).peerEpoch then s else s.loseConn n 2)

/-- GCT_HOLD (R456): the duration is added to the connection's loss clocks. HOLD exists from wire format 2. -/
def execGctHold (hdr : GctHdr) (ns : Word) (s : State) : Host.Outcome State Fault Refusal :=
  .next (if !s.netUp then s else match s.receive hdr false with
    | none => s
    | some s =>
      let n := hdr.conn.val
      if s.connVer n 0 < 2 then s else s.setConn n { s.conn n with hold := ns.toNat, holdEnd := s.ivl + ns.toNat })

/-! ### The time source (R451) -/

abbrev Ptp.freeRun : Nat := 0
abbrev Ptp.acquiring : Nat := 1
abbrev Ptp.locked : Nat := 2
abbrev Ptp.holdover : Nat := 3

/-- The logical port may carry the time source. -/
def State.ptpPort (s : State) (lp : Nat) : Bool := s.netUp && s.lpUp lp && s.flag F.netPortCfg_PTP_EN (lp / 2)

/-- The correction of an offset: a slew against it of a free size, at most 200 ppm, in parts per billion. -/
def slewFor (offset : Int) (v : Nat) : Int :=
  if offset = 0 then 0 else if offset > 0 then -((v % 200001 : Nat) : Int) else ((v % 200001 : Nat) : Int)

/-- A message of the chosen source: its offset is measured and slewed. -/
def State.ptpMeasure (s : State) (lp : Nat) (offset : BitVec 32) : State :=
  let s := if s.rd F.netPtpStatus_STATE = Ptp.freeRun then s.wr F.netPtpStatus_STATE 0 Ptp.acquiring else s
  let s := (s.wr F.netPtpStatus_SOURCE 0 lp).wr F.netPtpStatus_OFFSET_NS 0 offset.toNat
  let (v, s) := s.fresh
  let s := { s with clk := { s.clk with slew := slewFor offset.toInt v.toNat } }
  if s.clk.stepped ∧ offset.toInt.natAbs > 1000000 then
    s.raise (netNtc 0x0C09 Sev.warn none (BitVec.ofInt 32 (offset.toInt.tdiv 1000)).toNat lp (s.rd F.netPtpStatus_STATE))
  else s

/-- PTP_MESSAGE (R451). Once locked, whether a message of another port comes from the source that the best master clock
algorithm chooses is not the model's to say: a free choice. -/
def execPtpMessage (lp : Fin 24) (offset : BitVec 32) (s : State) : Host.Outcome State Fault Refusal :=
  .next (
    if !s.ptpPort lp.val then s
    else if s.rd F.netPtpStatus_STATE = Ptp.locked ∧ s.rd F.netPtpStatus_SOURCE ≠ lp.val then
      let (v, s) := s.fresh
      if v.toNat % 2 = 1 then s.ptpMeasure lp.val offset else s
    else s.ptpMeasure lp.val offset)

/-- The time source is lost (R451): HOLDOVER, on the reference clock alone. -/
def State.loseSource (s : State) : State :=
  if s.rd F.netPtpStatus_STATE = Ptp.acquiring ∨ s.rd F.netPtpStatus_STATE = Ptp.locked then
    let s := { s.wr F.netPtpStatus_STATE 0 Ptp.holdover with clk := { s.clk with slew := 0 } }
    s.raise (netNtc 0x0C0A Sev.warn none (s.rd F.netPtpStatus_SOURCE) (s.rd F.netPtpStatus_OFFSET_NS) 0)
  else s

/-- PTP_SOURCE_LOSS (R451). -/
def execPtpSourceLoss (s : State) : Host.Outcome State Fault Refusal := .next s.loseSource

end Sys2Proof.Machine
end

