-- ==== Sys2Proof/Machine/RegW.lean ====
section
/-!
DEFINITION. The register map of PF0 BAR0 and of a virtual function's BAR0 (R572 to R574), and the writes of registers by
their access codes (R12) and by the rules of their own chapters.
-/
namespace Sys2Proof.Machine

/-! ### The map (R572 to R574) -/

/-- What an offset of a BAR0 names. -/
inductive Spot where
  | reg (r i : Nat)
  /-- A word of QUE_ENTRYq. -/
  | entry (q w : Nat)
  /-- The doorbell of a ring, by its key. -/
  | bell (k : Nat)
  /-- A 64-bit half of an MSI-X table entry, by global vector. -/
  | msix (v half : Nat)
  /-- 64 pending bits from a global vector up. -/
  | pba (v : Nat)
  | empty
  deriving DecidableEq, Repr

/-- The blocks of PF0 BAR0 outside the queues and the contexts: offset, register, copies. -/
def pf0Map : List (Nat × Nat × Nat) :=
  [(0x000, Reg.hubCapUnits, 1), (0x008, Reg.hubCapTiles, 1), (0x010, Reg.hubState, 1), (0x018, Reg.hubHealth, 1),
   (0x020, Reg.hubCfgDiag, 1), (0x028, Reg.hubTime, 1), (0x030, Reg.hubWindow, 1), (0x038, Reg.hubLink, 1),
   (0x040, Reg.hubMboxCmd, 1), (0x048, Reg.hubMboxStatus, 1), (0x080, Reg.hubMboxArg, 8),
   (0x1000, Reg.mgtDegraded, 1), (0x1008, Reg.mgtCores, 1), (0x1010, Reg.mgtBraceCfg, 1), (0x1018, Reg.mgtBraceStatus, 1),
   (0x1020, Reg.mgtLifeStatus, 1), (0x1028, Reg.mgtShock, 1), (0x1030, Reg.mgtAvail, 1), (0x1038, Reg.mgtModule, 1),
   (0x1040, Reg.mgtPps, 1)] ++
  [(0x2000, Reg.pwrDomStatus, 20), (0x20A0, Reg.pwrIdle, 1), (0x20A8, Reg.pwrCap, 1), (0x20B0, Reg.pwrPark, 1),
   (0x20B8, Reg.pwrReading, 1), (0x20C0, Reg.pwrEnergy, 1), (0x20C8, Reg.pwrTemp, 1),
   (0x3000, Reg.secIdStatus, 1), (0x3008, Reg.secDeviceId, 4), (0x3028, Reg.secFwRunning, 1), (0x3030, Reg.secFwStaged, 1),
   (0x3038, Reg.secActTime, 1), (0x3040, Reg.secActStatus, 1)] ++
  [(0x10000, Reg.memRegionCfg, 16), (0x10080, Reg.memReserve, 1), (0x10088, Reg.memHostBase, 1),
   (0x10090, Reg.memStackStatus, 20), (0x10130, Reg.memChRetiredLo, 20), (0x101D0, Reg.memChRetiredHi, 20),
   (0x10270, Reg.memEccCount, 20), (0x10310, Reg.memErrLog, 1)] ++
  [(0x20000, Reg.netPortCfg, 12), (0x20060, Reg.netPortStatus, 12), (0x200C0, Reg.netFabricCfg, 1),
   (0x200C8, Reg.netConnTable, 1), (0x200D0, Reg.netConnCtrl, 1), (0x200D8, Reg.netVerCeiling, 1),
   (0x200E0, Reg.netLoanWin, 16), (0x20160, Reg.netLendCfg, 1), (0x20168, Reg.netPtpStatus, 1)] ++
  [(0x30000, Reg.kfeStatus, 4), (0x30020, Reg.kfeLimits, 1), (0x30028, Reg.kfeCounts, 4), (0x30048, Reg.kfeLiveCfg, 64),
   (0x30248, Reg.kfeLiveBuf, 64), (0x30448, Reg.kfeLiveCount, 64),
   (0x100000, Reg.beadAttr, 65536), (0x180000, Reg.beadValue, 65536)]

/-- The registers of a context block that stand once per context, in their order (R573). -/
def ctxMap : List (Nat × Nat) :=
  [(0x00, Reg.ctxState), (0x08, Reg.ctxCtrl), (0x10, Reg.ctxSched), (0x18, Reg.ctxMmuRoot), (0x20, Reg.ctxInval),
   (0x28, Reg.ctxSave), (0x30, Reg.ctxFramePool), (0x38, Reg.ctxFaultCfg), (0x40, Reg.ctxFaultLog), (0x48, Reg.ctxFaultCounts),
   (0x50, Reg.ctxFlags), (0x58, Reg.ctxFlagNotice), (0x60, Reg.ctxBeadMap), (0x68, Reg.ctxBeadCfg), (0x70, Reg.ctxBeadAdd),
   (0x78, Reg.ctxBeadLog), (0x80, Reg.ctxBeadSeen)] ++
  [(0x88, Reg.ctxKvCfg), (0x90, Reg.ctxKvCounts), (0x98, Reg.ctxPgroup), (0xA0, Reg.ctxVersion), (0xA8, Reg.ctxTrainCounts),
   (0xB0, Reg.ctxStepCfg), (0xB8, Reg.ctxStepRec), (0xC0, Reg.ctxStepState)]

/-- The registers of a ring, 8 bytes apart (R573). -/
def ringMap : List Nat := [Reg.ctxRingBase, Reg.ctxRingCfg, Reg.ctxRingTiles, Reg.ctxRingStatus, Reg.ctxRingCtrl]

/-- A row of a map that covers an offset. -/
def mapFind (m : List (Nat × Nat × Nat)) (off : Nat) : Spot :=
  match m.find? (fun e => decide (e.1 ≤ off ∧ off < e.1 + 8 * e.2.2)) with
  | some e => .reg e.2.1 ((off - e.1) / 8)
  | none => .empty

/-- The window of queue `q`: the layout that the queue window of R573 gives. -/
def queSpot (q off : Nat) : Spot :=
  if off = 0 then .reg Reg.queStatus q else if off = 8 then .reg Reg.queHeadPkt q
  else if off < 0x30 then .entry q ((off - 0x10) / 8)
  else if off = 0x30 then .reg Reg.queLost q else if off = 0x38 then .reg Reg.queCtrl q else .empty

/-- A queue window shows in a context's block: the queue is visible and names this context (R573). -/
def State.queShown (s : State) (c q : Nat) : Bool := s.flag F.queCfg_VF_VISIBLE q && s.rd F.queCfg_CTX q == c

/-- What an offset of a context block names; `vf` for the block in a virtual function's BAR0 (R573). -/
def State.ctxSpot (s : State) (vf : Bool) (c off : Nat) : Spot :=
  if off < 0xC8 then
    match ctxMap.find? (fun e => e.1 == off) with
    | some e => .reg e.2 c
    | none => .empty
  else if off = 0xC8 then if vf then .reg Reg.netConnCtrl 0 else .empty
  else if 0x200 ≤ off ∧ off < 0x400 then .reg Reg.ctxPeg (c * 64 + (off - 0x200) / 8)
  else if 0x400 ≤ off ∧ off < 0x580 then .reg Reg.tilSrngSeed (c * 48 + (off - 0x400) / 8)
  else if 0x4000 ≤ off ∧ off < 0x5000 then
    match ringMap[off % 64 / 8]? with
    | some r => .reg r (ringKey c ((off - 0x4000) / 64))
    | none => .empty
  else if 0x8000 ≤ off ∧ off < 0xC000 then
    if s.queShown c ((off - 0x8000) / 64) then queSpot ((off - 0x8000) / 64) (off % 64) else .empty
  else if vf ∧ 0xE000 ≤ off ∧ off < 0xE200 then .bell (ringKey c ((off - 0xE000) / 8))
  else if vf ∧ 0xF000 ≤ off ∧ off < 0xF400 then .msix (ctxVector c ((off - 0xF000) / 16)) (off / 8 % 2)
  else if vf ∧ off = 0xF800 then .pba (ctxVector c 0)
  else .empty

/-- What an offset of PF0 BAR0 names (R572). -/
def State.pf0Spot (s : State) (off : Nat) : Spot :=
  if 0x40000 ≤ off ∧ off < 0x50000 then
    let q := (off - 0x40000) / 256
    let o := off % 256
    if o = 0 then .reg Reg.queCfg q else if o = 8 then .reg Reg.queNotify q
    else if 0x40 ≤ o ∧ o < 0x80 then queSpot q (o - 0x40) else .empty
  else if 0x200000 ≤ off ∧ off < 0x300000 then s.ctxSpot false ((off - 0x200000) / 65536) (off % 65536)
  else if 0xFF0000 ≤ off ∧ off < 0xFF4000 then .msix ((off - 0xFF0000) / 16) (off / 8 % 2)
  else if 0xFF8000 ≤ off ∧ off < 0xFF8080 then .pba ((off - 0xFF8000) / 8 * 64)
  else mapFind pf0Map off

/-- The register of a unit that is not fitted: it reads zero and ignores writes (R319, R413, R572). -/
def State.unitGone (s : State) (r i : Nat) : Bool :=
  (Reg.kfeStatus ≤ r && r ≤ Reg.kfeLiveCount && !(List.range 4).any s.kfeFitted) ||
  ((r == Reg.netPortCfg || r == Reg.netPortStatus) && !s.portFitted i) ||
  ((r == Reg.memStackStatus || r == Reg.memChRetiredLo || r == Reg.memChRetiredHi || r == Reg.memEccCount) && !s.stackFitted i)

/-- What an access of a function to an offset of its BAR0 reaches. Registers are accessed as aligned 64-bit words. -/
def State.spotAt (s : State) (fn : Fn) (off : Nat) : Spot :=
  if off % 8 ≠ 0 then .empty
  else
    let t := match fn with
      | .pf0 => s.pf0Spot off
      | .vf k => if off < 65536 then s.ctxSpot true k.val off else .empty
    match t with
    | .reg r i => if s.unitGone r i then .empty else t
    | _ => t

/-! ### Writes by access code (R12) -/

/-- RWL fields are open: CFG_HOLD or BRINGUP (R12). -/
def State.rwlOpen (s : State) : Bool := s.dev == Dev.cfgHold || s.dev == Dev.bringup

/-- One field of a write: `open` lets RWL fields be written. -/
def State.writeField (s : State) (opened : Bool) (v i : Nat) (f : Fld) : State :=
  match f.acc with
  | .rw => s.wr f i (bitsOf v f.lo f.width)
  | .rwl => if opened then s.wr f i (bitsOf v f.lo f.width) else s
  | .rw1c => s.wr f i (s.rd f i - (s.rd f i &&& bitsOf v f.lo f.width))
  | _ => s

/-- Every field of a register written by its access code. -/
def State.writeFields (s : State) (opened : Bool) (r i v : Nat) : State :=
  (regFields r).foldl (fun s f => s.writeField opened v i f) s

/-- A field whose written 0 stores 1. -/
def State.atLeastOne (s : State) (f : Fld) (i : Nat) : State := if s.rd f i = 0 then s.wr f i 1 else s

/-! ### Registers with rules of their own -/

/-- Start notices kept so far go into queue 0 when it is first enabled in a start (R499). -/
def State.releaseKept (s : State) : State :=
  if s.start.keeping then
    s.start.kept.foldl (fun s r => (s.enqueue 0 (fieldAt r 2 0 2) [r] 1).2)
      { s with start := { s.start with keeping := false, kept := [] } }
  else s

/-- A write of QUE_CFGq (R411): queues 0 to 16 are RWL, with PUT_EN 0; another queue's fields are writable only while it
is not enabled. -/
def State.writeQueCfg (s : State) (opened : Bool) (q v : Nat) : State :=
  if q ≤ 16 then
    if opened then
      let s := (s.writeFields true Reg.queCfg q v).wr F.queCfg_PUT_EN q 0
      if q = 0 ∧ v.testBit 0 then s.releaseKept else s
    else s
  else if s.flag F.queCfg_ENABLE q then s.wr F.queCfg_ENABLE q (bitsOf v 0 1)
  else s.writeFields true Reg.queCfg q v

/-- LIMIT_W stores 0 unless it is 1,000 to SUSTAINED_W (R515). -/
def State.writePwrCap (s : State) (opened : Bool) (v : Nat) : State :=
  let s := s.writeFields opened Reg.pwrCap 0 v
  let l := s.rd F.pwrCap_LIMIT_W
  if 1000 ≤ l ∧ l ≤ s.rd F.pwrCap_SUSTAINED_W then s else s.wr F.pwrCap_LIMIT_W 0 0

/-- A write of NET_LOAN_WINw (R469, R472). -/
def State.writeLoanWin (s : State) (w v : Nat) : State :=
  let s := if s.rd F.netLoanWin_STATE w = 0 then
      ((s.wr F.netLoanWin_CONN w (bitsOf v 0 12)).wr F.netLoanWin_SIZE_GIB w (bitsOf v 32 16)).wr F.netLoanWin_OFFSET_GIB w (bitsOf v 48 16)
    else s
  let s := if v.testBit 15 then s.unbind w else s
  if v.testBit 14 then s.beginBind w else s

/-- A write of NET_CONN_CTRL (R453, R472). -/
def State.writeConnCtrl (s : State) (fn : Fn) (v : Nat) : State :=
  let c := bitsOf v 0 12
  if !s.connReach fn c then s
  else if bitsOf v 12 2 = 1 then s.openConn c else if bitsOf v 12 2 = 2 then s.closeConn c else s

/-- A write of CTX_RING_CTRLr (R582). -/
def State.writeRingCtrl (s : State) (k v : Nat) : State :=
  let s := if v.testBit 1 then s.restartRing k (v.testBit 2) else s
  if v.testBit 0 then s.stopRing k else s

/-- A write of CTX_CTRL (R353), through PF0 alone. -/
def State.writeCtxCtrl (s : State) (c v : Nat) : State :=
  let s := if v.testBit 0 then s.preempt c (v.testBit 1) else s
  if v.testBit 2 then s.resume c else s

/-- The context has no command in flight (R221). -/
def State.ctxQuiet (s : State) (c : Nat) : Bool := s.ctxCmds c == []

/-- A write of a register through PF0 BAR0 or a virtual function, but for the mailbox and the park level. `opened` is
whether RWL fields are open. -/
def State.regWrite (s : State) (fn : Fn) (opened : Bool) (r i v : Nat) : State :=
  let plain := s.writeFields opened r i v
  let asPf0 (t : State) : State := if fn = .pf0 then t else s
  if r = Reg.ctxVersion then if s.ctxQuiet i then s.setReg r i (BitVec.ofNat 64 v) else s
  else if r = Reg.ctxStepCfg ∨ r = Reg.ctxStepRec then if s.rd F.ctxStepState_STATE i = 0 then plain else s
  else if r = Reg.ctxMmuRoot then if s.ctxState i = Ctx.idle ∨ s.ctxState i = Ctx.preempted then plain else s
  else if r = Reg.ctxSched then asPf0 plain
  else if r = Reg.ctxCtrl then asPf0 (s.writeCtxCtrl i v)
  else if r = Reg.ctxInval then
    if v.testBit 63 ∧ !s.flag F.ctxState_INVAL_BUSY i then s.startInval i (bitsOf v 0 36) (bitsOf v 36 20) else s
  else if r = Reg.tilSrngSeed then { plain with seedGens := put s.seedGens i (lookD s.seedGens i 0 + 1) }
  else if r = Reg.ctxSave then if fn = .pf0 ∧ s.ctxState i = Ctx.idle then plain else s
  else if r = Reg.ctxFaultCfg then plain.atLeastOne F.ctxFaultCfg_MIGRATE_WAIT i
  else if r = Reg.beadAttr then s.writeAttr i v
  else if r = Reg.beadValue then if s.beadState i = BeadSt.free then plain else s
  else if r = Reg.ctxBeadMap then s.writeBeadMap fn i v
  else if r = Reg.ctxBeadCfg then plain.atLeastOne F.ctxBeadCfg_DEFAULT_TIMEOUT i
  else if r = Reg.ctxBeadAdd then s.hostAdd i (bitsOf v 0 14) (bitsOf v 16 48)
  else if r = Reg.queCfg then s.writeQueCfg opened i v
  else if r = Reg.queCtrl then
    let s := if v.testBit 1 then ((s.queSkip i).quePointers i).2 else s
    if v.testBit 0 then s.queFlush i else s
  else if r = Reg.kfeLimits then plain.atLeastOne F.kfeLimits_EXPANSION_MAX i
  else if r = Reg.netConnTable then if s.allClosed then s.nameConnTable v else s
  else if r = Reg.netConnCtrl then s.writeConnCtrl fn v
  else if r = Reg.netLoanWin then s.writeLoanWin i v
  else if r = Reg.pwrCap then s.writePwrCap opened v
  else if r = Reg.mgtBraceCfg then (plain.atLeastOne F.mgtBraceCfg_COMMIT_MS i).atLeastOne F.mgtBraceCfg_DRAIN_MS i
  else if r = Reg.ctxRingBase ∨ r = Reg.ctxRingTiles then if s.flag F.ctxRingCfg_ENABLE i then s else plain
  else if r = Reg.ctxRingCfg then s.writeRingCfg i v
  else if r = Reg.ctxRingCtrl then s.writeRingCtrl i v
  else plain

end Sys2Proof.Machine
end

