-- ==== Sys2Proof/Machine/Service.lean ====
section
/-!
DEFINITION. What start, reliability and update share: the NVM devices (R479, R522, R600), certificates (R547, R548),
repair records (R495, R496), retirement of tiles (R7), the life log's mirrors and
flushes (R529, R532), and the accounting of time (R527, R539).
-/
namespace Sys2Proof.Machine

/-! ### The NVM devices (R479, R522, R600) -/

/-- The device of an image: false A, true B. -/
def State.nvm (s : State) (b : Bool) : Nvm := if b then s.nvmB else s.nvmA
def State.setNvm (s : State) (b : Bool) (n : Nvm) : State := if b then { s with nvmB := n } else { s with nvmA := n }

/-- Bytes of an NVM device; an erased byte reads 0xFF. -/
def Nvm.get (n : Nvm) (off : Nat) : Nat → List Byte
  | 0 => []
  | k + 1 => lookD n.bytes off 0xFF :: n.get (off + 1) k
/-- A number in an NVM device. -/
def Nvm.nat (n : Nvm) (off k : Nat) : Nat := leNat (n.get off k)
/-- The bytes `[lo, lo + k)` are erased. -/
def Nvm.blank (n : Nvm) (lo k : Nat) : Bool := n.bytes.all (fun e => e.1 < lo || decide (lo + k ≤ e.1) || e.2 == 0xFF)
/-- Bytes programmed. -/
def Nvm.program (n : Nvm) (off : Nat) : List Byte → Nvm
  | [] => n
  | b :: bs => ({ n with bytes := if b = 0xFF then del n.bytes off else put n.bytes off b }).program (off + 1) bs
/-- The sectors of `[lo, lo + k)` erased, each counted (R522). -/
def Nvm.erase (n : Nvm) (lo k : Nat) : Nvm :=
  let z := max 1 Config.nvmSectorBytes
  { n with
    bytes := n.bytes.filter (fun e => e.1 < lo || decide (lo + k ≤ e.1)),
    erases := ((List.range ((lo + k + z - 1) / z - lo / z)).map (· + lo / z)).foldl
      (fun t i => put t i (lookD t i 0 + 1)) n.erases }

/-- The areas of an image (R479). -/
abbrev Area.helper : Nat := 0x10000
abbrev Area.certs : Nat := 0x20000
abbrev Area.firmware : Nat := 0x100000
abbrev Area.blob : Nat := 0x0C100000
abbrev Area.repair : Nat := 0x0D100000
abbrev Area.flush : Nat := 0x0E100000
abbrev Area.mirrors : Nat := 0x0E110000

/-! ### Causes that this file judges (R517) -/

/-- Tiles absent from HUB_CAP_TILES.PRESENT. -/
def State.tilesAbsent (s : State) : Nat := 48 - popCount s.tilesPresent 48

/-- More than two tiles absent is a cause (R517). -/
def State.judgeTiles (s : State) : State := if s.tilesAbsent > 2 then s.setCause Cse.tiles s.tilesAbsent else s

/-- Some channel is retired or lost (R517). -/
def State.anyChannelOut (s : State) : Bool :=
  (List.range 20).any (fun n => s.rd F.memChRetiredLo_OUT n != 0 || s.rd F.memChRetiredHi_OUT n != 0)

/-- The highest erase count of a sector of either device. -/
def State.wear (s : State) : Nat := ((s.nvmA.erases ++ s.nvmB.erases).map (·.2)).foldl max 0

/-- Wear is reported in the life log, and above 80,000 erases it is a cause (R517, R522, R527). -/
def State.judgeWear (s : State) : State :=
  let s := s.lifeSet 46 2 (min 65535 (s.wear / 10))
  if s.wear > 80000 then s.setCause Cse.wear 0 else s

/-- A range of an NVM device erased and programmed; nothing happens while NVM_WP_N is asserted (R600), nor when the
cross-check fails (R525). -/
def State.nvmWrite (s : State) (b : Bool) (off space : Nat) (bs : List Byte) : Bool × State :=
  if s.pins.nvmWp then (false, s)
  else match s.crossCheck Act.nvm with
    | (false, s) => (false, s)
    | (true, s) =>
      let n := if space = 0 then s.nvm b else (s.nvm b).erase off space
      (true, (s.setNvm b (n.program off bs)).judgeWear)

/-- An NVM write of the mailbox is abandoned: the command ends with NVM_FAIL. A blob is left torn, how far written being
a free number, unless its cross-check fails (R29); an image is left without its header (R493, R498, R558, R565, R600). -/
def State.abandonWrite (s : State) : State :=
  match s.mbox with
  | none => s
  | some j => match j.writes with
    | none => s
    | some (b, bs) =>
      let s := { s with mbox := some { j with writes := none, result := 9 } }
      if j.cmd ≠ 2 then s
      else match s.crossCheck Act.nvm with
      | (false, s) => s
      | (true, s) =>
        let (v, s) := s.fresh
        s.setNvm b (((s.nvm b).erase Area.blob 0x1000000).program Area.blob (bs.take (v.toNat % max 1 bs.length)))

/-! ### Certificates (R547, R548) -/

abbrev pkBytes : Nat := 1312
abbrev sigBytes : Nat := 2420

/-- A signature by the identity of a seed, and its check, with the lengths of ML-DSA-44. -/
def sign (xi msg : List Byte) : List Byte := slice (Config.mldsaSign xi msg) 0 sigBytes
def verify (pk msg sig : List Byte) : Bool := Config.mldsaVerify pk msg sig

/-- A certificate of a role is valid under its issuer's key (R548). -/
def certOk (c : List Byte) (role : Nat) (issuer : List Byte) : Bool :=
  fieldAt c 0 0 32 == 0x4B584247 && fieldAt c 4 0 16 == 1 && fieldAt c 6 0 8 == role && fieldAt c 7 0 8 == 0 &&
  zeroAt c 48 64 && zeroAt c 3796 4096 && slice c 16 32 == sha3 issuer && verify issuer (slice c 0 1376) (slice c 1376 sigBytes)

def certKeyOf (c : List Byte) : List Byte := slice c 64 pkBytes

/-- A certificate slot of an image. -/
def Nvm.cert (n : Nvm) (i : Nat) : List Byte := n.get (Area.certs + 4096 * i) 4096

/-- The root of an image is the one that the boot ROM names (R548). -/
def Nvm.rootOk (n : Nvm) : Bool :=
  let c := n.cert 0
  certOk c 1 (certKeyOf c) && sha3 (certKeyOf c) == slice Config.romRoot 0 32

/-- The device certificate of an image is valid. -/
def Nvm.deviceCertOk (n : Nvm) : Bool :=
  n.rootOk && certOk (n.cert 1) 3 (certKeyOf (n.cert 0)) && certOk (n.cert 2) 4 (certKeyOf (n.cert 1))

/-! ### Repair records (R495, R496) -/

/-- The key that repair records and mirrors verify under: the identity's, or without one that of the device certificate
(R546). -/
def State.recordKey (s : State) : List Byte := if s.sec.xi.isSome then s.sec.pubKey else s.sec.certKey

/-- A record of the repair area. -/
def Nvm.record (n : Nvm) (i : Nat) : List Byte := n.get (Area.repair + 4096 * i) 4096

/-- The number of records before the first erased slot. -/
def Nvm.recordsFrom (n : Nvm) : Nat → Nat → Nat
  | 0, i => i
  | f + 1, i => if n.blank (Area.repair + 4096 * i) 4096 then i else n.recordsFrom f (i + 1)
def Nvm.records (n : Nvm) : Nat := n.recordsFrom 4096 0

/-- A repair record is valid: its fixed fields and its signature. -/
def recordValid (pk r : List Byte) : Bool :=
  fieldAt r 0 0 32 == 0x52584247 && fieldAt r 4 0 16 == 1 && verify pk (slice r 0 1600) (slice r 1600 sigBytes)

def recSeq (r : List Byte) : Nat := fieldAt r 8 0 64

/-- The union of the valid records of both images, matched by SEQ and in its order (R496). -/
def State.repairRecords (s : State) : List (List Byte) :=
  let pk := s.recordKey
  let ofImg (n : Nvm) : List (List Byte) := ((List.range n.records).map n.record).filter (recordValid pk)
  let t := (ofImg s.nvmA ++ ofImg s.nvmB).foldl (fun (t : Tbl (List Byte)) r =>
    if (look t (recSeq r)).isSome then t else put t (recSeq r) r) []
  t.map (·.2)

/-- Records of an image that do not verify: the first index and their number. -/
def State.badRecords (s : State) (b : Bool) : Option Nat × Nat :=
  let bad := (List.range (s.nvm b).records).filter (fun i => !recordValid s.recordKey ((s.nvm b).record i))
  (bad.head?, bad.length)

/-- A repair record written to one image. -/
def State.putRecord (s : State) (b : Bool) (r : List Byte) : State :=
  let i := (s.nvm b).records
  if i ≥ 4096 then s
  else
    let off := Area.repair + 4096 * i
    match s.nvmWrite b off 0 r with
    | (true, s) => s
    | (false, s) => s.raise (hubNtc 0x0109 Sev.error (b2n b) (off % 2 ^ 32) 2)

/-- A repair record written to image A and then to image B; without an identity none is written (R495, R496, R546). -/
def State.writeRecord (s : State) (typ unit chan lane dat : Nat) : State :=
  match s.sec.xi with
  | none => s
  | some xi =>
    let body := natLE 4 0x52584247 ++ natLE 2 1 ++ natLE 2 typ ++ natLE 8 s.rel.recSeq ++ natLE 8 s.time ++
      natLE 1 unit ++ natLE 1 chan ++ natLE 1 lane ++ natLE 1 dat ++ List.replicate 1572 0
    let r := body ++ sign xi body ++ List.replicate 76 0
    let s := { s with rel := { s.rel with recSeq := s.rel.recSeq + 1 } }
    (s.putRecord false r).putRecord true r

/-! ### Tiles that go out of service (R7, R497, R521) -/

/-- AUTO_RETIRE of the REPAIR section (R484). -/
def State.autoRetire (s : State) : Bool := s.item 9 1 0 1 == 1

/-- No command is in flight on a tile. -/
def State.tileQuiet (s : State) (t : Nat) : Bool :=
  s.rings.all (fun e => e.2.cmds.all (fun x => !(x.issued && x.phase != .ended && x.tiles.contains t)))

/-- Tiles whose retirement waits for their last command leave HUB_CAP_TILES.PRESENT (R7). -/
def State.settleTiles (s : State) : State :=
  let go := (s.rel.retiring.map (·.1)).filter s.tileQuiet
  if go = [] then s
  else
    let s := go.foldl (fun s t => s.wr F.hubCapTiles_PRESENT 0 (setBits s.tilesPresent t 1 0)) s
    { s with rel := { s.rel with retiring := s.rel.retiring.filter (fun e => !go.contains e.1) } }.judgeTiles

/-- A tile is to leave service. -/
def State.dropTile (s : State) (t code : Nat) : State :=
  if !s.tilePresent t then s
  else { s with rel := { s.rel with retiring := put s.rel.retiring t code } }.settleTiles

/-- A tile has failed its self-test: it is told, recorded when AUTO_RETIRE says so, and leaves service (R497, R521), unless
the cross-check of its retirement fails (R525). -/
def State.failTile (s : State) (t code : Nat) : State :=
  match s.crossCheck Act.retire with
  | (false, s) => s
  | (true, s) =>
    let kept := s.autoRetire && s.sec.xi.isSome
    let s := s.raise { code := 0x0106, sev := Sev.warn, data := Unit.tile t, ctrl := tilePath t, a1 := t, a2 := code, a3 := b2n kept }
    let s := if kept then s.writeRecord 1 t 0 0 code else s
    (s.lifeAdd (lifeEvent 3) 8 1).dropTile t code

/-! ### Retired channels (R301 to R303) -/

/-- Populated stacks of a die. -/
def State.dieStacks (s : State) (d : Nat) : List Nat := (List.range 20).filter (fun n => n / 5 == d && s.stackFitted n)
/-- Retirement slots of a die, and those in use (R302). -/
def State.slotsOf (s : State) (d : Nat) : Nat := (s.dieStacks d).length * s.rd F.memReserve_PER_STACK / 3
def State.slotsUsed (s : State) (d : Nat) : List Nat :=
  ((s.rel.slots ++ s.rel.copies.map (fun e => (e.1, e.2.slot))).filter (fun e => e.1 / 128 / 5 == d)).map (·.2)
def State.freeSlots (s : State) (d : Nat) : Nat := s.slotsOf d - (s.slotsUsed d).length
/-- Channels of a stack that are retired to a slot, and those that are lost. -/
def State.retiredOn (s : State) (n : Nat) : Nat := (s.rel.slots.filter (fun e => e.1 / 128 == n)).length
def State.lostOn (s : State) (n : Nat) : Nat := ((List.range 128).filter (s.chanLost n)).length
/-- Spare lanes left in a group of 32 channels (R299). -/
def State.sparesLeft (s : State) (n g : Nat) : Nat := 4 - (s.rel.spares.filter (fun e => e.1 == n && e.2.1 / 32 == g)).length

/-- A channel goes out of service. -/
def State.chanOff (s : State) (n c : Nat) : State :=
  if c < 64 then s.wr F.memChRetiredLo_OUT n (setBits (s.rd F.memChRetiredLo_OUT n) c 1 1)
  else s.wr F.memChRetiredHi_OUT n (setBits (s.rd F.memChRetiredHi_OUT n) (c - 64) 1 1)

/-! ### The life log in NVM (R529, R532) -/

/-- The 24 KiB of the log. -/
def State.lifeBytes (s : State) : List Byte := s.life.readN 0 24576

def mirrorOff (seq : Nat) : Nat := Area.mirrors + seq / 2 % 990 * 32768

/-- The flush areas are erased, after a full mirror. -/
def State.eraseFlush (s : State) : State :=
  if s.pins.nvmWp then s
  else
    let clr (n : Nvm) : Nvm := if n.flushes = [] then n else { n.erase Area.flush 65536 with flushes := [] }
    { s with nvmA := clr s.nvmA, nvmB := clr s.nvmB }.judgeWear

/-- A full mirror written: the log with the next MIRROR_SEQ, its hash and its signature; without an identity none
(R529, R546). Answers whether it was written. -/
def State.writeMirror (s : State) : Bool × State :=
  match s.sec.xi with
  | none => (false, s)
  | some xi =>
    let seq := s.lifeGet 8 8 + 1
    let s := (s.lifeSet 8 8 seq).lifeSet 16 8 s.time
    let log := s.lifeBytes
    let body := log ++ natLE 8 seq ++ sha3 log
    let img := body ++ List.replicate 24 0 ++ sign xi body
    let s := { s.wr F.mgtLifeStatus_MIRROR_SEQ 0 seq with rel := { s.rel with mirrorAt := s.ivl } }
    match s.nvmWrite (seq % 2 == 1) (mirrorOff seq) 32768 img with
    | (true, s) => (true, (s.eraseFlush).wr F.mgtLifeStatus_FLUSHES 0 0)
    | (false, s) => (false, s.raise (hubNtc 0x0109 Sev.error (seq % 2) (mirrorOff seq) 3))

/-- A flush record on one device: what has gathered since the last mirror, in a form that the device alone reads (R532). -/
def State.putFlush (s : State) (b : Bool) : State :=
  let n := s.nvm b
  let off := Area.flush + 1024 * (n.flushes.length % 64)
  let (bs, s) := s.freeBytes 1024
  match s.nvmWrite b off 0 bs with
  | (true, s) => s.setNvm b { s.nvm b with flushes := (s.nvm b).flushes ++ [(s.lifeGet 8 8, s.life)] }
  | (false, s) => s.raise (hubNtc 0x0109 Sev.error (b2n b) off 3)

/-- The blocks of a log that a flush record brings: all but TEMP, SUPPLY and CHANNELS, with the newest 8 shock and 2
brace records (R532). -/
def applyFlush (log flush : Mem) : Mem :=
  let move (m : Mem) (off n : Nat) : Mem := m.writeN off (flush.readN off n)
  let shocks := ((List.range 16).map (fun b => leNat (flush.readN (0x5380 + 4 * b) 4))).sum
  let braces := leNat (flush.readN (lifeEvent 6) 8)
  let m := [(0, 64), (0x40, 128), (0x5340, 64), (0x5380, 64), (0x5FC0, 64)].foldl (fun m r => move m r.1 r.2) log
  let m := ((List.range 8).filter (· < shocks)).foldl (fun m i => move m (0x53C0 + 16 * ((shocks - 1 - i) % 64)) 16) m
  ((List.range 2).filter (· < braces)).foldl (fun m i => move m (0x57C0 + 32 * ((braces - 1 - i) % 64)) 32) m

/-- A mirror slot holds a log whose signature verifies: its MIRROR_SEQ. -/
def mirrorSeq (pk img : List Byte) : Option Nat :=
  let seq := leNat (slice img 0x6000 8)
  if slice img 0x6008 32 == sha3 (slice img 0 24576) && verify pk (slice img 0 0x6028) (slice img 0x6040 sigBytes) then some seq
  else none

/-- The mirrors of both images that verify: (MIRROR_SEQ, image, slot). -/
def State.mirrors (s : State) : List (Nat × Bool × Nat) :=
  [false, true].flatMap (fun b => ((List.range 990).filter (fun i => !(s.nvm b).blank (Area.mirrors + 32768 * i) 32768)).filterMap
    (fun i => (mirrorSeq s.recordKey ((s.nvm b).get (Area.mirrors + 32768 * i) 32768)).map (fun q => (q, b, i))))

/-- The newest of them. -/
def newest (ms : List (Nat × Bool × Nat)) : Option (Nat × Bool × Nat) :=
  ms.foldl (fun (a : Option (Nat × Bool × Nat)) m => match a with
    | some b => if b.1 < m.1 then some m else a
    | none => some m) none

/-- The log as a set of bytes. -/
def lifeOf (bs : List Byte) : Mem := Mem.writeN [] 0 bs

/-- A new log (R527). -/
def newLife : Mem := (Mem.writeN [] 0 (natLE 4 0x46584247)).writeN 4 (natLE 4 1)

/-- At a cold start the log is restored: the newest mirror that verifies, and the flush records that extend it (R530). -/
def State.restoreLife (s : State) : State :=
  let ms := s.mirrors
  match newest ms with
  | some (q, b, i) =>
    let log := lifeOf (slice ((s.nvm b).get (Area.mirrors + 32768 * i) 32768) 0 24576)
    -- A mirror that failed after this one has advanced MIRROR_SEQ, and the flushes that follow it extend this one still.
    let own (n : Nvm) := n.flushes.filter (fun f => decide (q ≤ f.1))
    let fl := if own s.nvmA = [] then own s.nvmB else own s.nvmA
    let s := { s with life := fl.foldl (fun (m : Mem) (f : Nat × Mem) => applyFlush m f.2) log }
    ((s.wr F.mgtLifeStatus_RESTORED 0 1).wr F.mgtLifeStatus_MIRROR_SEQ 0 q).wr F.mgtLifeStatus_FLUSHES 0 fl.length
  | none =>
    let tried := (((List.range 990).filter (fun i => !s.nvmA.blank (Area.mirrors + 32768 * i) 32768)) ++
      ((List.range 990).filter (fun i => !s.nvmB.blank (Area.mirrors + 32768 * i) 32768))).length
    ({ s with life := newLife }.wr F.mgtLifeStatus_RESTORED 0 0).raise (hubNtc 0x0E0C Sev.warn tried 0 0)

/-! ### The accounting of time (R527, R539) -/

/-- Nanoseconds added to a counter of the log in its own unit, the remainder kept. -/
def State.accrue (s : State) (slot off unitNs ns : Nat) : State :=
  let r := lookD s.rel.acct slot 0 + ns
  let s := { s with rel := { s.rel with acct := put s.rel.acct slot (r % unitNs) } }
  if r < unitNs then s else s.lifeAdd off 8 (r / unitNs)

/-- The categories of R539 in table order, by their index. -/
abbrev Cat.activation : Nat := 0
abbrev Cat.restart : Nat := 1
abbrev Cat.core : Nat := 2
abbrev Cat.halted : Nat := 3
abbrev Cat.braced : Nat := 4
abbrev Cat.excluded : Nat := 5

/-- The category of the time that passes now, or none while the module is available. -/
def State.category (s : State) : Option Nat :=
  let d := s.dev
  if d = Dev.halted then some (if s.rd F.hubState_HALT_CAUSE = 3 then Cat.excluded else Cat.halted)
  else if d = Dev.paused then some Cat.activation
  else if s.start.fromBrace then some Cat.braced
  else if d = Dev.cfgHold then some Cat.excluded
  else if !s.serving then some (if s.start.ordered then Cat.excluded else Cat.restart)
  else if s.rd F.pwrPark_CURRENT ≠ 0 then some Cat.excluded
  else if s.rel.halted ≠ [] ∨ s.tilesPresent = 0 then some Cat.core
  else none

/-- Time of one step told in the log. -/
def State.account (s : State) (ns : Nat) : State :=
  if s.dev = Dev.off then s
  else
    let s := s.accrue s.dev (0x40 + 8 * s.dev) 1000000000 ns
    let p := s.rd F.pwrPark_CURRENT
    let s := if p = 0 then s else s.accrue (11 + p) (0x40 + 8 * (11 + p)) 1000000000 ns
    let s := if s.start.inService then
        let s := s.accrue 16 0x5FC0 1000000 ns
        match s.category with
        | some k =>
          let s := if k ≤ Cat.halted then s.accrue 17 0x5FC8 1000000 ns else s
          s.accrue (18 + k) (0x5FD0 + 8 * k) 1000000 ns
        | none => s
      else s
    s.lifeSet 16 8 s.time

end Sys2Proof.Machine
end

