-- ==== Sys2Proof/Machine/Power.lean ====
section
/-!
DEFINITION. The power controller (R501 to R516): idle periods and steps down, wakes and their failure, park levels, the
power governor and thermal throttling, and the thermal trip.
-/
namespace Sys2Proof.Machine

/-- Where the notices about a domain or a die come from (R516): the die, or the hub. -/
def dieNtc (d : Option Nat) (code sev a1 a2 a3 : Nat) : Ntc :=
  { code := code, sev := sev, data := match d with | some k => Unit.die k | none => Unit.hub,
    ctrl := match d with | some k => Path.bar k | none => Path.pup, a1 := a1, a2 := a2, a3 := a3 }

/-- The die of a domain; the hub's domains have none. -/
def domDie (d : Nat) : Option Nat := if d < 4 then none else some ((d - 4) / 4)

/-- What a domain is: the hub's, a tile group, a die's fabric, or a front end. -/
def isTileDom (d : Nat) : Bool := 4 ≤ d && d % 4 < 2
def isDieDom (d : Nat) : Bool := 4 ≤ d && d % 4 == 2
def isKfeDom (d : Nat) : Bool := 4 ≤ d && d % 4 == 3

/-- The tiles of a tile group's domain (R31). -/
def domTiles (d : Nat) : List Nat := (List.range 48).filter (fun t => tileDom t == d)

/-! ### Idle domains (R31, R505) -/

/-- A ring has commands pending: records not fetched, or commands not completed. -/
def State.ringPending (s : State) (k : Nat) : Bool :=
  (s.ring k).cmds != [] ||
  (s.flag F.ctxRingCfg_ENABLE k && s.rd F.ctxRingStatus_HEAD k != s.rd F.ctxRingStatus_TAIL k)

/-- A tile keeps its group on: a command in flight, or a ring binding with commands pending. A retired tile does not
(R31), nor does one under test keep it asleep. -/
def State.tileBusy (s : State) (t : Nat) : Bool :=
  (s.tilePresent t && (!s.tileQuiet t || s.rings.any (fun e => e.2.eff.testBit t && s.ringPending e.1))) ||
  s.rel.testing.contains t

/-- A domain is idle (R505). -/
def State.domIdle (s : State) (d : Nat) : Bool :=
  if isTileDom d then (domTiles d).all (fun t => !s.tileBusy t)
  else if isDieDom d then
    [d - 2, d - 1].all (fun g => s.dom g == Dom.retain || s.dom g == Dom.off) &&
    !s.rings.any (fun e => e.2.cmds.any (·.issued) && (s.ringDomains e.1).contains d) &&
    !s.rel.copies.any (fun e => dieDom (e.1 / 128 / 5) == d)
  else if isKfeDom d then s.samplesOn ((d - 7) / 4) == []
  else false

/-- The moments since which domains are idle, and since which tile groups are not ON (R521), kept up to date. -/
def State.trackIdle (s : State) : State :=
  let f (t : Tbl Nat) (d : Nat) : Tbl Nat :=
    if !s.domFitted d || !s.domIdle d then del t d else if (look t d).isSome then t else put t d s.ivl
  let off (t : Tbl Nat) (d : Nat) : Tbl Nat :=
    if s.dom d = Dom.on then del t d else if (look t d).isSome then t else put t d s.ivl
  { s with pwr := { s.pwr with idle := ((List.range 16).map (· + 4)).foldl f s.pwr.idle },
           rel := { s.rel with offSince := (((List.range 16).map (· + 4)).filter isTileDom).foldl off s.rel.offSince } }

/-- The state to which a domain steps down after `t` nanoseconds of idleness (R505, R508). -/
def State.stepTo (s : State) (d t : Nat) : Option Nat :=
  let now := s.dom d
  let us (f : Fld) : Bool := decide (s.rd f * 1000 ≤ t)
  let parked := s.rd F.pwrPark_CURRENT ≥ 2
  if isTileDom d then
    if now ≠ Dom.off ∧ (parked ∨ (s.rd F.pwrIdle_OFF_AFTER_MS ≠ 0 ∧ s.rd F.pwrIdle_OFF_AFTER_MS * 1000000 ≤ t)) then some Dom.off
    else if now > Dom.retain ∧ us F.pwrIdle_RETAIN_AFTER_US then some Dom.retain
    else if now = Dom.on ∧ us F.pwrIdle_GATE_AFTER_US then some Dom.gated
    else none
  else if isDieDom d then if now > Dom.retain ∧ us F.pwrIdle_RETAIN_AFTER_US then some Dom.retain else none
  else if isKfeDom d then
    if now ≠ Dom.off ∧ (parked ∨ s.rd F.pwrIdle_KFE_OFF_AFTER_MS * 1000000 ≤ t) then some Dom.off
    else if now = Dom.on ∧ us F.pwrIdle_GATE_AFTER_US then some Dom.gated
    else none
  else none

/-- DOMAIN_IDLE_STEP (R505): an idle domain begins to step down. -/
def execDomainIdleStep (d : Fin 20) (s : State) : Host.Outcome State Fault Refusal :=
  let n := d.val
  let s := s.trackIdle
  .next (
    if !(s.serving || s.dev == Dev.paused) || !s.domFitted n || (look s.pwr.down n).isSome || (look s.pwr.wake n).isSome then s
    else match look s.pwr.idle n with
      | none => s
      | some t => match s.stepTo n (s.ivl - t) with
        | some v => { s with pwr := { s.pwr with down := put s.pwr.down n v } }
        | none => s)

/-- Memory and granules at the keys of a set are gone. -/
def State.clearKeys (s : State) (gone : Nat → Bool) : State :=
  { s with mem := s.mem.filter (fun e => !gone e.1), ecc := s.ecc.filter (fun e => !gone e.1) }

/-- The translations that the caches of a die hold, or those of some of its tiles (R333), are gone. -/
def State.dropTlb (s : State) (who : Nat → Bool) (die : Option Nat) : State :=
  { s with tlb := { leaves := s.tlb.leaves.filter (fun e => !who e.who), tops := s.tlb.tops.filter (fun e => some e.die != die) } }

/-- The content that a domain loses when its supply goes (R502): tile stores and the translations of the tiles, and the
tables of a front end. The shared cache and the stacks of a die lose theirs at park level 3 alone. -/
def State.loseContent (s : State) (d : Nat) : State :=
  if isTileDom d then
    let ts := domTiles d
    (s.clearKeys (fun k => decide (2 ^ 46 ≤ k) && ts.contains ((k - 2 ^ 46) / 2 ^ 25))).dropTlb ts.contains none
  else if isKfeDom d then { s with kfe := { s.kfe with tables := del s.kfe.tables ((d - 7) / 4) } }
  else if isDieDom d then
    let die := (d - 6) / 4
    let s := (s.clearKeys (fun k => decide (k < 2 ^ 46) && k / 2 ^ 40 / 5 == die)).dropTlb (· == 48 + die) (some die)
    { s with cache := s.cache.filter (fun e => e.1 / 2 ^ 32 / 5 != die) }
  else s

/-- A domain set to a state, with what OFF loses. A die writes back its dirty lines before it leaves ON (R304). -/
def State.enterDom (s : State) (d v : Nat) : State :=
  let s := if isDieDom d && s.dom d == Dom.on && v != Dom.on then s.flushDie ((d - 6) / 4) else s
  let s := { s.setDom d v with pwr := { s.pwr with down := del s.pwr.down d } }
  if v = Dom.off then s.loseContent d else s

/-- DOMAIN_STEP_DOWN_DONE (R503, R507): the domain has reached its new state, and a wake held for it is served from
there. -/
def execDomainStepDownDone (d : Fin 20) (s : State) : Host.Outcome State Fault Refusal :=
  .next (match look s.pwr.down d.val with
    | some v => s.enterDom d.val v
    | none => s)

/-! ### Wakes (R503, R506, R507) -/

/-- DOMAIN_WAKE_DONE (R503): the domain is ON. -/
def execDomainWakeDone (d : Fin 20) (s : State) : Host.Outcome State Fault Refusal :=
  .next (if (look s.pwr.wake d.val).isSome ∧ (look s.pwr.down d.val).isNone then s.domUp d.val else s)

/-- The wake time of a domain from its state, in nanoseconds (R503). -/
def State.wakeNs (s : State) (d : Nat) : Nat :=
  if s.dom d = Dom.gated then 1000 else if s.dom d = Dom.retain then 25000 else 300000

/-- A notice about a stack, from its String (R323). -/
def memNtc (code sev n a1 a2 a3 : Nat) : Ntc :=
  { code := code, sev := sev, data := Unit.stack n, ctrl := unitPath (Unit.stack n), a1 := a1, a2 := a2, a3 := a3 }

/-- All channels of a die's stacks are lost, and each is told (R303, R507). -/
def State.loseStacks (s : State) (d : Nat) : State :=
  (s.dieStacks d).foldl (fun s n =>
    let s := { s with rel := { s.rel with
      slots := s.rel.slots.filter (fun e => e.1 / 128 != n), copies := s.rel.copies.filter (fun e => e.1 / 128 != n) } }
    ((List.range 128).filter (fun c => !s.chanLost n c)).foldl (fun s c =>
      let s := s.chanOff n c
      s.raise (memNtc 0x0306 Sev.error n n c (s.lostOn n))) s) s

/-- The removal of a domain's units, once its result agrees (R525). -/
def State.removeUnits (s : State) (d : Nat) : State :=
  let tiles := if isTileDom d then (domTiles d).filter s.tilePresent else []
  let s := { s.wr F.pwrDomStatus_WAKING d 0 with
    pwr := { s.pwr with wake := del s.pwr.wake d, failed := s.pwr.failed ++ [d] } }
  let s := s.raise (dieNtc (domDie d) 0x0202 Sev.error d 2 tiles.length)
  if isTileDom d then tiles.foldl (fun s t => s.dropTile t 0) s
  else if isDieDom d then (s.loseStacks ((d - 6) / 4)).setCause Cse.channel (5 * ((d - 6) / 4) * 256)
  else if isKfeDom d then s.wr F.kfeStatus_UP ((d - 7) / 4) 0
  else s

/-- The units of a domain are removed for this start (R507). The retirement of tiles and of stacks is cross-checked (R29);
one that is not performed is tried again at the next timeout. -/
def State.dropDomain (s : State) (d : Nat) : State :=
  if isKfeDom d then s.removeUnits d
  else match s.crossCheck Act.retire with
    | (false, s) => s
    | (true, s) => s.removeUnits d

/-- WAKE_TIMEOUT (R507): the wake is retried once, and a second failure removes the units. -/
def execWakeTimeout (d : Fin 20) (s : State) : Host.Outcome State Fault Refusal :=
  let n := d.val
  .next (match look s.pwr.wake n with
    | none => s
    | some (t, tries) =>
      if (look s.pwr.down n).isSome ∨ s.ivl - t < 10 * s.wakeNs n then s
      else if tries < 2 then { s with pwr := { s.pwr with wake := put s.pwr.wake n (s.ivl, tries + 1) } }
      else s.dropDomain n)

/-! ### Park levels (R508, R509) -/

/-- The entry condition of a park level (R509). -/
def State.parkOk (s : State) (level : Nat) : Bool :=
  let cur := s.rd F.pwrPark_CURRENT
  let idle := (List.range 16).all (fun c => s.ctxState c == Ctx.idle)
  if level ≤ cur then true
  else if level = 1 then true
  else if level = 2 then decide (cur ≥ 1) && idle
  else decide (cur ≥ 2) && idle &&
    s.regs.all (fun e => e.1 / 1048576 != Reg.beadAttr || bitsOf e.2.toNat 0 2 == BeadSt.free) && s.grants == [] &&
    (List.range 16).all (fun w => s.rd F.netLoanWin_STATE w != 1 && s.rd F.netLoanWin_STATE w != 2)

/-- A write of PWR_PARK.LEVEL (R509), in service. A change that is in progress goes on to the level last written. -/
def State.writePark (s : State) (fn : Fn) (level : Nat) : State :=
  if fn ≠ .pf0 ∨ !s.serving ∨ !s.parkOk level then s
  else
    let s := s.wr F.pwrPark_LEVEL 0 level
    if level = s.rd F.pwrPark_CURRENT ∨ s.flag F.pwrPark_BUSY then s
    else { s.wr F.pwrPark_BUSY 0 1 with pwr := { s.pwr with parkFrom := s.rd F.pwrPark_CURRENT, parkAt := s.ivl } }

/-- PARK_LEVEL_WRITE (R509). -/
def execParkLevelWrite (fn : Fn) (level : BitVec 2) (s : State) : Host.Outcome State Fault Refusal :=
  .next (s.writePark fn level.toNat)

/-- The network goes off (R508): connections close, ports go down, and the time source is gone. -/
def State.netOff (s : State) : State :=
  let s := ((List.range 4096).filter (fun c => s.connKind c != 0)).foldl State.closeConn s
  let s := (List.range 12).foldl (fun s p => (s.wr F.netPortStatus_UP0 p 0).wr F.netPortStatus_UP1 p 0) s
  s.loseSource.setDom 2 Dom.off

/-- The die domains, tile groups and front ends. -/
def coreDoms : List Nat := (List.range 16).map (· + 4)

/-- The stacks go off, with tile groups and front ends (R508): their contents and the values of beads are gone. -/
def State.stacksOff (s : State) : State :=
  let s := coreDoms.foldl (fun s d => s.enterDom d Dom.off) s
  { s with regs := s.regs.filter (fun e => e.1 / 1048576 != Reg.beadValue), pwr := { s.pwr with wake := [] } }

/-- The stacks return: their domains are ON, their content zero (R509, R313). -/
def State.stacksOn (s : State) : State :=
  (coreDoms.filter isDieDom).foldl (fun s d => if s.pwr.failed.contains d then s else s.domUp d) s

/-- A change of park level takes effect (R508). -/
def State.parkTo (s : State) (level : Nat) : State :=
  let cur := s.rd F.pwrPark_CURRENT
  let s := if cur = 0 ∧ level ≥ 1 then s.netOff else s
  let s := if cur < 3 ∧ level = 3 then s.stacksOff else s
  let s := if cur = 3 ∧ level < 3 then s.stacksOn else s
  if cur ≥ 1 ∧ level = 0 then s.setDom 2 Dom.on else s

/-- Work that has come in since the write of the level keeps a tile group or a front end on, and with it the change to
level 3 (R31). -/
def State.parkHeld (s : State) : Bool :=
  s.rd F.pwrPark_LEVEL == 3 && (coreDoms.filter (fun d => !isDieDom d && s.domFitted d)).any (fun d => !s.domIdle d)

/-- PARK_COMPLETE (R509, R514): a change waits for the wakes that were under way, and for the tiles that are at work. -/
def execParkComplete (s : State) : Host.Outcome State Fault Refusal :=
  .next (
    if !s.flag F.pwrPark_BUSY ∨ s.pwr.wake ≠ [] ∨ s.parkHeld then s
    else
      let level := s.rd F.pwrPark_LEVEL
      let s := ((s.parkTo level).wr F.pwrPark_CURRENT 0 level).wr F.pwrPark_BUSY 0 0
      s.raise (hubNtc 0x0203 Sev.info level s.pwr.parkFrom ((s.ivl - s.pwr.parkAt) / 1000000 % 2 ^ 32)))

/-! ### The governor (R510) and thermal throttling (R512) -/

/-- The issue rate of a die in sixteenths: the lower of the governor's and its own. -/
def State.dieRate (s : State) (d : Nat) : Nat := min s.pwr.rate (lookD s.pwr.therm d 16)

/-- PWR_READING.DUTY and THERMAL from the rates. -/
def State.tellDuty (s : State) : State :=
  (s.wr F.pwrReading_DUTY 0 ((List.range 4).map s.dieRate |>.foldl min 16)).wr F.pwrReading_THERMAL 0
    (b2n ((List.range 4).any (fun d => lookD s.pwr.therm d 16 < 16)))

/-- PWR_THROTTLE, at most once per second per cause (R516). -/
def State.tellThrottle (s : State) (cause : Nat) (die : Option Nat) : State :=
  let (due, s) := s.oncePerSecond (2000 + cause)
  if due then s.raise (dieNtc die 0x0201 Sev.warn cause (s.rd F.pwrReading_DUTY) (die.getD 0xF)) else s

/-- The average of power samples, in watts. -/
def avgW (l : List Nat) : Nat := if l = [] then 0 else l.sum / l.length / 1000

/-- Energy in millijoules (R515). -/
def State.addEnergy (s : State) (mw : Nat) : State :=
  let e := s.pwr.energy + mw
  { (s.wr F.pwrEnergy_MJ 0 (s.rd F.pwrEnergy_MJ + e / 100000)) with pwr := { s.pwr with energy := e % 100000 } }

/-- The runs of measurements above the limit: where one begins and where the last ended. -/
def State.trackRun (s : State) (above : Bool) : State :=
  match s.pwr.excAt, above with
  | none, true => { s with pwr := { s.pwr with excAt := some s.ivl } }
  | some _, false => { s with pwr := { s.pwr with excAt := none, excEnd := some s.ivl } }
  | _, _ => s

/-- The excursion rules of R510 call for throttling: a run has lasted 10 ms, or follows another too closely. -/
def State.runTooLong (s : State) : Bool :=
  match s.pwr.excAt with
  | none => false
  | some t => decide (s.ivl - t ≥ 10000000) || (match s.pwr.excEnd with
    | some e => decide (t - e < 90000000)
    | none => false)

/-- The limit that a measurement calls on: 2 LIMIT_W, 1 peak or excursion, 0 sustained. -/
def State.powerCause (s : State) : Option Nat :=
  let p := s.rd F.pwrReading_P_1MS
  let lim := s.rd F.pwrCap_LIMIT_W
  if lim ≠ 0 ∧ p > lim then some 2
  else if p > s.rd F.pwrCap_PEAK_W ∨ s.runTooLong then some 1
  else if s.rd F.pwrReading_P_1S > s.rd F.pwrCap_SUSTAINED_W then some 0
  else none

/-- The governor's next rate: by how many steps it moves is a free number; down while a limit calls for it, else up. -/
def State.govern (s : State) (cause : Option Nat) : State :=
  let (v, s) := s.fresh
  let r := s.pwr.rate
  let n := match cause with
    | some _ => if r ≤ 1 then 1 else 1 + v.toNat % (r - 1)
    | none => r + v.toNat % (17 - r)
  { s with pwr := { s.pwr with rate := n } }.tellDuty

/-- The power measurements of this moment (R510, R515). -/
def State.measure (s : State) (mw : Nat) : State :=
  let l := (mw :: s.pwr.s1).take 100000
  let s := { s with pwr := { s.pwr with s1 := l } }.addEnergy mw
  let s := (s.wr F.pwrReading_P_1MS 0 (min 65535 (avgW (l.take 100)))).wr F.pwrReading_P_1S 0 (min 65535 (avgW l))
  let base := if s.rd F.pwrCap_LIMIT_W = 0 then s.rd F.pwrCap_SUSTAINED_W else s.rd F.pwrCap_LIMIT_W
  let above := decide (s.rd F.pwrReading_P_1MS > base)
  (s.wr F.pwrReading_EXCURSION 0 (b2n above)).trackRun above

/-- POWER_SAMPLE (R510). -/
def execPowerSample (mw : BitVec 32) (s : State) : Host.Outcome State Fault Refusal :=
  .next (
    if s.dev = Dev.off then s
    else
      let s := s.measure mw.toNat
      let cause := s.powerCause
      let s := s.govern cause
      match cause with
      | some k => s.tellThrottle k none
      | none => s)

/-- The hottest junction of a die as last read (R515): 0 to 3, or 4 for the hub. -/
def tempFld : Nat → Fld
  | 0 => F.pwrTemp_D0
  | 1 => F.pwrTemp_D1
  | 2 => F.pwrTemp_D2
  | 3 => F.pwrTemp_D3
  | _ => F.pwrTemp_H

/-- A temperature read. -/
def State.readTemp (s : State) (die temp : Nat) : State :=
  (s.wr (tempFld die) 0 temp).wr F.pwrTemp_PEAK 0 (max (s.rd F.pwrTemp_PEAK) temp)

/-- A die's own rate changes by one step. -/
def State.setTherm (s : State) (d r : Nat) : State :=
  { s with pwr := { s.pwr with therm := if r = 16 then del s.pwr.therm d else put s.pwr.therm d r,
                               thermAt := put s.pwr.thermAt d s.ivl } }.tellDuty

/-- THERMAL_THROTTLE_STEP (R512): one step down per 100 µs at THROTTLE_C or more, one up per 1 ms at 3 °C below it. The
hub has no tiles. -/
def execThermalThrottleStep (die : Fin 5) (temp : BitVec 8) (s : State) : Host.Outcome State Fault Refusal :=
  let d := die.val
  let t := temp.toNat
  .next (
    if s.dev = Dev.off then s
    else
      let s := s.readTemp d t
      let due (ns : Nat) : Bool := match look s.pwr.thermAt d with
        | some a => decide (s.ivl - a ≥ ns)
        | none => true
      let r := lookD s.pwr.therm d 16
      let lim := s.rd F.pwrCap_THROTTLE_C
      if d = 4 then s
      else if t ≥ lim ∧ due 100000 then (s.setTherm d (max 1 (r - 1))).tellThrottle 3 (some d)
      else if t + 3 ≤ lim ∧ r < 16 ∧ due 1000000 then s.setTherm d (r + 1)
      else s)

/-- THERMAL_TRIP (R512): every domain but PD00, PD01 and PD03 goes OFF, and only a cold reset leaves HALTED. -/
def execThermalTrip (die : Fin 5) (temp : BitVec 8) (s : State) : Host.Outcome State Fault Refusal :=
  .next (
    if s.dev = Dev.off ∨ temp.toNat < 110 then s
    else
      let s := { (s.readTemp die.val temp.toNat) with
        pins := { s.pins with thermtrip := true }, mem := [], ecc := [], cache := [], tlb := {}, beadMap := [], rings := [], kfe := {},
        pwr := { s.pwr with idle := [], down := [], wake := [] } }
      let s := (2 :: coreDoms).foldl (fun s d => (s.setDom d Dom.off).wr F.pwrDomStatus_WAKING d 0) s
      let s := (s.halt 3).lifeAdd 36 4 1
      s.raise (dieNtc (if die.val < 4 then some die.val else none) 0x0204 Sev.fatal die.val temp.toNat 0))

end Sys2Proof.Machine
end

