-- ==== Sys2Proof/Machine/Blob.lean ====
section
/-!
DEFINITION. The configuration blob (R481 to R485): its sections and items, the checks of R487 with their findings, and
the application of its register images and named items (R494).
-/
namespace Sys2Proof.Machine

/-- The area of an image that holds the blob, or a blob read from the host: a run of bytes. -/
abbrev blobMax : Nat := 16 * 2 ^ 20

/-! ### Header and commit record: checks 1 to 4 -/

def blobBytes (b : List Byte) : Nat := fieldAt b 8 0 64
def blobSeq (b : List Byte) : Nat := fieldAt b (blobBytes b - 64 + 8) 0 64
def blobDigest (b : List Byte) : List Byte := slice b (blobBytes b - 32) 32
def blobMajor (b : List Byte) : Nat := fieldAt b 4 0 16
def blobMinor (b : List Byte) : Nat := fieldAt b 6 0 16

/-- MAGIC and BLOB_BYTES are right (R481). -/
def blobHeadOk (b : List Byte) : Bool :=
  fieldAt b 0 0 32 == 0x43584247 && blobBytes b % 16 == 0 && decide (128 ≤ blobBytes b ∧ blobBytes b ≤ blobMax)

/-- The commit record is there (R485). -/
def blobMarked (b : List Byte) : Bool :=
  fieldAt b (blobBytes b - 64) 0 16 == 0xFFFF && fieldAt b (blobBytes b - 48) 0 64 == blobBytes b

/-- BLOB_BYTES is right and the bytes are there, so that the commit record and the sections can be found. -/
def blobSized (b : List Byte) : Bool :=
  blobBytes b % 16 == 0 && decide (128 ≤ blobBytes b ∧ blobBytes b ≤ blobMax ∧ blobBytes b ≤ b.length)

/-- Those of checks 1 to 4 that fail, in their order; `host` leaves out check 1 (R492). An erased area holds nothing that
the others could check, and checks 3 and 4 need BLOB_BYTES (R487, log entry 82). -/
def blobFails (b : List Byte) (host : Bool) : List Nat :=
  if !host && (slice b 0 64).all (· == 0xFF) then [1]
  else (if blobHeadOk b && blobSized b then [] else [2]) ++ (if !blobSized b then [] else
    (if blobMarked b then [] else [3]) ++ (if sha3 (slice b 0 (blobBytes b - 32)) == blobDigest b then [] else [4]))

/-- The first of checks 1 to 4 that fails. -/
def blobTorn (b : List Byte) (host : Bool) : Option Nat := (blobFails b host).head?

/-- The blob area of an image, as far as its own length goes. -/
def Nvm.blobCopy (n : Nvm) : List Byte :=
  let head := n.get Area.blob 64
  n.get Area.blob (if blobHeadOk head then blobBytes head else 64)

/-! ### Sections and items (R482, R483) -/

structure Sect where
  off : Nat
  typ : Nat
  version : Nat
  len : Nat
  clean : Bool
  deriving DecidableEq, Repr

structure CfgItem where
  sec : Nat
  off : Nat
  key : Nat
  index : Nat
  arg : Nat
  value : Nat
  deriving DecidableEq, Repr

/-- The sections from an offset up to the commit record, and whether they end there; a section that does not fit inside
the blob ends the list. -/
def sections (b : List Byte) : Nat → Nat → List Sect × Option Nat
  | 0, off => ([], some off)
  | f + 1, off =>
    let stop := blobBytes b - 64
    if off = stop then ([], none)
    else
      let s : Sect := { off := off, typ := fieldAt b off 0 16, version := fieldAt b (off + 2) 0 16,
                        len := fieldAt b (off + 4) 0 32, clean := zeroAt b (off + 8) (off + 16) }
      if off + 16 + s.len > stop ∨ s.len % 16 ≠ 0 then ([], some off)
      else
        let (l, e) := sections b f (off + 16 + s.len)
        (s :: l, e)

def blobSections (b : List Byte) : List Sect × Option Nat := sections b (blobBytes b / 16) 64

/-- The items of a section. -/
def sectItems (b : List Byte) (s : Sect) : List CfgItem :=
  (List.range (s.len / 16)).map (fun i =>
    let o := s.off + 16 + 16 * i
    { sec := s.typ, off := o, key := fieldAt b o 0 16, index := fieldAt b (o + 2) 0 16, arg := fieldAt b (o + 4) 0 32,
      value := fieldAt b (o + 8) 0 64 })

/-- The items that the device reads: those of the sections of R482. -/
def blobItems (b : List Byte) : List CfgItem :=
  ((blobSections b).1.filter (fun s => 1 ≤ s.typ && s.typ ≤ 10)).flatMap (sectItems b)

/-! ### Register images (R483) -/

/-- The register of a register image, when its section may name it (R482). -/
def State.imageReg (s : State) (it : CfgItem) : Option (Nat × Nat) :=
  if it.key ≠ 0xFFFF ∨ it.arg % 8 ≠ 0 then none
  else match s.pf0Spot it.arg with
    | .reg r i =>
      let ok := match it.sec with
        | 2 => r == Reg.netFabricCfg || r == Reg.netVerCeiling || r == Reg.netLendCfg || r == Reg.netConnTable
        | 3 => r == Reg.netPortCfg
        | 4 => ((r == Reg.queCfg || r == Reg.queNotify) && decide (i ≤ 16)) || r == Reg.ctxSched
        | 5 => r == Reg.memRegionCfg || r == Reg.memReserve
        | 6 => r == Reg.pwrIdle || r == Reg.pwrCap
        | 7 => r == Reg.kfeLimits || r == Reg.kfeLiveCfg || r == Reg.kfeLiveBuf
        | _ => false
      if ok then some (r, i) else none
    | _ => none

/-- Eight ASCII bytes. -/
def ascii8 (v : Nat) : Bool := (natLE 8 v).all (fun b => decide (b.toNat < 128))

/-- The named items of a section with the values of INDEX and VALUE that each allows (R484): `none` for a key that is not
listed, else the range. -/
def namedRange (it : CfgItem) : Option Bool :=
  let p := it.index % 256 < 24
  let pre (m : Nat) : Bool := p && it.index / 256 ≤ m
  let v := it.value
  let one := it.index == 0
  match it.sec, it.key with
  | 1, 1 => some (one && decide (v < 2 ^ 48))
  | 1, 2 => some (pre 32)
  | 1, 3 => some (pre 128)
  | 1, 4 => some (pre 128)
  | 1, 5 => some (decide (it.index < 24))
  | 1, 6 => some (decide (it.index < 24))
  | 1, 7 => some (decide (it.index < 4) && ascii8 v)
  | 2, 1 => some (decide (it.index < 16 ∧ v < 2 ^ 32))
  | 2, 2 => some (decide (it.index < 16))
  | 2, 3 => some (decide (it.index < 16))
  | 2, 4 => some (decide (it.index < 16 ∧ v < 2 ^ 19))
  | 2, 5 => some (one && decide (v ≤ 3600))
  | 4, 1 => some (decide (it.index < 16 ∧ v ≤ 2))
  | 4, 2 => some (decide (it.index < 16 ∧ v ≤ 1))
  | 4, 3 => some (one && decide (v = 0 ∨ (17 ≤ v ∧ v ≤ 255)))
  | 4, 4 => some (one && decide (10 ≤ v ∧ v ≤ 60000))
  | 5, 1 => some (one && decide (1 ≤ v ∧ v < 2 ^ 32))
  | 8, 1 => some (one && decide (v ≤ 1))
  | 8, 2 => some (decide (it.index < 4))
  | 8, 3 => some (one && decide (v ≤ 1))
  | 9, 1 => some (one && decide (v ≤ 1))
  | 9, 2 => some (one && decide (v ≤ 1))
  | 10, 1 => some (decide (it.index < 4) && ascii8 v)
  | _, _ => none

/-- A field's bits of a register word. -/
def Fld.of (f : Fld) (v : Nat) : Nat := bitsOf v f.lo f.width

/-- The bits of a register that an image may set. -/
def imageMask (r : Nat) : Nat :=
  (regFields r).foldl (fun a f => if f.acc = .rw ∨ f.acc = .rwl then a + maxOf f.width <<< f.lo else a) 0

/-- The range of a live stream's queue, or of a queue's ring, and the rest of the ranges of check 11 by register. -/
def State.fieldsOk (s : State) (r v : Nat) : Bool :=
  v &&& imageMask r == v &&
  (if r = Reg.netFabricCfg then decide (2 ≤ F.netFabricCfg_LOSS_TIMEOUT.of v ∧ F.netFabricCfg_LOSS_TIMEOUT.of v ≤ 1000)
  else if r = Reg.netConnTable then decide (v + 2 ^ 18 ≤ s.stackTop)
  else if r = Reg.netPortCfg then
    decide (F.netPortCfg_MODE.of v ≤ 2) && decide (1500 ≤ F.netPortCfg_MTU.of v ∧ F.netPortCfg_MTU.of v ≤ 9216)
  else if r = Reg.queCfg then
    let n := F.queCfg_RING_LOG2.of v
    let a := F.queCfg_RING_BASE.of v * 65536
    decide (16 ≤ n ∧ n ≤ 26) && a % 2 ^ n == 0 && decide (a + 2 ^ n ≤ s.stackTop) && F.queCfg_PUT_EN.of v == 0
  else if r = Reg.queNotify then F.queNotify_MODE.of v != 3 && F.queNotify_DB_ADDR.of v % 8 == 0
  else if r = Reg.memRegionCfg then
    decide (F.memRegionCfg_MODE.of v ≤ 4 ∧ F.memRegionCfg_RADIUS.of v ≤ 4) &&
    (F.memRegionCfg_VALID.of v == 0 || F.memRegionCfg_SHARE.of v != 0)
  else if r = Reg.pwrIdle then
    decide (1 ≤ F.pwrIdle_GATE_AFTER_US.of v ∧ F.pwrIdle_GATE_AFTER_US.of v ≤ F.pwrIdle_RETAIN_AFTER_US.of v) &&
    F.pwrIdle_KFE_OFF_AFTER_MS.of v != 0
  else if r = Reg.pwrCap then
    let su := F.pwrCap_SUSTAINED_W.of v
    let l := F.pwrCap_LIMIT_W.of v
    decide (1000 ≤ su ∧ su ≤ 3200 ∧ su ≤ F.pwrCap_PEAK_W.of v ∧ F.pwrCap_PEAK_W.of v ≤ 3600) &&
    decide (l = 0 ∨ (1000 ≤ l ∧ l ≤ su)) && decide (85 ≤ F.pwrCap_THROTTLE_C.of v ∧ F.pwrCap_THROTTLE_C.of v ≤ 104)
  else if r = Reg.kfeLimits then F.kfeLimits_EXPANSION_MAX.of v != 0
  else if r = Reg.kfeLiveCfg then F.kfeLiveCfg_ENABLE.of v == 0 || decide (17 ≤ F.kfeLiveCfg_QUEUE.of v)
  else if r = Reg.kfeLiveBuf then decide (F.kfeLiveBuf_BASE.of v * 65536 < s.stackTop)
  else true)

/-! ### A configuration to be checked: register words, each with the place that set it -/

structure Img where
  reg : Nat
  idx : Nat
  word : Nat
  sec : Nat := 0
  off : Nat := 0
  key : Nat := 0
  index : Nat := 0
  arg : Nat := 0
  deriving DecidableEq, Repr

/-- The register images of a blob that count: the last of each register (R483), in the order of the items. -/
def State.blobImgs (s : State) (items : List CfgItem) : List Img :=
  let all := items.filterMap (fun it => (s.imageReg it).map (fun p =>
    ({ reg := p.1, idx := p.2, word := it.value, sec := it.sec, off := it.off, key := it.key, index := it.index,
       arg := it.arg } : Img)))
  all.filter (fun a => !all.any (fun b => b.reg == a.reg && b.idx == a.idx && decide (a.off < b.off)))

/-- The registers as they stand, for the checks at the end of BRINGUP (R494). -/
def State.regImgs (s : State) : List Img :=
  (s.regs.filter (fun e => e.2 != resetWord (e.1 / 1048576) && !s.unitGone (e.1 / 1048576) (e.1 % 1048576) &&
      [Reg.netFabricCfg, Reg.netVerCeiling, Reg.netLendCfg, Reg.netConnTable, Reg.netPortCfg, Reg.queCfg, Reg.queNotify,
       Reg.memRegionCfg, Reg.memReserve, Reg.pwrIdle, Reg.pwrCap, Reg.kfeLimits, Reg.kfeLiveCfg, Reg.kfeLiveBuf].contains (e.1 / 1048576) &&
      (e.1 / 1048576 != Reg.queCfg || decide (e.1 % 1048576 ≤ 16)))).map
    (fun e => { reg := e.1 / 1048576, idx := e.1 % 1048576, word := e.2.toNat &&& imageMask (e.1 / 1048576) })

def imgAt (l : List Img) (r i : Nat) : Option Img := l.find? (fun a => a.reg == r && a.idx == i)
/-- The word of a register in the configuration; its default where nothing sets it. -/
def imgWord (l : List Img) (r i : Nat) : Nat :=
  match imgAt l r i with
  | some a => a.word
  | none => (resetWord r).toNat
def imgsOf (l : List Img) (r : Nat) : List Img := l.filter (fun a => a.reg == r)

def Img.finding (a : Img) (copy reason detail : Nat) : Finding :=
  { reason := reason, copy := copy, section_ := a.sec, offset := a.off, key := a.key, index := a.index, detail := detail }

/-- A region of the configuration, from its register word. -/
structure Reg9 where
  mode : Nat
  base : Nat
  share : Nat
  sbase : Nat
  size : Nat
  deriving DecidableEq, Repr

def State.regionOfWord (s : State) (v : Nat) : Reg9 :=
  let m := F.memRegionCfg_MODE.of v
  let sh := F.memRegionCfg_SHARE.of v
  { mode := m, base := F.memRegionCfg_BASE.of v * 2 ^ 28, share := sh, sbase := F.memRegionCfg_STACK_BASE.of v,
    size := sh * 2 ^ 28 * (if m = 0 then 4 * s.stacksPerDie else s.stacksPerDie) }

/-- The valid regions of the configuration. -/
def validRegions (l : List Img) : List Img := (imgsOf l Reg.memRegionCfg).filter (fun a => F.memRegionCfg_VALID.of a.word == 1)

/-- Check 11 (ITEM_RANGE) for register words. -/
def State.rangeFindings (s : State) (copy : Nat) (l : List Img) : List Finding :=
  (l.filter (fun a => !s.fieldsOk a.reg a.word)).map (fun a => a.finding copy 11 a.arg)

/-- Check 12 (VARIANT): a port that is absent, a region beyond the stack range, a live stream without a front end. -/
def State.variantBad (s : State) (a : Img) : Bool :=
  if a.reg = Reg.netPortCfg then !s.portFitted a.idx && F.netPortCfg_MODE.of a.word != 0
  else if a.reg = Reg.memRegionCfg then
    F.memRegionCfg_VALID.of a.word == 1 && decide ((s.regionOfWord a.word).base + (s.regionOfWord a.word).size > s.stackTop)
  else if a.reg = Reg.kfeLiveCfg then F.kfeLiveCfg_ENABLE.of a.word == 1 && !(List.range 4).any s.kfeFitted
  else false

def State.variantFindings (s : State) (copy : Nat) (l : List Img) : List Finding :=
  (l.filter s.variantBad).map (fun a => a.finding copy 12 a.arg)

/-- Two regions overlap in physical addresses, or in offsets of a stack that they share. -/
def regionsMeet (x y : Reg9) : Bool :=
  decide (x.base < y.base + y.size ∧ y.base < x.base + x.size) ||
  ((x.mode == 0 || y.mode == 0 || x.mode == y.mode) && decide (x.sbase < y.sbase + y.share ∧ y.sbase < x.sbase + x.share))

/-- The physical ranges of check 13 beside the regions: live buffers, queue rings, the connection table, the loan region. -/
def State.imgRange (_s : State) (l : List Img) (a : Img) : Option (Nat × Nat) :=
  let v := a.word
  if a.reg = Reg.kfeLiveCfg then
    if F.kfeLiveCfg_ENABLE.of v = 1 then
      some (F.kfeLiveBuf_BASE.of (imgWord l Reg.kfeLiveBuf a.idx) * 65536,
        F.kfeLiveCfg_FRAME_SLOTS.of v * F.kfeLiveCfg_FRAME_MAX_KIB.of v * 1024)
    else none
  else if a.reg = Reg.queCfg then
    if F.queCfg_ENABLE.of v = 1 then some (F.queCfg_RING_BASE.of v * 65536, 2 ^ F.queCfg_RING_LOG2.of v) else none
  else if a.reg = Reg.netConnTable then some (v, 2 ^ 18)
  else if a.reg = Reg.netLendCfg then
    if F.netLendCfg_ENABLE.of v = 1 then some (F.netLendCfg_BASE_GIB.of v * 2 ^ 30, F.netLendCfg_SIZE_GIB.of v * 2 ^ 30) else none
  else none

def State.imgsMeet (s : State) (l : List Img) (a b : Img) : Bool :=
  if a.reg = Reg.memRegionCfg ∧ b.reg = Reg.memRegionCfg then
    F.memRegionCfg_VALID.of a.word == 1 && F.memRegionCfg_VALID.of b.word == 1 &&
    regionsMeet (s.regionOfWord a.word) (s.regionOfWord b.word)
  else match s.imgRange l a, s.imgRange l b with
    | some x, some y => decide (x.1 < y.1 + y.2 ∧ y.1 < x.1 + x.2)
    | _, _ => false

/-- Check 13 (OVERLAP): each conflict is found at its later item. -/
def State.overlapFindings (s : State) (copy : Nat) : List Img → List Img → List Finding
  | _, [] => []
  | all, a :: rest =>
    ((rest.filter (fun b => s.imgsMeet all a b)).map (fun b => b.finding copy 13 a.off)) ++ s.overlapFindings copy all rest

/-- The conflicting item of a CROSS finding: the item that sets a register, or offset 0. -/
def crossOff (l : List Img) (r i : Nat) : Nat := match imgAt l r i with | some b => b.off | none => 0

/-- The loan region lies wholly within one valid region (R468). -/
def State.loanInside (s : State) (l : List Img) (v : Nat) : Bool :=
  let lo := F.netLendCfg_BASE_GIB.of v * 2 ^ 30
  let hi := lo + F.netLendCfg_SIZE_GIB.of v * 2 ^ 30
  (validRegions l).any (fun r => decide ((s.regionOfWord r.word).base ≤ lo ∧ hi ≤ (s.regionOfWord r.word).base + (s.regionOfWord r.word).size))

/-- The capacity of a live stream's queue: queues above 16 stand as their registers do (R397, R439). -/
def State.liveCap (s : State) (q : Nat) : Nat := s.queCap q

/-- Check 14 (CROSS) for one register word: whether it fails, and the conflicting register. -/
def State.crossBad (s : State) (l : List Img) (a : Img) : Option Nat :=
  let v := a.word
  if a.reg = Reg.memRegionCfg then
    let r := s.regionOfWord v
    if F.memRegionCfg_VALID.of v = 1 ∧ r.sbase + r.share + F.memReserve_PER_STACK.of (imgWord l Reg.memReserve 0) > 384 then
      some (crossOff l Reg.memReserve 0) else none
  else if a.reg = Reg.kfeLiveCfg then
    if F.kfeLiveCfg_ENABLE.of v = 1 ∧ F.kfeLiveCfg_FRAME_SLOTS.of v < s.liveCap (F.kfeLiveCfg_QUEUE.of v) + 1 then some 0 else none
  else if a.reg = Reg.netVerCeiling then
    if (List.range 6).all (fun i => let c := bitsOf v (4 * i) 4
        c == 0 || decide ((verRange i).1 ≤ c ∧ c ≤ (verRange i).2)) then none else some 0
  else if a.reg = Reg.netLendCfg then if F.netLendCfg_ENABLE.of v = 1 ∧ !s.loanInside l v then some 0 else none
  else if a.reg = Reg.memReserve then
    if (List.range 4).all (fun d => decide ((s.slotsUsed d).length ≤ (s.dieStacks d).length * F.memReserve_PER_STACK.of v / 3)) then none
    else some 0
  else none

def State.crossFindings (s : State) (copy : Nat) (l : List Img) : List Finding :=
  l.filterMap (fun a => (s.crossBad l a).map (a.finding copy 14))

/-- Checks 12 to 14 over a configuration, in their order. -/
def State.unitFindings (s : State) (copy : Nat) (l : List Img) : List Finding :=
  s.variantFindings copy l ++ s.overlapFindings copy l l ++ s.crossFindings copy l

/-! ### The checks of a blob (R487) -/

/-- Checks 5 to 9: schema, layout, versions, sections. -/
def State.layoutFindings (s : State) (copy : Nat) (b : List Byte) : List Finding :=
  let f (reason sec off : Nat) : Finding := { reason := reason, copy := copy, section_ := sec, offset := off }
  let (ss, stop) := blobSections b
  let end_ := blobBytes b - 64
  let late := (ss.zipIdx.filter (fun e => e.2 != 0 && decide (e.1.typ ≤ ((ss[e.2 - 1]?).map (·.typ)).getD 0))).map (·.1)
  (if blobMajor b = s.sec.fwMajor ∧ blobMinor b ≤ s.sec.fwMinor then [] else [f 5 0 0]) ++
  (if zeroAt b 24 64 then [] else [f 6 0 0]) ++
  (ss.filter (fun t => !t.clean || late.contains t)).map (fun t => f 6 t.typ t.off) ++
  (match stop with | some o => [f 6 (fieldAt b o 0 16) o] | none => []) ++
  (if zeroAt b (end_ + 2) (end_ + 8) && zeroAt b (end_ + 24) (end_ + 32) then [] else [f 6 0 end_]) ++
  (ss.filter (fun t => 1 ≤ t.typ && t.typ ≤ 10 && !Config.sectionKnown (blobMinor b) t.typ t.version)).map (fun t => f 7 t.typ t.off) ++
  ([1, 2, 3, 4, 5, 8].filter (fun n => ss.all (fun t => t.typ != n))).map (fun n => f 8 n 0) ++
  (ss.filter (fun t => (11 ≤ t.typ && t.typ ≤ 0x7FFF) || t.typ == 0xFFFF)).map (fun t => f 9 t.typ t.off)

def CfgItem.finding (it : CfgItem) (copy reason : Nat) : Finding :=
  { reason := reason, copy := copy, section_ := it.sec, offset := it.off, key := it.key, index := it.index,
    detail := if it.key = 0xFFFF then it.arg else 0 }

/-- Check 10 (ITEM_KEY): a key that R484 does not list, an ARG that is not 0, a register that the section may not name. -/
def State.keyBad (s : State) (it : CfgItem) : Bool :=
  if it.key = 0xFFFF then (s.imageReg it).isNone else (namedRange it).isNone || it.arg != 0

/-- Check 11 for one item. -/
def State.rangeBad (s : State) (it : CfgItem) : Bool :=
  match s.imageReg it with
  | some (r, _) => !s.fieldsOk r it.value
  | none => it.key != 0xFFFF && namedRange it == some false

/-- Checks 5 to 14 of a whole blob. -/
def State.blobFindings (s : State) (copy : Nat) (b : List Byte) : List Finding :=
  let items := blobItems b
  (s.layoutFindings copy b ++ (items.filter s.keyBad).map (fun it => it.finding copy 10) ++
    (items.filter s.rangeBad).map (fun it => it.finding copy 11) ++ s.unitFindings copy (s.blobImgs items)).take 64

/-- The findings of checks 1 to 4. -/
def tornFindings (copy : Nat) (b : List Byte) (host : Bool) : List Finding :=
  (blobFails b host).map (fun r => { reason := r, copy := copy, section_ := 0, offset := if r ≤ 2 then 0 else blobBytes b - 64 })

/-- All checks that apply to a blob read from the host: 2 to 14 (R492). -/
def State.hostFindings (s : State) (b : List Byte) : List Finding :=
  (tornFindings 2 b true ++ (if blobSized b then s.blobFindings 2 b else [])).take 64

/-- HUB_CFG_DIAG from the findings (R489). -/
def State.tellFindings (s : State) (fs : List Finding) : State :=
  let s := { s with start := { s.start with findings := fs } }
  match fs with
  | [] => s
  | f :: _ =>
    let s := (s.wr F.hubCfgDiag_REASON 0 f.reason).wr F.hubCfgDiag_COPY 0 f.copy
    let s := (s.wr F.hubCfgDiag_FINDINGS 0 (min 63 fs.length)).wr F.hubCfgDiag_SECTION 0 f.section_
    s.wr F.hubCfgDiag_OFFSET 0 f.offset

/-- A finding as DIAG FINDINGS returns it (R490). -/
def Finding.bytes (f : Finding) : List Byte :=
  natLE 1 f.reason ++ natLE 1 (f.copy % 4) ++ natLE 2 f.section_ ++ natLE 4 f.offset ++ natLE 2 f.key ++
  natLE 2 f.index ++ natLE 4 f.detail

/-! ### Application (R494) -/

/-- The images and items of a blob take effect, in item order. The connection table is named later (R452). -/
def State.applyBlob (s : State) (b : List Byte) : State :=
  let items := blobItems b
  let s := items.foldl (fun s it => match s.imageReg it with
    | some (r, i) =>
      if r = Reg.netConnTable then s.setReg r i (BitVec.ofNat 64 (bitsOf it.value 12 36 * 4096))
      else if s.unitGone r i then s else s.regWrite .pf0 true r i it.value
    | none => s) s
  let named := (items.filter (fun it => it.key != 0xFFFF)).map (fun it => (it.sec, it.key, it.index, it.value))
  let s := (s.wr F.hubState_CFG_SEQ 0 (blobSeq b % 2 ^ 32))
  { s with start := { s.start with
      items := named.reverse, seq := blobSeq b, digest := blobDigest b, schemaMajor := blobMajor b, schemaMinor := blobMinor b,
      blob := slice b 0 (blobBytes b) } }

end Sys2Proof.Machine
end

