-- ==== Sys2Proof/Machine/Repair.lean ====
section
/-!
DEFINITION. Repairs of the stacks (R299 to R303): spare lanes, retired and lost channels, the copy of a retiring channel,
and the retraining of channel groups.
-/
namespace Sys2Proof.Machine

/-- The detail of a CHANNEL cause (R541). -/
def chanDetail (n c : Nat) : Nat := 256 * n + c

/-- A channel whose die has no free slot is lost (R303). -/
def State.loseChannel (s : State) (n c : Nat) : State :=
  let s := (s.chanOff n c).lifeAdd (lifeEvent 2) 8 1
  let s := s.raise (memNtc 0x0306 Sev.error n n c (s.lostOn n))
  (s.writeRecord 4 n c 0 0).setCause Cse.channel (chanDetail n c)

/-- The lowest slot of a die that is not in use. -/
def State.freeSlot (s : State) (d : Nat) : Option Nat := (List.range (s.slotsOf d)).find? (fun k => !(s.slotsUsed d).contains k)

/-! ### The copy of a retiring channel (R301) -/

/-- A key of memory is that of a byte of channel `c` of stack `n`, below the reserve, in one of the pieces of a set. -/
def State.onPieces (s : State) (n c : Nat) (ps : Nat → Bool) (key : Nat) : Bool :=
  let o := key % 2 ^ 40
  decide (key < 2 ^ 46 ∧ o < (384 - s.rd F.memReserve_PER_STACK 0) * 2 ^ 28) && key / 2 ^ 40 == n && chanOf o == c && ps (pieceOf o)

/-- A key of memory is that of a byte of a die's slot that belongs to one of the pieces of a set: the other way round of
`reserveKey`. -/
def State.inSlot (s : State) (d slot : Nat) (ps : Nat → Bool) (key : Nat) : Bool :=
  let m := s.stacksPerDie
  let base := (384 - s.rd F.memReserve_PER_STACK 0) * 2 ^ 28
  let o := key % 2 ^ 40 - base
  let r := o / 2048 * m + key / 2 ^ 40 % 5
  decide (key < 2 ^ 46 ∧ base ≤ key % 2 ^ 40 ∧ key / 2 ^ 40 % 5 < m) && key / 2 ^ 40 / 5 == d && r / 393216 == slot &&
    ps ((r % 393216 * 2048 + o % 2048) / 2 ^ 21)

/-- A granule as it is written into the slot: the failed lane's four symbols are erasures, which leaves up to two further
symbol errors to correct; one that cannot be decoded is written poisoned. -/
def Gran.copied (g : Gran) (lane : Nat) : Gran :=
  if g.poison || decide (2 < badCount (g.bad &&& ~~~(laneMask lane))) then { poison := true } else {}

/-- Pieces of a channel copied into its slot: the bytes and the granules stand there from now on, in place of whatever an
earlier copy left. Answers how many granules are written poisoned. -/
def State.copyPieces (s : State) (n c : Nat) (r : RetireCopy) (ps : Nat → Bool) : Nat × State :=
  let goes (key : Nat) : Bool := s.onPieces n c ps key
  let slotKey (key : Nat) : Nat := s.reserveKey (n / 5) r.slot (chanByte (key % 2 ^ 40))
  let grans := (s.ecc.filter (fun e => goes e.1)).map (fun e => (slotKey e.1, e.2.copied r.lane))
  let bytes := (s.mem.filter (fun e => goes e.1)).map (fun e => (slotKey e.1, e.2))
  let bad := grans.filter (·.2.poison)
  let old (key : Nat) : Bool := s.inSlot (n / 5) r.slot ps key
  (bad.length, { s with
    mem := bytes.foldl (fun m e => m.write e.1 e.2) (s.mem.filter (fun e => !old e.1)),
    ecc := bad.foldl (fun t e => put t e.1 e.2) (s.ecc.filter (fun e => !old e.1)) })

/-- The end of a retirement (R301 step 4). -/
def State.endRetire (s : State) (n c slot poisoned : Nat) : State :=
  let k := 128 * n + c
  let s := { s with rel := { s.rel with copies := del s.rel.copies k, slots := put s.rel.slots k slot } }.chanOff n c
  let s := if poisoned = 0 then s else s.raise (memNtc 0x0307 Sev.warn n n c poisoned)
  s.writeRecord 3 n c 0 slot

/-- A channel is to be retired for a lane that failed (R301, R303). In service its content is copied piece by piece; at a
start (`now`) what memory has kept is copied at once. A retirement that fails its cross-check is not made (R525). -/
def State.retire (s : State) (n c lane : Nat) (now : Bool) : State :=
  if s.chanOut n c || (look s.rel.copies (128 * n + c)).isSome then s
  else match s.crossCheck Act.retire with
  | (false, s) => s
  | (true, s) =>
    match s.freeSlot (n / 5) with
    | none => s.loseChannel n c
    | some slot =>
      let r : RetireCopy := { slot := slot, lane := lane }
      let s := { s with rel := { s.rel with copies := put s.rel.copies (128 * n + c) r } }
      let s := (s.lifeAdd (lifeEvent 1) 8 1).raise (memNtc 0x0305 Sev.warn n n c (s.freeSlots (n / 5)))
      let s := if now then let (bad, s) := s.copyPieces n c r (fun _ => true); s.endRetire n c slot bad else s
      s.setCause Cse.channel (chanDetail n c)

/-- RETIRE_COPY_PIECE (R301). -/
def execRetireCopyPiece (stack : Fin 20) (channel : Fin 128) (s : State) : Host.Outcome State Fault Refusal :=
  let n := stack.val
  let c := channel.val
  .next (match look s.rel.copies (128 * n + c) with
    | none => s
    | some r =>
      let (bad, s) := s.copyPieces n c r (· == r.piece)
      if r.piece + 1 = 384 then s.endRetire n c r.slot (r.poisoned + bad)
      else { s with rel := { s.rel with copies := put s.rel.copies (128 * n + c) { r with piece := r.piece + 1, poisoned := r.poisoned + bad } } })

/-! ### Lanes at training -/

/-- A lane that fails training: a spare of its group stands in, or else its channel is retired (R299, R301). -/
def State.trainLane (s : State) (now : Bool) (n c lane : Nat) : State :=
  if !s.stackFitted n || s.chanOut n c then s
  else
    let left := s.sparesLeft n (c / 32)
    if left = 0 then s.retire n c lane now
    else
      let s := { s with rel := { s.rel with spares := s.rel.spares ++ [(n, c, lane, 4 - left)] } }
      let s := (s.lifeAdd (lifeEvent 0) 8 1).raise (memNtc 0x0304 Sev.info n n c (left - 1))
      s.writeRecord 2 n c lane (4 - left)

/-! ### Training in service (R300) -/

/-- A training of a channel group: each failing lane is handled, and the group's pending retrain is done. -/
def State.trainGroup (s : State) (n g : Nat) (failing : List LaneFail) : State :=
  let s := { s with rel := { s.rel with retrain := s.rel.retrain.filter (· != 4 * n + g) } }
  (failing.filter (fun f => f.channel.val / 32 == g)).foldl (fun s f => s.trainLane false n f.channel.val f.lane.val) s

/-- The die's stacks run, so that a group can be trained. -/
def State.stackUp (s : State) (n : Nat) : Bool :=
  s.stackFitted n && (s.serving || s.dev == Dev.paused) && s.rd F.pwrPark_CURRENT != 3 && !s.pwr.failed.contains (dieDom (n / 5))

/-- PERIODIC_RETRAIN (R300). -/
def execPeriodicRetrain (stack : Fin 20) (group : Fin 4) (failing : List LaneFail) (s : State) : Host.Outcome State Fault Refusal :=
  .next (if s.stackUp stack.val then s.trainGroup stack.val group.val failing else s)

/-- EARLY_RETRAIN (R300): the retrain that the signature of a failed lane called for. -/
def execEarlyRetrain (stack : Fin 20) (group : Fin 4) (failing : List LaneFail) (s : State) : Host.Outcome State Fault Refusal :=
  .next (if s.stackUp stack.val ∧ s.rel.retrain.contains (4 * stack.val + group.val) then s.trainGroup stack.val group.val failing
         else s)

/-- PHY_RECALIBRATION (R311): the group holds its requests for 2 µs, which changes timing alone; new PHY tables take effect
at a training (R561). -/
def execPhyRecalibration (stack : Fin 20) (group : Fin 4) (s : State) : Host.Outcome State Fault Refusal :=
  let _ := (stack, group)
  .next s

end Sys2Proof.Machine
end

