-- ==== Sys2Proof/Machine/Start.lean ====
section
/-!
DEFINITION. Starting (R474 to R500, R542 to R548, R552 to R556): supply, cold and warm resets, the identity, the choice of
an image, the configuration check, bring-up and its end.
-/
namespace Sys2Proof.Machine

/-! ### Outputs that keep their level across a warm reset (R599) -/

/-- ALERT_N is low. -/
def State.alertLow (s : State) : Bool :=
  if s.dev ≥ Dev.cfgCheck then s.flag F.hubHealth_FATAL_SEEN || s.dev == Dev.cfgHold || s.dev == Dev.halted else s.pins.alert

/-- REPLACE_N is low. -/
def State.replaceLow (s : State) : Bool := if s.dev ≥ Dev.cfgHold then s.rd F.mgtDegraded_CAUSES != 0 else s.pins.replace

/-! ### Supply (R476, R604) -/

/-- POWER_ON (R476). -/
def execPowerOn (s : State) : Host.Outcome State Fault Refusal :=
  .next (if s.dev = Dev.off then { (s.setDom 0 Dom.on).goto Dev.aon with clk := { s.clk with startAt := s.ivl } } else s)

/-- SUPPLY_LOSS (R604): PD00 is lost. The NVM devices, what stands outside the device, and the levels at its inputs
remain. -/
def execSupplyLoss (s : State) : Host.Outcome State Fault Refusal :=
  let s := s.abandonWrite
  .next { State.reset with
    variant := s.variant, nvmA := s.nvmA, nvmB := s.nvmB, host := s.host, out := s.out, rdata := s.rdata, nfree := s.nfree,
    pending := s.pending, pins := { nvmWp := s.pins.nvmWp, mgmtAddr := s.pins.mgmtAddr, perst := s.pins.perst, refclk := s.pins.refclk } }

/-- ROM_ENTRY (R476): 10 ms after supply good. -/
def execRomEntry (s : State) : Host.Outcome State Fault Refusal :=
  .next (
    if s.dev = Dev.aon ∧ s.ivl - s.clk.startAt ≥ 10000000 then ((s.setDom 1 Dom.on).setDom 3 Dom.on).goto Dev.rom else s)

/-! ### Warm resets (R13, R314, R476, R526) -/

/-- The registers after a warm reset: every field at its reset value, sticky fields apart (R13). -/
def State.resetRegs (s : State) : State :=
  let t := s.regs.foldl (fun s e => s.resetReg (e.1 / 1048576) (e.1 % 1048576)) s
  { t with regs := t.regs.filter (fun e => e.2 != resetWord (e.1 / 1048576)) }

/-- What a warm reset keeps of the field records, of the repairs and of the tests: the records of the log alone. -/
def Rel.warm (r : Rel) : Rel :=
  { shock := r.shock, acct := r.acct, hotSince := r.hotSince, coolSince := r.coolSince,
    lastFlush := r.lastFlush, mirrorAt := r.mirrorAt }

/-- A warm reset into ROM. Stacks, NVM, device time, the log and the pins stay, and the shared caches are written back;
tile stores are lost (R314). An NVM write of the mailbox is abandoned (R498, R565). -/
def State.warmReset (s : State) (ordered dog : Bool) : State :=
  let s := (List.range 4).foldl State.flushDie s.abandonWrite
  let prev := s.dev
  let dies := (coreDoms.filter isDieDom).filter (fun d => s.dom d != Dom.off)
  let restored := s.rd F.mgtLifeStatus_RESTORED
  let pins := { s.pins with alert := s.alertLow, replace := s.replaceLow }
  let start : Start := { watchdogs := s.start.watchdogs ++ (if dog then [s.ivl] else []), cold := false, ordered := ordered,
                         inService := s.start.inService }
  let s := { s with
    mem := s.mem.filter (fun e => decide (e.1 < 2 ^ 46)), ecc := s.ecc.filter (fun e => decide (e.1 < 2 ^ 46)),
    clk := { s.clk with startAt := s.ivl, slew := 0 }, pins := pins, start := start, mbox := none, sec := {},
    cache := [], tlb := {}, beadMap := [], ctxs := [], rings := [], served := [], seedGens := [], pf0Reset := false, slots := [], queues := [], conns := [], net := {}, groups := [], grants := [], rwaits := [],
    brace := {}, pwr := { energy := s.pwr.energy, s1 := s.pwr.s1 }, rel := s.rel.warm, kfe := {}, msix := [], rate := [] }
  let s := s.resetRegs
  let s := [0, 1, 3].foldl (fun s d => s.setDom d Dom.on) s
  let s := dies.foldl (fun s d => s.setDom d Dom.retain) s
  let s := (s.wr F.mgtLifeStatus_MIRROR_SEQ 0 (s.lifeGet 8 8)).wr F.mgtLifeStatus_RESTORED 0 restored
  let s := s.lifeAdd 28 4 1
  (s.wr F.hubState_PREV 0 prev).wr F.hubState_STATE 0 Dev.rom

/-- A warm reset may happen: PD00 is powered, and no thermal trip holds the device (R476, R512). -/
def State.mayRestart (s : State) : Bool := s.dev != Dev.off && !s.pins.thermtrip

/-- PD01_LOSS (R476). -/
def execPd01Loss (s : State) : Host.Outcome State Fault Refusal :=
  .next (if s.mayRestart then s.warmReset false false else s)

/-- WATCHDOG_RESTART (R526). -/
def execWatchdogRestart (c : WatchdogCause) (s : State) : Host.Outcome State Fault Refusal :=
  let _ := c
  .next (if s.mayRestart then s.warmReset false true else s)

/-! ### The identity (R542 to R546) -/

/-- The helper data of an image has its MAGIC and its FORMAT (R543). -/
def Nvm.helperOk (n : Nvm) : Bool := n.nat Area.helper 4 == 0x48584247 && n.nat (Area.helper + 4) 2 == 1

/-- The offset of block `i`. -/
def Nvm.helper (n : Nvm) (i : Nat) : BitVec 255 := BitVec.ofNat 255 (n.nat (Area.helper + 64 + 32 * i) 32)

/-- What the extraction with the helper data of one image gives. -/
structure Extract where
  worst : Nat
  block : Nat
  xi : List Byte
  pk : List Byte
  /-- 0 none, 1 a block is uncorrectable, 2 PK_HASH differs (R567). -/
  cause : Nat
  deriving DecidableEq, Repr

/-- The extraction of R542 and R544. -/
def Nvm.extract (n : Nvm) (raw : List (BitVec 255)) : Extract :=
  let blocks := (List.range 64).map (fun i => (raw.getD i 0, n.helper i))
  let errs := blocks.map (fun b => Config.bchErrors (b.1 ^^^ b.2))
  let worst := errs.foldl max 0
  let bad := decide (18 < worst)
  let seed := sha3 (blocks.flatMap (fun b => natLE 32 (Config.bchWord (b.1 ^^^ b.2) ^^^ b.2).toNat))
  let xi := sha3 ([0x47, 0x42, 0x58, 0x2D, 0x49, 0x44] ++ seed)
  let pk := slice (Config.mldsaKey xi) 0 pkBytes
  { worst := if bad then 255 else worst, block := errs.findIdx (· == worst), xi := xi, pk := pk,
    cause := if bad then 1 else if sha3 pk != n.get (Area.helper + 8) 32 then 2 else 0 }

/-- The image whose helper data is used: A's; B's when A's is not there or when extraction with it fails (R543). -/
def State.helperImage (s : State) (raw : List (BitVec 255)) : Bool :=
  let aGood := s.nvmA.helperOk && (s.nvmA.extract raw).cause == 0
  !aGood && (s.nvmB.helperOk || !s.nvmA.helperOk)

/-- The identity of this start (R544 to R546). -/
def State.deriveId (s : State) (raw : List (BitVec 255)) : State :=
  let b := s.helperImage raw
  let n := s.nvm b
  let e := n.extract raw
  let cause := if !n.helperOk then 1 else if e.cause ≠ 0 then e.cause else if n.deviceCertOk then 0 else 3
  let worst := if n.helperOk then e.worst else 255
  let cert := certKeyOf (n.cert 2)
  let failed := cause ≠ 0
  let id := sha3 (if failed then cert else e.pk)
  let s := { s with sec := { s.sec with xi := if failed then none else some e.xi, pubKey := if failed then [] else e.pk, certKey := cert } }
  let s := (s.wr F.secIdStatus_WORST 0 worst).wr F.secIdStatus_STATE 0 (if failed then 2 else if worst ≤ 12 then 0 else 1)
  let s := (List.range 4).foldl (fun s i => s.wr F.secDeviceId_ID i (leNat (slice id (8 * i) 8))) s
  if failed then s.raise (hubNtc 0x0D02 Sev.error worst cause (b2n b))
  else if worst ≤ 12 then s
  else s.raise (hubNtc 0x0D01 Sev.warn worst e.block (b2n b))

/-! ### Images (R480, R552 to R554) -/

/-- The image header is intact. -/
def Nvm.headerOk (n : Nvm) : Bool :=
  n.nat 0 4 == 0x49584247 && n.nat 4 2 == 1 && n.nat 16 4 == crc32c (n.get 0 16)

/-- IMAGE_SEQ as stored. -/
def Nvm.imageSeq (n : Nvm) : Nat := n.nat 8 8

/-- A firmware area is read through `g`: bytes at an offset from the manifest's start. -/
abbrev Area.Reader := Nat → Nat → List Byte

def Nvm.firmware (n : Nvm) : Area.Reader := fun off k => n.get (Area.firmware + off) k

abbrev manifestBytes : Nat := 64 + 48 * 7
/-- The end of the Herush SIGNATURE. -/
abbrev manifestEnd : Nat := manifestBytes + 4096 + sigBytes
abbrev imageMax : Nat := 192 * 2 ^ 20

def mf (g : Area.Reader) (off k : Nat) : Nat := leNat (g off k)

def partType (g : Area.Reader) (k : Nat) : Nat := mf g (64 + 48 * k) 2

/-- The fields of the manifest are as in R552, and its signatures pass (R554). -/
def manifestOk (g : Area.Reader) (root : List Byte) : Bool :=
  let cert := g manifestBytes 4096
  mf g 0 4 == 0x4D584247 && mf g 4 2 == 1 && mf g 6 2 == 7 && decide (mf g 24 4 ≤ imageMax) && mf g 28 36 == 0 &&
  (List.range 7).all (fun k => mf g (66 + 48 * k) 2 == 0 && mf g (72 + 48 * k) 4 % 4096 == 0) &&
  ((List.range 7).map (· + 1)).all (fun t => (List.range 7).any (fun k => partType g k == t)) &&
  certOk cert 2 root && verify (certKeyOf cert) (g 0 (manifestBytes + 4096)) (g (manifestBytes + 4096) sigBytes)

/-- The type of the first part that lies outside the image or does not match its hash. -/
def badPart (g : Area.Reader) : Option Nat :=
  ((List.range 7).find? (fun k =>
    let off := mf g (72 + 48 * k) 4
    let len := mf g (76 + 48 * k) 4
    decide (off + len > mf g 24 4) || sha3 (g off len) != g (80 + 48 * k) 32)).map (partType g)

/-- Version and hash of each part, by type. -/
def partsOf (g : Area.Reader) : List (Nat × List Byte) :=
  ((List.range 7).map (· + 1)).map (fun t =>
    let k := (List.range 7).find? (fun k => partType g k == t) |>.getD 0
    (t, g (68 + 48 * k) 4 ++ g (80 + 48 * k) 32))

/-- Why the ROM passes over an image: 1 header, 2 signature, 3 part hash (R500). -/
def Nvm.refused (n : Nvm) : Option Nat :=
  if !n.headerOk then some 1
  else if !n.rootOk || !manifestOk n.firmware (certKeyOf (n.cert 0)) then some 2
  else if (badPart n.firmware).isSome then some 3 else none

/-- The images in the order in which the ROM considers them: descending IMAGE_SEQ, A first on a tie; a blank header is no
image. -/
def State.bootOrder (s : State) : List Bool :=
  let l := if s.nvmA.imageSeq < s.nvmB.imageSeq then [true, false] else [false, true]
  l.filter (fun b => !(s.nvm b).blank 0 20)

/-- The image that boots, with those passed over and why. -/
def bootPick (s : State) : List Bool → List (Bool × Nat) → Option (Bool × List (Bool × Nat))
  | [], _ => none
  | b :: bs, passed => match (s.nvm b).refused with
    | none => some (b, passed)
    | some c => bootPick s bs (passed ++ [(b, c)])

/-- The manifest of a firmware area becomes the running one. -/
def State.runManifest (s : State) (g : Area.Reader) : State :=
  let s := (s.wr F.secFwRunning_RELEASE 0 (mf g 8 4)).wr F.secFwRunning_SECURITY_VERSION 0 (mf g 12 2)
  { s with sec := { s.sec with parts := partsOf g, manifest := sha3 (g 0 manifestEnd), fwMajor := mf g 14 1, fwMinor := mf g 15 1 } }

/-- ROM_BOOT (R476, R480): the identity, then the image. -/
def execRomBoot (raw : List (BitVec 255)) (s : State) : Host.Outcome State Fault Refusal :=
  .next (
    if s.dev ≠ Dev.rom then s
    else
      let s := s.deriveId raw
      let dogs := s.start.watchdogs.filter (fun t => decide (s.ivl < t + 3600000000000))
      if dogs.length ≥ 3 then { s.halt 4 with start := { s.start with watchdogs := [] } }
      else match bootPick s s.bootOrder [] with
        | none => s.halt 1
        | some (b, passed) =>
          let s := (s.wr F.hubState_BOOT_IMAGE 0 (b2n b)).runManifest (s.nvm b).firmware
          let s := passed.foldl (fun s p => s.raise (hubNtc 0x0104 Sev.warn (b2n b) (b2n p.1) p.2)) s
          { s with start := { s.start with watchdogs := dogs } }.goto Dev.load)

/-! ### LOAD (R495, R496, R530) -/

/-- A repair of an earlier start taken up again. -/
def State.applyRecord (s : State) (r : List Byte) : State :=
  let u := fieldAt r 24 0 8
  let c := fieldAt r 25 0 8
  let k := 128 * u + c
  match fieldAt r 6 0 16 with
  | 1 => s.wr F.hubCapTiles_PRESENT 0 (if s.tilesPresent.testBit u then s.tilesPresent - 2 ^ u else s.tilesPresent)
  | 2 => { s with rel := { s.rel with spares := s.rel.spares ++ [(u, c, fieldAt r 26 0 8, fieldAt r 27 0 8)] } }
  | 3 => { s with rel := { s.rel with slots := put s.rel.slots k (fieldAt r 27 0 8) } }.chanOff u c
  | 4 => { s with rel := { s.rel with slots := del s.rel.slots k } }.chanOff u c
  | _ => s

/-- The repairs that the records of both images give (R496). -/
def State.readRecords (s : State) : State :=
  let good := s.repairRecords
  let tell (s : State) (b : Bool) : State := match s.badRecords b with
    | (some i, n) => s.raise (hubNtc 0x0105 Sev.warn (b2n b) i n)
    | (none, _) => s
  let s := tell (tell s false) true
  let any := s.nvmA.records + s.nvmB.records != 0
  let s := { s with start := { s.start with recordsBad := any && good == [] },
                    rel := { s.rel with recSeq := (good.map recSeq).foldl (fun a q => max a (q + 1)) 0 } }
  good.foldl State.applyRecord s

/-- LOAD_DONE (R476, R530). -/
def execLoadDone (s : State) : Host.Outcome State Fault Refusal :=
  .next (
    if s.dev ≠ Dev.load then s
    else
      let s := s.wr F.mgtCores_UP 0 0xF
      let s := if s.start.cold then s.restoreLife.lifeAdd 24 4 1 else s
      s.readRecords.goto Dev.cfgCheck)

/-! ### CFG_CHECK, CFG_HOLD and the entry of BRINGUP (R486 to R494, R555) -/

/-- The first channel that is out of service, as the detail of a cause. -/
def State.firstOut (s : State) : Nat :=
  ((List.range 2560).find? (fun k => s.chanOut (k / 128) (k % 128))).elim 0 (fun k => chanDetail (k / 128) (k % 128))

/-- The causes of DEGRADED that a start brings (R517, R519). -/
def State.judgeStart (s : State) : State :=
  let s := if s.rd F.secIdStatus_STATE ≠ 0 then s.setCause Cse.puf 0 else s
  let s := if s.start.recordsBad then s.setCause Cse.records 0 else s
  let s := if s.anyChannelOut then s.setCause Cse.channel s.firstOut else s
  s.judgeWear.judgeTiles

/-- The domains of CFG_HOLD (R488, R494): the network off, tile groups and front ends off, running stacks in
self-refresh. -/
def State.holdDomains (s : State) : State :=
  coreDoms.foldl (fun s d =>
    if isDieDom d then (if s.dom d = Dom.off then s else s.enterDom d Dom.retain) else s.enterDom d Dom.off) (s.setDom 2 Dom.off)

/-- CFG_HOLD is entered with findings (R488, R489, R500). -/
def State.enterHold (s : State) (fs : List Finding) : State :=
  let s := (((s.goto Dev.cfgHold).holdDomains).tellFindings fs).lifeAdd 40 4 1
  match fs with
  | f :: _ => (s.raise (hubNtc 0x0101 Sev.error f.reason f.section_ f.offset)).judgeStart
  | [] => s.judgeStart

/-- The customer key of the configuration (R484, R555). -/
def State.customerKey (s : State) : List Byte := (List.range 4).flatMap (fun i => natLE 8 (s.item 8 2 i 0))

/-- Why a countersignature does not verify: 1 absent, 2 key mismatch, 3 signature; 0 when it verifies (R555, R567). -/
def State.countersign (s : State) (g : Area.Reader) : Nat :=
  let o := roundUp manifestEnd 64
  let pk := g (o + 4) pkBytes
  if mf g o 4 ≠ 0x53435847 then 1
  else if sha3 pk ≠ s.customerKey then 2
  else if verify pk (g 0 manifestEnd) (g (o + 4 + pkBytes) sigBytes) then 0 else 3

/-- COUNTERSIGN of the configuration. -/
def State.countersignAsked (s : State) : Bool := s.item 8 1 0 0 == 1

/-- The booted image's countersignature is judged once the configuration is known (R555). -/
def State.judgeCountersign (s : State) : State :=
  let c := s.countersign (s.nvm (s.flag F.hubState_BOOT_IMAGE)).firmware
  let s := s.wr F.secFwRunning_COUNTERSIGNED 0 (b2n (c == 0))
  if c ≠ 0 ∧ s.countersignAsked then s.raise (hubNtc 0x0D03 Sev.warn (s.rd F.secFwRunning_RELEASE) c 0) else s

/-- BRINGUP is entered with a blob (R494): from an image's copy, or from the host. -/
def State.enterBringup (s : State) (b : List Byte) (image : Bool) (host : Bool) : State :=
  let s := (s.goto Dev.bringup).setDom 2 Dom.on
  let s := (coreDoms.filter isDieDom).foldl (fun s d => s.setDom d Dom.on) s
  let s := (s.wr F.hubState_CFG_HOST 0 (b2n host)).wr F.hubState_CFG_IMAGE 0 (b2n (image && !host))
  ((s.applyBlob b).judgeCountersign).judgeStart

/-- CONFIG_CHECK (R486): the intact copy with the greater SEQUENCE is checked. -/
def execConfigCheck (s : State) : Host.Outcome State Fault Refusal :=
  .next (
    if s.dev ≠ Dev.cfgCheck then s
    else
      let a := s.nvmA.blobCopy
      let b := s.nvmB.blobCopy
      let older (s : State) (used : Bool) (bs : List Byte) (r : Nat) : State :=
        if r = 1 then s else s.raise (hubNtc 0x0102 Sev.warn (b2n used) (blobSeq bs % 2 ^ 32) r)
      let take (s : State) (image : Bool) (bs : List Byte) : State :=
        let s := { s with start := { s.start with chosen := some image } }
        match s.blobFindings (b2n image) bs with
        | [] => ({ s with start := { s.start with findings := [] } }).enterBringup bs image false
        | fs => s.enterHold fs
      match blobTorn a false, blobTorn b false with
      | none, none => if blobSeq a < blobSeq b then take s true b else take s false a
      | none, some r => take (older s false a r) false a
      | some r, none => take (older s true b r) true b
      | some _, some _ => s.enterHold (tornFindings 0 a false ++ tornFindings 1 b false))

/-! ### The end of BRINGUP (R477, R484, R494, R497) -/

/-- The address of a job controller: (IPv6, address). -/
def State.ctrlAddr (s : State) (k : Nat) : Option (Bool × Nat) :=
  let has (key : Nat) : Bool := s.start.items.any (fun e => e.1 == 2 && e.2.1 == key && e.2.2.1 == k)
  if has 1 then some (false, s.item 2 1 k 0 % 2 ^ 32)
  else if has 2 || has 3 then some (true, s.item 2 2 k 0 * 2 ^ 64 + s.item 2 3 k 0) else none

/-- The connection of a job controller written and opened (R484). The fields that no rule gives a value are free. -/
def State.openCtrl (s : State) (k : Nat) : State :=
  match s.ctrlAddr k with
  | none => s
  | some (v6, ip) =>
    let (v, s) := s.fresh
    let (w, s) := s.fresh
    let (x, s) := s.fresh
    let n := v.toNat
    let e := natLE 1 (1 + n % 16 * 4 + b2n v6 * 64) ++ natLE 1 (n / 16 % 8) ++ natLE 1 (n / 128 % 64) ++ natLE 1 0 ++
      natLE 2 (n / 8192) ++ natLE 2 0 ++ natLE 16 ip ++ natLE 3 0 ++ natLE 1 (n / 2 ^ 29 % 64) ++ natLE 4 0 ++
      natLE 8 w.toNat ++ natLE 8 x.toNat ++ List.replicate 16 0
    if s.connTableOk then ((s.writePhys (s.connAddr (4080 + k)) e).2).openConn (4080 + k) else s

/-- The device enters READY or DEGRADED (R477 step 11, R500, R539). -/
def State.endStart (s : State) : State :=
  let d := s.readyState
  let s := { s.goto d with start := { s.start with ptpWaiting := false, inService := true, ordered := false, fromBrace := false } }
  s.raise (hubNtc 0x0108 Sev.info ((s.ivl - s.clk.startAt) / 1000000 % 2 ^ 32) d (popCount s.tilesPresent 48))

/-- The end of BRINGUP (R494): checks 11 to 14 of the registers as they stand. -/
def State.holdFindings (s : State) : List Finding :=
  let l := s.regImgs
  s.rangeFindings 2 l ++ s.unitFindings 2 l

/-- BRINGUP is left: into READY or DEGRADED, or into CFG_HOLD, with what step 9 opened closed again. -/
def State.leaveBringup (s : State) : State :=
  match s.holdFindings with
  | [] => s.endStart
  | fs => s.netOff.enterHold (fs.take 64)

/-- What bring-up found: lanes and tiles (R299, R497). -/
def State.bringReport (s : State) (r : BringupReport) : State :=
  let s := { s with start := { s.start with trained := true } }
  let s := r.lanes.foldl (fun s f => s.trainLane true f.1.val f.2.channel.val f.2.lane.val) s
  let s := r.tiles.foldl (fun s t => if s.tilePresent t.1.val then s.failTile t.1.val t.2.toNat else s) s
  { s with rel := { s.rel with tested := (List.range 48).map (fun t => (t, s.ivl + 1)) } }

/-- Step 9 of R477: front ends and their microcode, domains, the connection table and the connections of controllers. -/
def State.bringUnits (s : State) : State :=
  let ver := leNat (((s.sec.parts.find? (fun p => p.1 == 5)).map (·.2)).getD [] |>.take 2)
  let s := (List.range 4).foldl (fun s k => if s.kfeFitted k then
    ((s.wr F.kfeStatus_UP k 1).wr F.kfeStatus_UCODE_VER k ver).setDom (kfeDom k) Dom.on else s) s
  let s := (coreDoms.filter isTileDom).foldl (fun s d => s.setDom d Dom.retain) s
  let s := if look s.regs (regKey Reg.netConnTable 0) = none then s else s.nameConnTable (s.reg Reg.netConnTable 0).toNat
  (List.range 16).foldl State.openCtrl s

/-- BRINGUP_DONE (R494): SRAM is zero, and after a cold reset so is the memory (R313, R314). -/
def execBringupDone (r : BringupReport) (s : State) : Host.Outcome State Fault Refusal :=
  .next (
    if s.dev ≠ Dev.bringup ∨ s.start.ptpWaiting then s
    else
      let s := s.bringReport r
      let s := if s.start.cold then { s with mem := [], ecc := [], cache := [] } else s
      if s.tilesPresent = 0 then s.halt 2
      else if s.item 2 5 0 120 ≠ 0 ∧ s.rd F.netPtpStatus_STATE ≠ Ptp.locked then
        { s.bringUnits with start := { s.bringUnits.start with ptpWaiting := true } }
      else match s.holdFindings with
        | [] => s.bringUnits.endStart
        | fs => s.enterHold (fs.take 64))

/-- PTP_WAIT_EXPIRY (R477). -/
def execPtpWaitExpiry (s : State) : Host.Outcome State Fault Refusal :=
  .next (
    if s.dev = Dev.bringup ∧ s.start.ptpWaiting then
      (s.raise (hubNtc 0x0107 Sev.warn (s.item 2 5 0 120) (s.rd F.netPtpStatus_STATE) 0)).leaveBringup
    else s)

/-- The one step of device time, forward, to PTP time (R451). -/
def State.stepTime (s : State) (lp time : Nat) : State :=
  let by_ := time - s.clk.dev
  let s := { s with clk := { s.clk with dev := s.clk.dev + by_, stepped := true, frac := 0 } }
  if s.dev = Dev.bringup then s
  else s.raise (netNtc 0x0C0C Sev.warn none (by_ / 1000000 % 2 ^ 32) (by_ / 1000000 / 2 ^ 32 % 2 ^ 32) lp)

/-- PTP_LOCK (R451, R477 step 10). -/
def execPtpLock (lp : Fin 24) (time : Word) (s : State) : Host.Outcome State Fault Refusal :=
  .next (
    if !s.ptpPort lp.val then s
    else
      let s := (s.wr F.netPtpStatus_STATE 0 Ptp.locked).wr F.netPtpStatus_SOURCE 0 lp.val
      let s := if s.clk.stepped then s else s.stepTime lp.val time.toNat
      if s.dev = Dev.bringup ∧ s.start.ptpWaiting then s.leaveBringup else s)

end Sys2Proof.Machine
end

