-- ==== Sys2Proof/Machine/Brace.lean ====
section
/-!
DEFINITION. The brace (R533 to R538).
-/
namespace Sys2Proof.Machine

/-! ### The brace record (R527, R533) -/

def recordOff (k : Nat) : Nat := 0x57C0 + 32 * (k % 64)

/-- The phase is shown and kept in the record. -/
def State.setPhase (s : State) (p : Nat) : State :=
  let s := { s.wr F.mgtBraceStatus_PHASE 0 p with brace := { s.brace with phaseAt := s.ivl } }
  s.lifeSet (recordOff s.brace.record + 27) 1 p

/-- A brace record is started, and the brace counted in EVENTS. -/
def State.startRecord (s : State) (phase : Nat) : State :=
  let k := s.lifeGet (lifeEvent 6) 8
  let s := { s with brace := { s.brace with record := k }, life := s.life.writeN (recordOff k) (natLE 8 s.time ++ List.replicate 24 0) }
  (s.lifeAdd (lifeEvent 6) 8 1).lifeSet (recordOff k + 27) 1 phase

/-! ### Phase 1: COMMIT -/

/-- A context has a step commit in flight: a round open, or a STEP_COMMIT fetched and not ended. -/
def State.commitOpen (s : State) (c : Nat) : Bool :=
  let st := s.rd F.ctxStepState_STATE c
  st == 1 || st == 2 || (s.ctxCmds c).any (fun e => e.2.opcode == 0x0061 && e.2.phase != .ended)

/-- Phase 1 has nothing left to wait for (R533). -/
def State.commitDone (s : State) : Bool :=
  (List.range 16).all (fun c =>
    let st := s.rd F.ctxStepState_STATE c
    st != 1 && st != 2 && !(s.ctxCmds c).any (fun e => e.2.opcode == 0x0061 && e.2.phase == .fetched))

/-- What the contexts with a commit in flight at the latch came to: 3 in doubt, 2 aborted, 1 committed, 0 none (R527). -/
def State.commitCode (s : State) : Nat × State :=
  let (ds, s) := s.brace.ctxs.foldl (fun (a : List Nat × State) c =>
    if a.2.rd F.ctxStepState_STATE c = 3 then (a.1 ++ [3], a.2)
    else match a.2.stepRec c with
      | (some r, s) => (a.1 ++ [recDecision r], s)
      | (none, s) => (a.1, s)) ([], s)
  (ds.foldl max 0, s)

/-- Rounds still open at COMMIT_MS go IN_DOUBT under R271. -/
def State.doubtOpen (s : State) (c : Nat) : State :=
  match s.stepCmd c (fun _ => true), s.stepGroup c with
  | some (k, x), some g =>
    match s.stepRec c with
    | (some r, s) => s.stepDoubt k x (stepRound x) (repliedWeight r g (stepReplies x x.stepStage g.conns.length))
    | (none, s) => s.stepDoubt k x (stepRound x) 0
  | _, _ => s

/-! ### Phase 2: DRAIN -/

/-- Every ACTIVE context is pre-empted with MODE SAVE (R533); one that was being resumed is so once it is ACTIVE. -/
def State.drainActive (s : State) : State :=
  let cs := (List.range 16).filter (fun c => s.ctxState c == Ctx.active)
  cs.foldl (fun s c => s.preempt c false) { s with brace := { s.brace with ctxs := s.brace.ctxs ++ cs } }

/-- Phase 2 begins: what the commit came to stands in the record. -/
def State.beginDrain (s : State) : State :=
  let (code, s) := s.commitCode
  let s := s.lifeSet (recordOff s.brace.record + 26) 1 code
  ({ s with brace := { s.brace with commit := code, ctxs := [] } }.setPhase 2).drainActive

/-- No context is ACTIVE or on its way into or out of a pre-emption. -/
def State.drained (s : State) : Bool :=
  (List.range 16).all (fun c => !([Ctx.active, Ctx.preempting, Ctx.resuming] : List Nat).contains (s.ctxState c))

/-- At DRAIN_MS the units still running complete PREEMPTED (R345). -/
def State.cutDrain (s : State) : State :=
  ((List.range 16).filter (fun c => s.ctxState c == Ctx.active || s.ctxState c == Ctx.preempting)).foldl (fun s c =>
    let s := if s.ctxState c = Ctx.active then
        { (s.preempt c true) with brace := { s.brace with ctxs := s.brace.ctxs ++ [c] } } else s
    let s := s.setCtx c { s.ctx c with evict := true }
    (s.evictAll c).2.endEvict c) s

/-! ### Phase 3: PUSH (R534) -/

/-- The entries of all contexts in the order of the push: descending PRIO, ascending context. -/
def State.pushList (s : State) : List BraceEntry :=
  ((List.range 8).reverse).flatMap (fun p => ((List.range 16).filter (fun c => s.rd F.ctxSched_PRIO c == p)).flatMap (fun c =>
    (lookD s.brace.sets c []).map (fun e => { ctx := c, bytes := e })))

/-- Bytes of a context's memory for the push; none where they cannot be read whole. -/
def State.pushRead (s : State) (c va n : Nat) : Option (List Byte) × State :=
  match State.winAccess c va n none (winFuel n) s [] [] with
  | (.done bs, s) => (some bs, s)
  | (_, s) => (none, s)

/-- The planes of a stream one after another. -/
def State.readPlanes (s : State) (c : Nat) : List (Nat × Nat) → Option (List (List Byte)) × State
  | [] => (some [], s)
  | p :: ps => match s.pushRead c p.1 p.2 with
    | (none, s) => (none, s)
    | (some bs, s) => match s.readPlanes c ps with
      | (some t, s) => (some (bs :: t), s)
      | (none, s) => (none, s)

/-- The digest of a group's planes (R240). -/
def planesDigest (ps : List (List Byte)) : Nat :=
  let bs := ps.flatten
  digestOf ((chunks chunkBytes (bs.length / chunkBytes + 1) bs).zipIdx.map (fun c => (c.2, crc64xz c.1)))

/-- Padding of a plane to 64 bytes. -/
def padded (bs : List Byte) : List Byte := bs ++ List.replicate (roundUp bs.length 64 - bs.length) 0

/-- The record of one group (R245). -/
def State.groupRecord (s : State) (c gno v : Nat) (g : PGroup) : Option (List Byte) × State :=
  let ps := g.stream false v
  match s.readPlanes c ps with
  | (none, s) => (none, s)
  | (some bs, s) =>
    (some (recordHeader g gno (!(g.frozen || g.tier == 1)) (planesDigest bs) (recordBytes ps) ++ bs.flatMap padded), s)

/-- The records of a range of groups. -/
def State.groupRecords (s : State) (c gno v : Nat) : List PGroup → Option (List Byte) × State
  | [] => (some [], s)
  | g :: gs => match s.groupRecord c gno v g with
    | (none, s) => (none, s)
    | (some b, s) => match s.groupRecords c (gno + 1) v gs with
      | (some t, s) => (some (b ++ t), s)
      | (none, s) => (none, s)

/-- The stream of a GROUPS entry: the header, which goes last, and the records (R244). -/
def State.pushStream (s : State) (c first count : Nat) : Option (List Byte × List Byte) × State :=
  if s.rd F.ctxPgroup_TABLE_ADDR c = 0 ∨ first + count > s.rd F.ctxPgroup_LAST c + 1 then (none, s)
  else match s.pushRead c (s.rd F.ctxPgroup_TABLE_ADDR c + 128 * first) (128 * count) with
    | (none, s) => (none, s)
    | (some t, s) =>
      let v := s.rd F.ctxVersion_CURRENT c
      match s.groupRecords c first v (groupsOf t) with
      | (none, s) => (none, s)
      | (some rs, s) =>
        (some (natLE 4 0x53584247 ++ natLE 2 1 ++ natLE 2 count ++ natLE 8 v ++ natLE 8 (64 + rs.length) ++ natLE 8 s.time ++
          natLE 1 c ++ List.replicate 31 0, rs), s)

/-- Bytes sent to a destination of an entry: a peer's window (R467), or the host window (R286). -/
def State.pushTo (s : State) (e : List Byte) (off : Nat) (bs : List Byte) : State :=
  if beTarget e = 0 then
    let (q, s) := s.takeReq (beConn e)
    s.sendGct (beConn e) (.transfer q (beDest e + off) 0 0 bs)
  else (s.writePhys (0x0C0000000000 + beDest e + off) bs).2

/-- One entry pushed: whether it is done, the bytes pushed. Whether a peer refuses is a free choice. -/
def State.pushEntry (s : State) (b : BraceEntry) : Bool × Nat × State :=
  let e := b.bytes
  let peer := beTarget e == 0
  let park := s.rd F.pwrPark_CURRENT
  if park = 3 ∨ (peer ∧ (park ≥ 1 ∨ !s.gctOpen (beConn e))) then (false, 0, s)
  else
    let (v, s) := s.fresh
    if peer ∧ v.toNat % 2 = 1 then (false, 0, s)
    else if beKind e = 2 then
      match s.pushRead b.ctx (beSrc e) (beLength e) with
      | (none, s) => (false, 0, s)
      | (some bs, s) => (true, bs.length, s.pushTo e 0 bs)
    else match s.pushStream b.ctx (beFirst e) (beCount e) with
      | (none, s) => (false, 0, s)
      | (some (h, rs), s) =>
        if 64 + rs.length > beLength e then (false, 0, s)
        else (true, 64 + rs.length, (s.pushTo e 64 rs).pushTo e 0 h)

/-- The push of the first `n` entries; those after them fail. -/
def State.push (s : State) (n : Nat) : State :=
  let l := s.pushList
  let (done, bytes, s) := (l.take n).foldl (fun (a : Nat × Nat × State) b =>
    let r := a.2.2.pushEntry b
    (a.1 + b2n r.1, a.2.1 + r.2.1, r.2.2)) (0, 0, s)
  let s := (s.wr F.mgtBraceStatus_DONE 0 (min (maxOf 10) done)).wr F.mgtBraceStatus_FAILED 0 (min (maxOf 10) (l.length - done))
  let s := { s.wr F.mgtBraceStatus_PUSHED_MIB 0 (min (maxOf 28) (bytes / 2 ^ 20)) with brace := { s.brace with pushed := bytes } }
  let r := recordOff s.brace.record
  ((s.lifeSet (r + 16) 8 bytes).lifeSet (r + 24) 1 (min 255 done)).lifeSet (r + 25) 1 (min 255 (l.length - done))

/-! ### Phase 5: PARK -/

/-- The shared caches are written back (R304); tile groups, die fabrics and front ends go to RETAIN (R533). -/
def State.parkDomains (s : State) : State :=
  let s := (List.range 4).foldl State.flushDie s
  let s := coreDoms.foldl (fun s d => match look s.pwr.down d with
    | some v => s.enterDom d v
    | none => if (look s.pwr.wake d).isSome then s.domUp d else s) s
  coreDoms.foldl (fun s d => if s.domFitted d && s.dom d != Dom.off then s.setDom d Dom.retain else s) s

/-- The device is PARKED. -/
def State.bracePark (s : State) : State :=
  let s := s.parkDomains.setPhase 6
  s.raise (hubNtc 0x0E07 Sev.warn (s.rd F.mgtBraceStatus_DONE) (s.rd F.mgtBraceStatus_FAILED) (s.brace.pushed / 2 ^ 20 % 2 ^ 32))

/-! ### The latch -/

/-- The brace sequence starts (R533). -/
def State.startBrace (s : State) : State :=
  let at_ := s.dev
  let active := ((List.range 16).filter (fun c => s.ctxState c == Ctx.active)).length
  let s := (s.goto Dev.braced).startRecord 1
  let open_ := (List.range 16).filter s.commitOpen
  let s := { s with
    brace := { sets := s.brace.sets, startIvl := s.ivl, ctxs := open_, record := s.brace.record, lowAt := s.brace.lowAt },
    start := { s.start with fromBrace := true }, sec := { s.sec with braceWaiting := false, boundary := false } }
  let s := (s.wr F.mgtBraceStatus_DONE 0 0).wr F.mgtBraceStatus_FAILED 0 0
  let s := (s.wr F.mgtBraceStatus_PUSHED_MIB 0 0).setPhase 1
  s.raise (hubNtc 0x0E06 Sev.warn at_ active s.pushList.length)

/-- A brace that meets a start: the stacks go into self-refresh, the log is flushed, and the start is held (R498). -/
def State.holdStart (s : State) : State :=
  let at_ := s.dev
  let s := (s.goto Dev.braced).startRecord 0
  let s := { s with start := { s.start with held := some at_, fromBrace := true }, brace := { s.brace with startIvl := s.ivl } }
  let s := (coreDoms.filter isDieDom).foldl (fun s d => if s.dom d = Dom.on then s.enterDom d Dom.retain else s) s
  (s.putFlush false).putFlush true

/-- BRACE_LATCH (R498, R533, R536). -/
def execBraceLatch (s : State) : Host.Outcome State Fault Refusal :=
  .next (
    if s.dev = Dev.off then s
    else
      let s := { s with pins := { s.pins with braceLow := true }, brace := { s.brace with lowAt := s.ivl } }
      if s.serving then s.startBrace
      else if s.dev = Dev.paused then { s with sec := { s.sec with braceWaiting := true } }
      else if s.dev = Dev.cfgHold then s.startRecord 0
      else if [Dev.rom, Dev.load, Dev.cfgCheck, Dev.bringup].contains s.dev then s.holdStart
      else s)

/-- The brace sequence is under way. -/
def State.bracing (s : State) : Bool := s.dev == Dev.braced && s.start.held.isNone

/-- BRACE_PHASE_END (R533): the phase's end condition holds, and the next begins. A management core that is being
restarted holds the phase (R538). -/
def execBracePhaseEnd (s : State) : Host.Outcome State Fault Refusal :=
  .next (
    if !s.bracing || s.rel.halted != [] then s
    else match s.rd F.mgtBraceStatus_PHASE with
      | 1 => if s.commitDone then s.beginDrain else s
      | 2 => let s := s.drainActive; if s.drained then s.setPhase 3 else s
      | 3 => (s.push (if s.rd F.mgtBraceCfg_PUSH_MS = 0 then 0 else s.pushList.length)).setPhase 4
      | 4 => (s.writeMirror.2.writeMirror.2).setPhase 5
      | 5 => s.bracePark
      | _ => s)

/-- BRACE_PHASE_TIMEOUT (R533, R534). How many entries were pushed before PUSH_MS is a free number. -/
def execBracePhaseTimeout (s : State) : Host.Outcome State Fault Refusal :=
  let isOver (ms : Nat) : Bool := decide (s.ivl - s.brace.phaseAt ≥ ms * 1000000)
  .next (
    if !s.bracing then s
    else match s.rd F.mgtBraceStatus_PHASE with
      | 1 => if isOver (s.rd F.mgtBraceCfg_COMMIT_MS) then ((List.range 16).foldl State.doubtOpen s).beginDrain else s
      | 2 => if isOver (s.rd F.mgtBraceCfg_DRAIN_MS) then s.cutDrain.setPhase 3 else s
      | 3 =>
        if isOver (s.rd F.mgtBraceCfg_PUSH_MS) then
          let (v, s) := s.fresh
          (s.push (if s.rd F.mgtBraceCfg_PUSH_MS = 0 then 0 else v.toNat % max 1 s.pushList.length)).setPhase 4
        else s
      | _ => s)

/-- BRACE_PIN_RELEASE (R536, R598). -/
def execBracePinRelease (s : State) : Host.Outcome State Fault Refusal :=
  .next (if s.dev = Dev.off then s else { s with pins := { s.pins with braceLow := false } })

/-! ### RESUME (R536) -/

/-- RESUME after PARKED: domains wake, the braced contexts resume, and the device serves again. -/
def State.endBrace (s : State) : State :=
  let s := coreDoms.foldl (fun s d => if s.dom d = Dom.retain ∧ !s.pwr.failed.contains d then s.domUp d else s) s
  let cs := s.brace.ctxs.filter (fun c => s.ctxState c == Ctx.preempted)
  let s := cs.foldl State.resume s
  let s := (s.goto s.readyState).lifeSet (recordOff s.brace.record + 8) 8 s.time
  let s := { s.wr F.mgtBraceStatus_PHASE 0 0 with start := { s.start with fromBrace := false } }
  s.raise (hubNtc 0x0E08 Sev.info ((s.ivl - s.brace.startIvl) / 1000000 % 2 ^ 32) cs.length s.dev)

/-- RESUME during a held start: the start repeats the interrupted step (R498). -/
def State.endHeld (s : State) (d : Nat) : State :=
  let s := { s.goto d with start := { s.start with held := none } }
  let s := s.lifeSet (recordOff s.brace.record + 8) 8 s.time
  if d = Dev.bringup then (coreDoms.filter isDieDom).foldl (fun s d => s.setDom d Dom.on) s else s

end Sys2Proof.Machine
end

