-- ==== Sys2Proof/Machine/Rel.lean ====
section
/-!
DEFINITION. Reliability and service (R311, R396, R517 to R532, R600): coolant and corrected-error windows, shocks, samples
and mirrors of the life log, the power warning, tests of idle tiles, scrubs, inner counts, and telemetry.
-/
namespace Sys2Proof.Machine

/-- Causes that rest on operation are evaluated from BRINGUP onward (R519). -/
def State.causesOn (s : State) : Bool := decide (s.dev ≥ Dev.bringup)

/-! ### Coolant (R517, R616) -/

/-- The inlet has been above 40.0 °C since, or at or below 38.0 °C since. -/
def State.readCoolant (s : State) (inlet outlet : Nat) : State :=
  let since (now : Bool) (t : Option Nat) : Option Nat := if now then some (t.getD s.ivl) else none
  { s with pins := { s.pins with coolantIn := inlet, coolantOut := outlet },
           rel := { s.rel with hotSince := since (decide (inlet > 400)) s.rel.hotSince,
                               coolSince := since (decide (inlet ≤ 380)) s.rel.coolSince } }

/-- Nanoseconds since a moment; 0 when it never was. -/
def State.sinceNs (s : State) (t : Option Nat) : Nat := s.ivl - t.getD s.ivl

/-- COOLANT_CHECK (R517, R541). -/
def execCoolantCheck (inlet outlet : BitVec 12) (s : State) : Host.Outcome State Fault Refusal :=
  .next (
    if s.dev = Dev.off then s
    else
      let s := s.readCoolant inlet.toNat outlet.toNat
      let hot := s.sinceNs s.rel.hotSince
      if !s.causesOn then s
      else if hot > 60000000000 then
        if (s.rd F.mgtDegraded_CAUSES).testBit Cse.coolant then s
        else (s.raise (hubNtc 0x0E0B Sev.warn inlet.toNat (hot / 1000000000 % 2 ^ 32) 0)).setCause Cse.coolant inlet.toNat
      else if s.sinceNs s.rel.coolSince ≥ 600000000000 then s.clearCause Cse.coolant
      else s)

/-! ### Corrected-error windows (R517, R323) -/

/-- CE_THRESHOLD of the configuration (R484). -/
def State.ceThreshold (s : State) : Nat := s.item 5 1 0 10000

/-- The channels above the threshold in the window that ends, with their counts. -/
def State.ceHigh (s : State) : Tbl Nat := s.rel.ceWin.filter (fun e => decide (e.2 > s.ceThreshold))

/-- CE_WINDOW_END (R517): six windows in a row above the threshold set the cause, 24 with no channel above it clear it. -/
def execCeWindowEnd (s : State) : Host.Outcome State Fault Refusal :=
  .next (
    if !s.causesOn then s
    else
      let hi := s.ceHigh
      let isOver := hi.map (fun e => (e.1, lookD s.rel.ceOver e.1 0 + 1))
      let clean := if hi = [] then s.rel.ceClean + 1 else 0
      let s := { s with rel := { s.rel with ceWin := [], ceOver := isOver, ceClean := clean } }
      let s := hi.foldl (fun s e => s.raise (memNtc 0x0303 Sev.warn (e.1 / 128) (e.1 / 128) (e.1 % 128) (min (maxOf 32) e.2))) s
      if isOver.any (fun e => decide (e.2 ≥ 6)) then s.setCause Cse.ceRate 0
      else if clean ≥ 24 then s.clearCause Cse.ceRate else s)

/-! ### Shocks (R527, R528) -/

/-- SHOCK_BEGIN (R528): an event begins above 2 g, and its peak is tracked. Magnitudes are in 0.1 g. -/
def execShockBegin (magnitude : BitVec 16) (axis : Fin 3) (s : State) : Host.Outcome State Fault Refusal :=
  let m := magnitude.toNat
  .next (
    if s.dev = Dev.off ∨ m ≤ 20 then s
    else
      let now := match s.rel.shock with
        | none => (m, axis.val, s.ivl)
        | some (p, a, t) => if p < m then (m, axis.val, t) else (p, a, t)
      { s with rel := { s.rel with shock := some now } })

/-- The lower edges of the bins of SHOCK_HIST, in 0.1 g. -/
def shockEdges : List Nat := [20, 30, 40, 50, 60, 80, 100, 120, 150, 200, 250, 300, 400, 500, 640]

/-- The bin of a peak above 2 g. -/
def shockBin (peak : Nat) : Nat := (shockEdges.filter (· ≤ peak)).length - 1

/-- Shock events counted in SHOCK_HIST. -/
def State.shockCount (s : State) : Nat := ((List.range 16).map (fun b => s.lifeGet (0x5380 + 4 * b) 4)).sum

/-- SHOCK_END (R527, R528, R540, R541). -/
def execShockEnd (s : State) : Host.Outcome State Fault Refusal :=
  .next (match s.rel.shock with
    | none => s
    | some (peak, axis, t) =>
      let ms := min 65535 ((s.ivl - t) / 1000000)
      let rec_ := natLE 8 s.time ++ natLE 2 peak ++ natLE 1 axis ++ natLE 1 s.dev ++ natLE 2 ms ++ natLE 2 0
      let s := { s with rel := { s.rel with shock := none }, life := s.life.writeN (0x53C0 + 16 * (s.shockCount % 64)) rec_ }
      let s := (s.lifeAdd (0x5380 + 4 * shockBin peak) 4 1).lifeSet 44 2 (max (s.lifeGet 44 2) peak)
      let s := (s.wr F.mgtShock_LAST_PEAK 0 peak).wr F.mgtShock_MAX_PEAK 0 (max (s.rd F.mgtShock_MAX_PEAK) peak)
      (s.count F.mgtShock_EVENTS 0 1).raise (hubNtc 0x0E0A (if peak > 100 then Sev.warn else Sev.info) peak axis ms))

/-! ### Samples and mirrors of the life log (R527 to R529) -/

/-- The bin of a temperature in °C. -/
def tempBin (t : Nat) : Nat := min 24 (t / 5)
/-- The bin of a J2 voltage in millivolts. -/
def supplyBin (mv : Nat) : Nat := if mv < 48000 then 0 else if mv ≥ 60000 then 31 else 1 + (mv - 48000) / 400

/-- LIFE_SAMPLE (R528): one second in one bin of each die, D0 to D3 and then H, and in one bin of the supply. -/
def execLifeSample (temps : List (BitVec 8)) (mv : BitVec 16) (s : State) : Host.Outcome State Fault Refusal :=
  .next (
    if s.dev = Dev.off then s
    else
      let s := ((temps.take 5).zipIdx).foldl (fun s t =>
        (s.readTemp t.2 t.1.toNat).lifeAdd (0x00C0 + 4 * (25 * t.2 + tempBin t.1.toNat)) 4 1) s
      { s.lifeAdd (0x02C0 + 4 * supplyBin mv.toNat) 4 1 with pins := { s.pins with supplyMv := mv.toNat } })

/-- The core of the life log and of NVM works (R523, R524), and the log has been restored (R530). -/
def State.logReady (s : State) : Bool := decide (s.dev ≥ Dev.cfgCheck) && !s.dutyHeld 3

/-- LIFE_MIRROR (R529): every 10 min. -/
def execLifeMirror (s : State) : Host.Outcome State Fault Refusal :=
  .next (if s.logReady ∧ s.ivl - s.rel.mirrorAt ≥ 600000000000 then s.writeMirror.2 else s)

/-! ### The power warning (R532) and NVM_WP_N (R600) -/

/-- The area of the mailbox's NVM write under way, as the arguments of PWR_WARN_FLUSH name it: 1 a blob, 0 another or
none. -/
def State.writeArea (s : State) : Nat :=
  match s.mbox with
  | some j => if j.writes.isSome && j.cmd == 2 then 1 else 0
  | none => 0

/-- A flush record on both devices, counted when one of them holds it. -/
def State.flush (s : State) (area : Nat) : State :=
  let n := s.nvmA.flushes.length + s.nvmB.flushes.length
  let s := { (s.putFlush false).putFlush true with rel := { s.rel with lastFlush := some s.ivl } }
  let s := if s.nvmA.flushes.length + s.nvmB.flushes.length = n then s else s.count F.mgtLifeStatus_FLUSHES 0 1
  s.raise (hubNtc 0x0E09 Sev.warn (s.rd F.mgtLifeStatus_FLUSHES) area 0)

/-- POWER_WARNING (R532): within 100 ms of a flush it is counted and not flushed again. -/
def execPowerWarning (s : State) : Host.Outcome State Fault Refusal :=
  .next (
    if s.dev = Dev.off then s
    else
      let s := { (s.wr F.mgtBraceStatus_PWR_WARN 0 1).lifeAdd (lifeEvent 7) 8 1 with pins := { s.pins with pwrWarnLow := true } }
      let recent : Bool := match s.rel.lastFlush with
        | some t => decide (s.ivl < t + 100000000)
        | none => false
      if recent || decide (s.dev < Dev.rom) then s
      else s.abandonWrite.flush s.writeArea)

/-- NVM_WRITE_PROTECT_CHANGE (R600): asserted, it abandons the write under way. -/
def execNvmWriteProtectChange (asserted : Bool) (s : State) : Host.Outcome State Fault Refusal :=
  let s := { s with pins := { s.pins with nvmWp := asserted } }
  .next (if asserted then s.abandonWrite else s)

/-! ### Tests of idle tiles (R521) -/

/-- A tile is due for its test. -/
def State.testDue (s : State) (t : Nat) : Bool :=
  let off := match look s.rel.offSince (tileDom t) with
    | some a => decide (s.ivl ≥ a + 10000000000)
    | none => false
  let old := match look s.rel.tested t with
    | some a => decide (s.ivl + 1 > a + 86400000000000)
    | none => true
  s.serving && s.tilePresent t && !s.domOn (tileDom t) && off && old && !s.rel.testing.contains t

/-- TILE_IDLE_TEST (R521): the test wakes the group. -/
def execTileIdleTest (tile : Fin 48) (s : State) : Host.Outcome State Fault Refusal :=
  .next (if s.testDue tile.val then { s with rel := { s.rel with testing := s.rel.testing ++ [tile.val] } }.askWake (tileDom tile.val) else s)

/-- TILE_TEST_END (R521): code 0 is a pass; another is the failure code. -/
def execTileTestEnd (tile : Fin 48) (code : BitVec 8) (s : State) : Host.Outcome State Fault Refusal :=
  let t := tile.val
  .next (
    if !s.rel.testing.contains t || !s.domOn (tileDom t) then s
    else
      let s := { s with rel := { s.rel with testing := s.rel.testing.filter (· != t), tested := put s.rel.tested t (s.ivl + 1) } }
      if code = 0 then s else s.failTile t code.toNat)

/-! ### Scrubs (R292, R295, R297, R311) -/

/-- The physical address of a stack offset, when a valid region covers it. -/
def State.physOf (s : State) (n o : Nat) : Option Nat :=
  ((List.range 16).map (fun r => (r, s.encodeIn r n o))).find? (fun e => s.inRegion e.1 e.2 && s.decodeIn e.1 e.2 == (n, o))
    |>.map (·.2)

/-- The physical address that a report of a stack granule gives; outside every region it is a free number. -/
def State.reportAddr (s : State) (n o : Nat) : Nat × State :=
  match s.physOf n o with
  | some pa => (pa, s)
  | none => let (v, s) := s.fresh; (v.toNat % 2 ^ 42 * 64, s)

/-- MEM_UNCORRECTABLE of a stack granule (R323). -/
def State.tellGran (s : State) (n o pa : Nat) (poison : Bool) : State :=
  s.raise { code := 0x0302, sev := Sev.error, data := Unit.chan n (chanOf o), ctrl := Path.str Path.barm (Unit.stack n),
            a1 := pa % 2 ^ 32, a2 := pa / 2 ^ 32 + chanOf o <<< 16 + n <<< 23 + b2n poison <<< 28,
            a3 := if s.physOf n o = some pa then (s.regionOf pa).getD 0xFFFFFFFF else 0xFFFFFFFF }

/-- The granule that stands at a key has symbols in error. -/
def State.spoil (s : State) (key : Nat) (symbols : BitVec 72) : State :=
  let g := lookD s.ecc key {}
  if symbols = 0 ∨ g.poison then s
  else { s with ecc := put s.ecc key { g with bad := symbols, stamp := s.nfree }, nfree := s.nfree + 1 }

/-- The scrub's read of a granule: the stack's own copy, whatever the shared cache holds. -/
def State.scrubGran (s : State) (pa n o : Nat) : Bool × State :=
  if s.chanLost n (chanOf o) then (true, s.lostRead pa (.stack n o) false)
  else
    let (gone, t) := s.stackGran pa n o (s.homeKey n o)
    (gone, if s.dirtyAt n o then { t with mem := s.mem } else t)

/-- PATROL_SCRUB (R311): the scrub reads a granule of a stack, whose code finds these symbols in error; a corrected
granule is written back (R294), and a lost one is reported. It restarts no idle period. -/
def execPatrolScrub (stack : Fin 20) (granule : BitVec 32) (symbols : BitVec 72) (s : State) :
    Host.Outcome State Fault Refusal :=
  let n := stack.val
  let o := granule.toNat * 64
  .next (
    if !s.stackUp n ∨ !s.domOn (dieDom (n / 5)) then s
    else
      let s := s.spoil (s.homeKey n o) symbols
      let poison := (lookD s.ecc (s.homeKey n o) {}).poison
      let (pa, s) := s.reportAddr n o
      match s.scrubGran pa n o with
      | (true, s) => s.tellGran n o pa poison
      | (false, s) => s)

/-- A word of a shared cache that cannot be corrected (R295): of a clean line the granule is fetched again from the stack,
and counted as corrected; of a dirty one it is poisoned, and reported. -/
def State.scrubCache (s : State) (n o : Nat) : State :=
  if !s.cached n o then s
  else
    let (pa, s) := s.reportAddr n o
    if s.dirtyAt n o then
      let s := (({ s with ecc := put s.ecc (s.homeKey n o) { poison := true } }).cacheForget n o).logLost pa 0 0 true true
      s.raise { code := 0x0308, sev := Sev.error, data := Unit.die (n / 5), ctrl := Path.bar (n / 5),
                a1 := pa % 2 ^ 32, a2 := pa / 2 ^ 32 + 1 <<< 28 + 1 <<< 29, a3 := 0x100 + n / 5 }
    else
      let s := ((s.cacheForget n o).count F.memEccCount_CORRECTED n 1).lifeAdd (0x0340 + 8 * (128 * n + chanOf o)) 4 1
      let poison := (lookD s.ecc (s.homeKey n o) {}).poison
      match s.judgeGran pa (.stack n o) with
      | (true, s) => s.tellGran n o pa poison
      | (false, s) => s

/-- SRAM_SCRUB (R295, R297, R311, R323): what cannot be corrected is poisoned and reported, but for a clean line of a shared
cache. -/
def execSramScrub (w : SramWord) (s : State) : Host.Outcome State Fault Refusal :=
  .next (match w with
    | .tile _ _ true => s
    | .tile t g false =>
      let pa := 0x080000000000 + t.val * 0x2000000 + g.toNat * 64
      (match s.place pa with
       | .tile _ _ => ((s.poisonGran pa).logLost pa 0 0 true true).tellUncorrectable pa
       | _ => s)
    | .cache _ _ true => s
    | .cache n g false => if s.stackUp n.val then s.scrubCache n.val (g.toNat * 64) else s)

/-- INNER_COUNT_POLL (R292). -/
def execInnerCountPoll (stack : Fin 20) (n : BitVec 16) (s : State) : Host.Outcome State Fault Refusal :=
  .next (if s.stackUp stack.val then s.count F.memEccCount_INNER stack.val n.toNat else s)

/-! ### Telemetry (R396) -/

/-- The kind of a unit with a String that gives telemetry, when the unit is present: 1 tile, 2 stack, 3 port, 4 front end. -/
def State.telemetryKind (s : State) (u : Nat) : Option Nat :=
  let n := u % 4096
  match u / 4096 with
  | 2 => if s.tilePresent n then some 1 else none
  | 4 => if s.stackFitted n then some 2 else none
  | 6 => if s.portFitted n then some 3 else none
  | 7 => if s.kfeFitted n then some 4 else none
  | _ => none

/-- The value of a telemetry entry: what the device itself knows takes the place of the String's number. -/
def State.telemetryValue (s : State) (u kind i v : Nat) : Nat :=
  let n := u % 4096
  if kind = 1 ∧ i = 3 then s.dieRate (n / 12)
  else if kind = 3 ∧ i = 0 then s.rd F.netPortStatus_UP0 n + 2 * s.rd F.netPortStatus_UP1 n
  else if kind = 4 ∧ i = 3 then s.rd F.kfeStatus_UP n
  else v

/-- The telemetry queue of the configuration (R396, R484). -/
def State.telemetryQueue (s : State) : Nat := s.item 4 3 0 0

/-- TELEMETRY_TICK (R396): a one-entry packet at priority 0. -/
def execTelemetryTick (unit : BitVec 16) (v : List (BitVec 32)) (s : State) : Host.Outcome State Fault Refusal :=
  let u := unit.toNat
  .next (match s.telemetryKind u with
    | none => s
    | some k =>
      let q := s.telemetryQueue
      if q < 17 ∨ q > 255 ∨ !(s.serving ∨ s.dev = Dev.paused ∨ s.dev = Dev.braced) then s
      else
        let vs := (List.range 4).map (fun i => s.telemetryValue u k i ((v.getD i 0).toNat))
        (s.enqueue q 0 [natLE 8 s.time ++ natLE 2 u ++ natLE 2 k ++ vs.flatMap (natLE 4) ++ natLE 4 0] 2).2)

end Sys2Proof.Machine
end

