-- ==== Sys2Proof/Machine/Sec.lean ====
section
/-!
DEFINITION. Attestation (R549 to R551) and firmware update (R552 to R565): reports, the staging of an image, scheduled and
immediate activation, the activation pause, its swap, its rollback and its end.
-/
namespace Sys2Proof.Machine

/-! ### Results (R557, R578) -/

abbrev Res.done : Nat := 0
abbrev Res.busy : Nat := 1
abbrev Res.wrongState : Nat := 2
abbrev Res.method : Nat := 3
abbrev Res.noStaged : Nat := 4
abbrev Res.notLive : Nat := 5
abbrev Res.rejected : Nat := 6
abbrev Res.tooLarge : Nat := 7
abbrev Res.readFail : Nat := 8
abbrev Res.nvmFail : Nat := 9
abbrev Res.timePast : Nat := 10
abbrev Res.invalid : Nat := 11
abbrev Res.hostReadFail : Nat := 12
abbrev Res.notLoaded : Nat := 13
abbrev Res.sequence : Nat := 14
abbrev Res.doneNextStart : Nat := 15
abbrev Res.pinAsserted : Nat := 16
abbrev Res.noIdentity : Nat := 17
abbrev Res.unknownCommand : Nat := 18
abbrev Res.badArgument : Nat := 19

/-! ### Attestation (R549 to R551) -/

/-- An entry of a report. -/
def measurement (typ ver : Nat) (hash : List Byte) : List Byte := natLE 2 typ ++ natLE 2 0 ++ natLE 4 ver ++ hash

/-- The measurements present, in ascending type (R550). -/
def State.measurements (s : State) : List (List Byte) :=
  let recs := s.repairRecords
  s.sec.parts.map (fun p => measurement p.1 (leNat (p.2.take 4)) (p.2.drop 4)) ++
  (if s.start.digest = [] then [] else [measurement 16 (s.start.seq % 2 ^ 32) s.start.digest]) ++
  [measurement 17 recs.length (sha3 (recs.flatMap (fun r => slice r 0 1600))),
   measurement 18 (s.rd F.secFwRunning_RELEASE) s.sec.manifest] ++
  (if s.flag F.secFwStaged_VALID then [measurement 19 (s.rd F.secFwStaged_RELEASE) s.sec.stagedManifest] else [])

/-- DEVICE_ID as the registers hold it (R544). -/
def State.deviceId (s : State) : List Byte := (List.range 4).flatMap (fun i => natLE 8 (s.rd F.secDeviceId_ID i))

/-- What a report signs (R549). -/
def State.reportBody (s : State) (nonce : List Byte) : List Byte :=
  let ms := s.measurements
  natLE 4 0x41584247 ++ natLE 2 1 ++ natLE 2 ms.length ++ s.deviceId ++ slice (nonce ++ List.replicate 32 0) 0 32 ++
  natLE 8 s.time ++ natLE 1 s.dev ++
  natLE 1 (s.rd F.secFwRunning_COUNTERSIGNED + 2 * b2n s.countersignAsked + 4 * s.rd F.hubState_CFG_HOST +
    8 * b2n (s.rd F.secIdStatus_STATE == 1) + 16 * s.rd F.secFwRunning_LIVE) ++
  natLE 2 (s.rd F.secFwRunning_SECURITY_VERSION) ++ natLE 4 (s.rd F.secFwRunning_RELEASE) ++ natLE 8 s.start.seq ++
  natLE 1 (s.rd F.hubState_BOOT_IMAGE) ++ List.replicate 31 0 ++ ms.flatten

/-- A report for a nonce, or why there is none (R546, R551). -/
def State.attest (s : State) (nonce : List Byte) : Except Nat (List Byte) :=
  if !([Dev.cfgHold, Dev.bringup, Dev.ready, Dev.degraded, Dev.braced].contains s.dev) then .error Res.wrongState
  else match s.sec.xi with
    | none => .error Res.noIdentity
    | some xi => let b := s.reportBody nonce; .ok (b ++ sign xi b)

/-- The report, or the result code as one byte, as the answer on a path that has no result field. -/
def attestAnswer : Except Nat (List Byte) → List Byte
  | .ok bs => bs
  | .error r => natLE 1 r

/-- DOE_ATTEST_REQUEST (R551): PF0 answers from ROM on. -/
def execDoeAttestRequest (nonce : List Byte) (s : State) : Host.Outcome State Fault Refusal :=
  .next (if s.dev < Dev.rom ∨ s.pins.perst then s else s.emit (.doe (attestAnswer (s.attest nonce))))

/-- GCT_ATTEST (R551): a job controller asks on its connection. -/
def execGctAttest (hdr : GctHdr) (nonce : List Byte) (s : State) : Host.Outcome State Fault Refusal :=
  .next (match s.fromController hdr with
    | none => s
    | some (_, s) => s.sendGct hdr.conn.val (.report (attestAnswer (s.attest nonce))))

/-! ### STAGE (R554, R555, R558) -/

/-- The image that STAGE writes: the one not booted; A where none booted. -/
def State.stageTarget (s : State) : Bool :=
  if s.dev = Dev.halted ∧ s.rd F.hubState_HALT_CAUSE = 1 then false else !s.flag F.hubState_BOOT_IMAGE

/-- An image as a firmware area. -/
def readerOf (img : List Byte) : Area.Reader := fun off k => slice img off k

/-- Why an image is rejected: the first failing part type, or 0 for the manifest or the countersignature. -/
def State.imageBad (s : State) (img : List Byte) : Option Nat :=
  let g := readerOf img
  let n := s.nvm s.stageTarget
  if !n.rootOk || !manifestOk g (certKeyOf (n.cert 0)) then some 0
  else match badPart g with
    | some t => some t
    | none => if s.countersignAsked && s.countersign g != 0 then some 0 else none

/-- IMAGE_SEQ for the image to be staged. -/
def State.nextImageSeq (s : State) : Nat :=
  let q (b : Bool) : Nat := if (s.nvm b).headerOk then (s.nvm b).imageSeq else 0
  max (q false) (q true) + 1

/-- The header of an image (R479). -/
def imageHeader (seq : Nat) : List Byte :=
  let h := natLE 4 0x49584247 ++ natLE 2 1 ++ natLE 2 0 ++ natLE 8 seq
  h ++ natLE 4 (crc32c h)

/-- A mailbox STAGE is in progress. -/
def State.staging (s : State) : Bool :=
  match s.mbox with
  | some j => j.cmd == 3 && j.writes.isSome
  | none => false

/-- An activation is preparing, armed or waiting. -/
def State.armed (s : State) : Bool := s.rd F.secActStatus_STATE != 0

/-- The staged image is gone. -/
def State.unstage (s : State) : State :=
  { s.setReg Reg.secFwStaged 0 0 with sec := { s.sec with stagedManifest := [], stagedParts := [], stagedMajor := 0, stagedMinor := 0,
                                                          liveMin := 0, liveMax := 0 } }

/-- The start of a STAGE: its checks, and step 1 of R558. Answers the result, the detail, and what is to be written, the
header first. -/
def State.stageBegin (s : State) (img : Option (List Byte)) (len : Nat) : Nat × Nat × Option (Bool × List Byte) × State :=
  if s.staging ∨ s.armed then (Res.busy, 0, none, s)
  else if len > imageMax then (Res.tooLarge, 0, none, s)
  else match img with
    | none => (Res.readFail, 0, none, s)
    | some bs => match s.imageBad bs with
      | some t => (Res.rejected, t, none, s.raise (hubNtc 0x0D05 Sev.warn Res.rejected t (mf (readerOf bs) 8 4)))
      | none =>
        let b := s.stageTarget
        let h := imageHeader s.nextImageSeq
        match s.nvmWrite b 0 0x10000 [] with
        | (false, s) => (Res.nvmFail, 0, none, s)
        | (true, s) => (Res.done, 0, some (b, h ++ bs), s.unstage)

/-- The staged image may be activated in place (R564); LIVE_FROM_MAX 0 never allows it (R552). -/
def State.liveOk (s : State) : Bool :=
  let r := s.rd F.secFwRunning_RELEASE
  decide (s.sec.liveMax ≠ 0 ∧ s.sec.liveMin ≤ r ∧ r ≤ s.sec.liveMax ∧ s.sec.stagedMajor = s.start.schemaMajor ∧ s.start.schemaMinor ≤ s.sec.stagedMinor)

/-- SEC_FW_STAGED and what activation needs of the staged image (R566). -/
def State.noteStaged (s : State) (bs : List Byte) : State :=
  let g := readerOf bs
  let sec := { s.sec with stagedManifest := sha3 (g 0 manifestEnd), stagedParts := partsOf g, stagedMajor := mf g 14 1,
                          stagedMinor := mf g 15 1, liveMin := mf g 16 4, liveMax := mf g 20 4 }
  let s := { s with sec := sec }
  let s := ((s.wr F.secFwStaged_RELEASE 0 (mf g 8 4)).wr F.secFwStaged_SECURITY_VERSION 0 (mf g 12 2)).wr F.secFwStaged_VALID 0 1
  (s.wr F.secFwStaged_COUNTERSIGNED 0 (b2n (s.countersign g == 0))).wr F.secFwStaged_LIVE_OK 0 (b2n s.liveOk)

/-- Steps 2 and 3 of R558. -/
def State.stageEnd (s : State) (b : Bool) (data : List Byte) : Nat × State :=
  let bs := data.drop 20
  match s.nvmWrite b Area.firmware 0x0C000000 bs with
  | (false, s) => (Res.nvmFail, s)
  | (true, s) =>
    match s.nvmWrite b 0 0 (data.take 20) with
    | (false, s) => (Res.nvmFail, s)
    | (true, s) =>
      let s := s.noteStaged bs
      (Res.done, s.raise (hubNtc 0x0D04 Sev.info (s.rd F.secFwStaged_RELEASE) (s.rd F.secFwStaged_SECURITY_VERSION) (b2n b)))

/-! ### SCHEDULE, NOW and CANCEL (R557, R559, R560, R563) -/

/-- UPDATE_METHOD is live (R559). -/
def State.liveMethod (s : State) : Bool := s.item 8 3 0 0 == 1

/-- SCHEDULE. -/
def State.actSchedule (s : State) (time window ctx : Nat) (fallback : Bool) : Nat × State :=
  if !s.serving ∧ s.dev ≠ Dev.cfgHold then (Res.wrongState, s)
  else if !s.liveMethod then (Res.method, s)
  else if s.staging ∨ s.armed then (Res.busy, s)
  else if !s.flag F.secFwStaged_VALID then (Res.noStaged, s)
  else if !s.liveOk then (Res.notLive, s)
  else if time < s.time then (Res.timePast, s)
  else if window = 0 then (Res.badArgument, s)
  else
    let s := (s.wr F.secActTime_TIME 0 time).wr F.secActStatus_STATE 0 1
    let s := (s.wr F.secActStatus_FALLBACK 0 (b2n fallback)).wr F.secActStatus_CTX 0 ctx
    (Res.done, { s.wr F.secActStatus_WINDOW_MS 0 window with sec := { s.sec with boundary := false } })

/-- CANCEL. -/
def State.actCancel (s : State) : Nat × State :=
  if !s.armed then (Res.done, s)
  else (Res.done, { (s.wr F.secActStatus_STATE 0 0).wr F.secActStatus_LAST_RESULT 0 5 with sec := { s.sec with boundary := false } })

/-- HOLD on every open GCT connection whose wire format has it (R456). -/
def State.sendHold (s : State) (ns : Nat) : State :=
  ((List.range 4096).filter (fun c => s.gctOpen c && decide (s.connVer c 0 ≥ 2))).foldl (fun s c => s.sendGct c (.hold ns)) s

/-- The pause begins (R561 steps 1 and 2): HOLD, PAUSED, and the clocks of waits stand. -/
def State.beginPause (s : State) (holdNs drainNs : Nat) : State :=
  let s := if s.netUp then s.sendHold holdNs else s
  let from_ := s.dev
  let s := (s.goto Dev.paused).wr F.secActStatus_STATE 0 4
  { s with sec := { s.sec with pausedAt := s.ivl, drainLimit := drainNs, pausedFrom := from_, boundary := false } }.retime

/-- NOW (R559, R563). -/
def State.actNow (s : State) : Nat × State :=
  if s.dev = Dev.halted then (if s.mayRestart then (Res.done, s.warmReset false false) else (Res.wrongState, s))
  else if !s.serving ∧ s.dev ≠ Dev.cfgHold then (Res.wrongState, s)
  else if s.serving ∧ !s.liveMethod then (Res.method, s)
  else if s.staging then (Res.busy, s)
  else if !s.flag F.secFwStaged_VALID then (Res.noStaged, s)
  else if !s.liveOk then (Res.notLive, s)
  else (Res.done, s.beginPause 2030000000 1000000000)

/-! ### The pause (R560 to R562, R565) -/

/-- The length of the pause so far, in microseconds. -/
def State.pauseUs (s : State) : Nat := (s.ivl - s.sec.pausedAt) / 1000

/-- The pause ends with a result: units continue, fetch resumes, disables that it held run, and then a brace that it held. -/
def State.endPause (s : State) (result : Nat) : State :=
  let s := (s.wr F.secActStatus_LAST_PAUSE_US 0 (min (maxOf 21) s.pauseUs)).wr F.secActStatus_LAST_RESULT 0 result
  let s := (s.wr F.secActStatus_STATE 0 0).goto (if s.sec.pausedFrom = Dev.cfgHold then Dev.cfgHold else s.readyState)
  let held := s.sec.heldDisable
  let brace := s.sec.braceWaiting
  let s := { s with sec := { s.sec with heldDisable := [], braceWaiting := false } }.retime
  let s := held.foldl State.disable s
  if brace then (if s.serving then s.startBrace else s.startRecord 0) else s

/-- The staged parts run (R561 steps 4 and 5): the measurements and the registers of the running release. -/
def State.runStaged (s : State) : State :=
  let s := { s with sec := { s.sec with parts := s.sec.stagedParts, manifest := s.sec.stagedManifest } }
  let s := (s.wr F.secFwRunning_RELEASE 0 (s.rd F.secFwStaged_RELEASE)).wr F.secFwRunning_SECURITY_VERSION 0 (s.rd F.secFwStaged_SECURITY_VERSION)
  let s := (s.wr F.secFwRunning_COUNTERSIGNED 0 (s.rd F.secFwStaged_COUNTERSIGNED)).wr F.secFwRunning_LIVE 0 1
  let ver := leNat ((((s.sec.parts.find? (fun p => p.1 == 5)).map (·.2)).getD []).take 2)
  let s := (List.range 4).foldl (fun s k => if s.kfeFitted k then s.wr F.kfeStatus_UCODE_VER k ver else s) s
  s.unstage

/-- The swap of parts, its check, and the end of the pause; a failure restores the previous parts, and a rollback that
fails is a warm reset (R562). A core that is being restarted fails the swap (R565). -/
def State.swap (s : State) (r : SwapReport) : State :=
  let s := { s with clk := s.clk.pass r.ns.toNat }.account r.ns.toNat
  let bad : Option Nat := if s.rel.halted != [] then some 1 else r.failing.map (·.val)
  match bad with
  | none =>
    let old := s.rd F.secFwRunning_RELEASE
    let s := s.runStaged
    let us := s.pauseUs
    (s.endPause 1).raise (hubNtc 0x0D06 Sev.info (s.rd F.secFwRunning_RELEASE) old (us % 2 ^ 32))
  | some t =>
    if r.rollbackFails then s.warmReset false true
    else
      let us := s.pauseUs
      (s.endPause 4).raise (hubNtc 0x0D09 Sev.error t (s.rd F.secFwRunning_RELEASE) (us % 2 ^ 32))

/-- ACTIVATION_PAUSE (R560 to R562): at the boundary the pause begins; in the pause, once the units stand at their restart
points, the parts are swapped and the pause ends. -/
def execActivationPause (r : SwapReport) (s : State) : Host.Outcome State Fault Refusal :=
  .next (
    if s.dev = Dev.paused then s.swap r
    else if s.serving ∧ s.rd F.secActStatus_STATE = 3 ∧ s.sec.boundary then s.beginPause 70000000 10000000
    else s)

/-- ACTIVATION_DRAIN_TIMEOUT (R561 step 3): some unit holds up the pause, and the activation is abandoned. -/
def execActivationDrainTimeout (units : BitVec 32) (s : State) : Host.Outcome State Fault Refusal :=
  .next (
    if s.dev ≠ Dev.paused ∨ s.ivl - s.sec.pausedAt < s.sec.drainLimit then s
    else
      let us := s.pauseUs
      (s.endPause 3).raise (hubNtc 0x0D08 Sev.warn units.toNat (us % 2 ^ 32) 0))

/-- ACTIVATION_PREPARED (R560): parts that do not pass their check, and a core that is being restarted, make the
preparation go on (R565). -/
def execActivationPrepared (ok : Bool) (s : State) : Host.Outcome State Fault Refusal :=
  .next (if s.rd F.secActStatus_STATE = 1 ∧ ok ∧ s.rel.halted = [] then s.wr F.secActStatus_STATE 0 2 else s)

/-- ACTIVATION_TIME (R560). -/
def execActivationTime (s : State) : Host.Outcome State Fault Refusal :=
  .next (if s.rd F.secActStatus_STATE = 2 ∧ s.rd F.secActTime_TIME ≤ s.time then s.wr F.secActStatus_STATE 0 3 else s)

/-- The activation is dropped as missed. -/
def State.missActivation (s : State) : State :=
  let s := { (s.wr F.secActStatus_STATE 0 0).wr F.secActStatus_LAST_RESULT 0 2 with sec := { s.sec with boundary := false } }
  s.raise (hubNtc 0x0D07 Sev.warn (s.rd F.secActTime_TIME % 2 ^ 32) (s.rd F.secActStatus_WINDOW_MS) (b2n (s.dev == Dev.braced)))

/-- ACTIVATION_WINDOW_EXPIRY (R560, R565): FALLBACK begins the pause, but not while the device is BRACED, nor before the
parts are prepared. -/
def execActivationWindowExpiry (s : State) : Host.Outcome State Fault Refusal :=
  let st := s.rd F.secActStatus_STATE
  .next (
    if !(1 ≤ st ∧ st ≤ 3) ∨ s.time < s.rd F.secActTime_TIME + s.rd F.secActStatus_WINDOW_MS * 1000000 ∨ s.sec.boundary then s
    else if s.flag F.secActStatus_FALLBACK ∧ st ≠ 1 ∧ (s.serving ∨ s.dev = Dev.cfgHold) then s.beginPause 70000000 10000000
    else s.missActivation)

end Sys2Proof.Machine
end

