-- ==== Sys2Proof/Machine/Mbox.lean ====
section
/-!
DEFINITION. The PF0 mailbox (R490 to R493, R531, R536, R551, R557, R576 to R578): its commands, their results, and the
requests of job controllers that mean the same.
-/
namespace Sys2Proof.Machine

/-- What a command comes to: result, detail, what it writes to NVM before it ends, and the state. -/
structure Ran where
  result : Nat
  detail : Nat := 0
  writes : Option (Bool × List Byte) := none
  s : State

/-- A transfer with host memory works or fails: Bus Master Enable and what else it rests on lie outside the device, so
this is a free choice (R577, log entry 132). -/
def State.transferFails (s : State) : Bool × State := let (v, s) := s.fresh; (v.getLsbD 0, s)

/-- Bytes read from host memory; none where the transfer fails. -/
def State.fromHost (s : State) (addr len : Nat) : Option (List Byte) × State :=
  match s.transferFails with
  | (true, s) => (none, s)
  | (false, s) => (some (s.host.readN addr len), s)

/-- The end of a command that writes host memory: DETAIL counts what it has written (R577). -/
def State.toHost (s : State) (addr : Nat) (bs : List Byte) (detail : Nat) : Ran :=
  match s.transferFails with
  | (true, s) => { result := Res.hostReadFail, s := s }
  | (false, s) => { result := Res.done, detail := detail, s := { s with host := s.host.writeN addr bs } }

/-! ### Configuration (R492, R493) -/

/-- CFG_LOAD. -/
def State.runLoad (s : State) (addr len : Nat) : Ran :=
  if !s.serving ∧ s.dev ≠ Dev.cfgHold ∧ s.dev ≠ Dev.bringup then { result := Res.wrongState, s := s }
  else if len > blobMax then { result := Res.badArgument, s := s }
  else
    match s.fromHost addr len with
    | (none, s) => { result := Res.hostReadFail, s := s }
    | (some b, s) =>
      match s.hostFindings b with
      | [] =>
        if s.dev = Dev.bringup then { result := Res.done, s := s }
        else { result := Res.done, s := { s.wr F.hubState_STAGED 0 1 with start := { s.start with staged := some b } } }
      | fs => { result := Res.invalid, detail := fs.length, s := { s with start := { s.start with findings := fs } } }

/-- The image that CFG_COMMIT writes. -/
def State.commitTarget (s : State) : Bool :=
  match s.start.chosen with
  | some b => !b
  | none => false

/-- SEQUENCE is greater than that of every intact copy. -/
def State.seqNew (s : State) (b : List Byte) : Bool :=
  [s.nvmA.blobCopy, s.nvmB.blobCopy].all (fun c => (blobTorn c false).isSome || decide (blobSeq c < blobSeq b))

/-- The findings of R289 on the regions as they stand when CFG_HOLD is left (R316). -/
def State.regionFindings (s : State) : List Finding :=
  let l := s.regImgs.filter (fun a => a.reg == Reg.memRegionCfg || a.reg == Reg.memReserve)
  s.rangeFindings 2 l ++ s.unitFindings 2 l

/-- A committed blob starts BRINGUP in CFG_HOLD, unless the regions that it and the host's writes give are inconsistent. -/
def State.commitStart (s : State) (b : List Byte) (image : Option Bool) : State :=
  let s := { s.wr F.hubState_STAGED 0 0 with start := { s.start with staged := none } }
  let s := s.raise (hubNtc 0x0103 Sev.info (blobSeq b % 2 ^ 32) (b2n image.isSome) (image.elim 0xFFFFFFFF b2n))
  let s := s.enterBringup b (image.getD false) image.isNone
  match s.regionFindings with
  | [] => s
  | fs => s.netOff.enterHold (fs.take 64)

/-- CFG_COMMIT. -/
def State.runCommit (s : State) (writeNvm : Bool) : Ran :=
  if s.dev ≠ Dev.cfgHold ∧ !(s.serving ∧ writeNvm) then { result := Res.wrongState, s := s }
  else match s.start.staged with
    | none => { result := Res.notLoaded, s := s }
    | some b =>
      if !writeNvm then { result := Res.done, detail := 0xFFFFFFFF, s := s.commitStart b none }
      else if !s.seqNew b then { result := Res.sequence, detail := 0xFFFFFFFF, s := s }
      else { result := Res.done, detail := b2n s.commitTarget, writes := some (s.commitTarget, b), s := s }

/-- The write of a CFG_COMMIT. -/
def State.commitEnd (s : State) (image : Bool) (b : List Byte) : Nat × State :=
  match s.nvmWrite image Area.blob 0x1000000 b with
  | (false, s) => (Res.nvmFail, s.raise (hubNtc 0x0109 Sev.error (b2n image) Area.blob 1))
  | (true, s) =>
    if s.dev = Dev.cfgHold then (Res.done, s.commitStart b (some image))
    else (Res.doneNextStart, { s.wr F.hubState_STAGED 0 0 with start := { s.start with staged := none } })

/-! ### ACTIVATE (R557) -/

/-- The states in which ACTIVATE is accepted (R491). -/
def State.mayActivate (s : State) : Bool := s.serving || s.dev == Dev.cfgHold || s.dev == Dev.halted

/-- A sub-command's result without a detail. -/
def ranOf (r : Nat × State) : Ran := { result := r.1, s := r.2 }

/-- STAGE with an image. -/
def State.runStage (s : State) (img : Option (List Byte)) (len : Nat) : Ran :=
  if !s.mayActivate then { result := Res.wrongState, s := s }
  else match s.stageBegin img len with
    | (r, d, w, s) => { result := r, detail := d, writes := w, s := s }

def State.runActivate (s : State) (sub a1 a2 : Nat) : Ran :=
  if !s.mayActivate then { result := Res.wrongState, s := s }
  else match sub with
    | 1 => let (img, s) := s.fromHost a1 (min a2 imageMax); s.runStage img a2
    | 2 => ranOf (s.actSchedule a1 (bitsOf a2 0 16) (bitsOf a2 16 4) (bitsOf a2 20 1 == 1))
    | 3 => ranOf s.actNow
    | 4 => ranOf s.actCancel
    | _ => { result := Res.badArgument, s := s }

/-! ### RESUME, LIFE_READ, ATTEST, DIAG -/

/-- RESUME (R498, R536). -/
def State.runResume (s : State) : Ran :=
  if s.dev ≠ Dev.braced then { result := Res.wrongState, s := s }
  else if s.pins.braceLow then { result := Res.pinAsserted, s := s }
  else match s.start.held with
    | some d => { result := Res.done, s := s.endHeld d }
    | none => if s.rd F.mgtBraceStatus_PHASE = 6 then { result := Res.done, s := s.endBrace } else { result := Res.busy, s := s }

/-- LIFE_READ (R531). Without an identity no mirror is written, and SOURCE 1 returns the newest that verifies (R546). -/
def State.runLifeRead (s : State) (source : Bool) (off len addr : Nat) : Ran :=
  if !s.serving ∧ !([Dev.cfgHold, Dev.bringup, Dev.halted, Dev.braced].contains s.dev) then { result := Res.wrongState, s := s }
  else if off + len > (if source then 32768 else 24576) then { result := Res.badArgument, s := s }
  else if !source then s.toHost addr (s.life.readN off len) len
  else if s.sec.xi.isNone then
    match newest s.mirrors with
    | some (_, b, i) => s.toHost addr ((s.nvm b).get (Area.mirrors + 32768 * i + off) len) len
    | none => { result := Res.nvmFail, s := s }
  else match s.writeMirror with
    | (false, s) => { result := Res.nvmFail, s := s }
    | (true, s) =>
      let q := s.lifeGet 8 8
      s.toHost addr ((s.nvm (q % 2 == 1)).get (mirrorOff q + off) len) len

/-- ATTEST (R551). -/
def State.runAttest (s : State) (addr : Nat) (nonce : List Byte) : Ran :=
  match s.attest nonce with
  | .error r => { result := r, s := s }
  | .ok bs => s.toHost addr bs bs.length

/-- DIAG (R490, R499, R577). -/
def State.runDiag (s : State) (sub addr : Nat) : Ran :=
  if s.dev = Dev.paused then { result := Res.wrongState, s := s }
  else match sub with
    | 1 => s.toHost addr (s.start.findings.flatMap Finding.bytes) s.start.findings.length
    | 2 => if s.mayRestart then { result := Res.done, s := s.warmReset true false } else { result := Res.wrongState, s := s }
    | 3 => s.toHost addr s.start.kept.flatten s.start.kept.length
    | _ => { result := Res.badArgument, s := s }

/-! ### The mechanism (R576) -/

/-- A command run by its code and arguments (R577). -/
def State.mboxRun (s : State) (cmd : Nat) (args : List Nat) : Ran :=
  let a (i : Nat) : Nat := args.getD i 0
  match cmd with
  | 1 => s.runLoad (a 0) (a 1)
  | 2 => s.runCommit ((a 0).testBit 0)
  | 3 => s.runActivate (bitsOf (a 0) 0 8) (a 1) (a 2)
  | 4 => s.runResume
  | 5 => s.runLifeRead ((a 0).testBit 0) (bitsOf (a 1) 0 32) (bitsOf (a 1) 32 32) (a 2)
  | 6 => s.runAttest (a 0) ((List.range 4).flatMap (fun i => natLE 8 (a (4 + i))))
  | 7 => s.runDiag (bitsOf (a 0) 0 8) (a 1)
  | _ => { result := Res.unknownCommand, s := s }

/-- The command in the mailbox begins its work; a warm reset that it orders ends it without a result. -/
def State.mboxBegin (s : State) : State :=
  match s.mbox with
  | none => s
  | some j =>
    if j.begun then s
    else
      let r := s.mboxRun j.cmd j.args
      { r.s with mbox := r.s.mbox.map (fun j => { j with begun := true, result := r.result, detail := r.detail, writes := r.writes }) }

/-- GO: one command at a time. It waits while core 0's duties pause (R524). -/
def State.mboxGo (s : State) : State :=
  if s.mbox.isSome then s
  else
    let j : MboxJob := { cmd := s.rd F.hubMboxCmd_CMD, args := (List.range 8).map (fun i => s.rd F.hubMboxArg_VALUE i) }
    let s := { s.wr F.hubMboxStatus_BUSY 0 1 with mbox := some j }
    if s.dutyHeld 0 then s else s.mboxBegin

/-- The host writes arguments, and then the command with GO; from ROM on there is a mailbox. -/
def State.mboxWrite (s : State) (cmd : Nat) (args : List (Nat × Nat)) : State :=
  if s.dev < Dev.rom then s
  else ((args.foldl (fun s a => s.wr F.hubMboxArg_VALUE a.1 a.2) s).wr F.hubMboxCmd_CMD 0 cmd).mboxGo

/-- The NVM write of a command, at its end. -/
def State.mboxFinish (s : State) (j : MboxJob) : Nat × State :=
  match j.writes with
  | none => (j.result, s)
  | some (b, bs) => if j.cmd = 2 then s.commitEnd b bs else s.stageEnd b bs

/-- The end of the command in the mailbox. A result lost to a PF0 reset is not told. -/
def State.mboxEnd (s : State) : State :=
  match s.mbox with
  | none => s
  | some j =>
    let (r, s) := s.mboxFinish j
    let s := { s with mbox := none }
    if j.lost then s
    else
      let s := (s.wr F.hubMboxStatus_BUSY 0 0).wr F.hubMboxStatus_DONE 0 1
      ((s.wr F.hubMboxStatus_RESULT 0 r).wr F.hubMboxStatus_DETAIL 0 j.detail).interrupt 0

/-- MAILBOX_DONE (R576). -/
def execMailboxDone (s : State) : Host.Outcome State Fault Refusal := .next (if s.dutyHeld 0 then s else s.mboxBegin.mboxEnd)

/-! ### The commands as rows -/

/-- CFG_LOAD (R492). -/
def execCfgLoad (addr len : Word) (s : State) : Host.Outcome State Fault Refusal :=
  .next (s.mboxWrite 1 [(0, addr.toNat), (1, len.toNat)])

/-- CFG_COMMIT (R493). -/
def execCfgCommit (writeNvm : Bool) (s : State) : Host.Outcome State Fault Refusal := .next (s.mboxWrite 2 [(0, b2n writeNvm)])

/-- The same request from a job controller that may issue ACTIVATE (R484, R557); it is answered on its connection. -/
def State.ctrlAct (s : State) (hdr : GctHdr) (f : Nat → State → Ran) : State :=
  match s.fromController hdr with
  | none => s
  | some (k, s) =>
    if !(s.ctrlRights k).testBit 18 then s
    else
      let r := f k s
      r.s.sendGct (4080 + k) (.answer r.result r.detail)

/-- A STAGE from the window of a controller's connection, done as one (R558). -/
def State.ctrlStage (s : State) (k addr len : Nat) : Ran :=
  let c := 4080 + k
  let inside := decide (s.connBase c ≤ addr ∧ addr + len ≤ s.connBase c + s.connBytes c ∧ len ≤ imageMax)
  let (img, s) := if inside then s.pushRead (s.connCtx c) addr len else (none, s)
  let r := s.runStage img len
  match r.writes with
  | none => r
  | some (b, bs) => ranOf (r.s.stageEnd b bs)

/-- ACTIVATE_STAGE (R558). -/
def execActivateStage (src : ActSrc) (addr len : Word) (s : State) : Host.Outcome State Fault Refusal :=
  .next (match src with
    | .mailbox => s.mboxWrite 3 [(0, 1), (1, addr.toNat), (2, len.toNat)]
    | .controller h => s.ctrlAct h (fun k s => s.ctrlStage k addr.toNat len.toNat))

/-- ACTIVATE_SCHEDULE (R560). -/
def execActivateSchedule (src : ActSrc) (time : Word) (windowMs : BitVec 16) (ctx : Fin 16) (fallback : Bool) (s : State) :
    Host.Outcome State Fault Refusal :=
  let a2 := windowMs.toNat + ctx.val * 2 ^ 16 + b2n fallback * 2 ^ 20
  .next (match src with
    | .mailbox => s.mboxWrite 3 [(0, 2), (1, time.toNat), (2, a2)]
    | .controller h => s.ctrlAct h (fun _ s => s.runActivate 2 time.toNat a2))

/-- ACTIVATE_NOW (R563). -/
def execActivateNow (src : ActSrc) (s : State) : Host.Outcome State Fault Refusal :=
  .next (match src with
    | .mailbox => s.mboxWrite 3 [(0, 3)]
    | .controller h => s.ctrlAct h (fun _ s => s.runActivate 3 0 0))

/-- ACTIVATE_CANCEL (R557). -/
def execActivateCancel (src : ActSrc) (s : State) : Host.Outcome State Fault Refusal :=
  .next (match src with
    | .mailbox => s.mboxWrite 3 [(0, 4)]
    | .controller h => s.ctrlAct h (fun _ s => s.runActivate 4 0 0))

/-- MBOX_RESUME (R536). -/
def execMboxResume (s : State) : Host.Outcome State Fault Refusal := .next (s.mboxWrite 4 [])

/-- LIFE_READ (R531). -/
def execLifeRead (source : Bool) (offset len : BitVec 32) (addr : Word) (s : State) : Host.Outcome State Fault Refusal :=
  .next (s.mboxWrite 5 [(0, b2n source), (1, offset.toNat + len.toNat * 2 ^ 32), (2, addr.toNat)])

/-- MBOX_ATTEST (R551). -/
def execMboxAttest (addr : Word) (nonce : List Byte) (s : State) : Host.Outcome State Fault Refusal :=
  .next (s.mboxWrite 6 ((0, addr.toNat) :: (List.range 4).map (fun i => (4 + i, leNat (slice nonce (8 * i) 8)))))

/-- DIAG_FINDINGS (R490). -/
def execDiagFindings (addr : Word) (s : State) : Host.Outcome State Fault Refusal := .next (s.mboxWrite 7 [(0, 1), (1, addr.toNat)])

/-- DIAG_RESTART (R490). -/
def execDiagRestart (s : State) : Host.Outcome State Fault Refusal := .next (s.mboxWrite 7 [(0, 2)])

/-- DIAG_NOTICES (R577). -/
def execDiagNotices (addr : Word) (s : State) : Host.Outcome State Fault Refusal := .next (s.mboxWrite 7 [(0, 3), (1, addr.toNat)])

end Sys2Proof.Machine
end

