-- ==== Sys2Proof/Machine/Bus.lean ====
section
/-!
DEFINITION. Register accesses of PF0 and of virtual functions (R12, R572 to R574) with the fields that a read computes, the
counts that a read clears, the MSI-X tables (R570), and the BAR4 window into device memory (R575).
-/
namespace Sys2Proof.Machine

/-! ### What a register reads as -/

/-- A number with fields put over it. -/
def overlay (v : Nat) (fs : List (Fld × Nat)) : Nat := fs.foldl (fun v f => setBits v f.1.lo f.1.width f.2) v

/-- MEM_STACK_STATUSn (R319). -/
def State.stackStatus (s : State) (n : Nat) : Nat :=
  let dom := s.dom (dieDom (n / 5))
  let up := s.start.trained && s.dev != Dev.halted && !s.pwr.failed.contains (dieDom (n / 5))
  overlay 0 [(F.memStackStatus_POPULATED, 1), (F.memStackStatus_IN_SERVICE, b2n (up && dom == Dom.on)),
    (F.memStackStatus_SELF_REFRESH, b2n (dom == Dom.retain)),
    (F.memStackStatus_SPARES_G0, s.sparesLeft n 0), (F.memStackStatus_SPARES_G1, s.sparesLeft n 1),
    (F.memStackStatus_SPARES_G2, s.sparesLeft n 2), (F.memStackStatus_SPARES_G3, s.sparesLeft n 3),
    (F.memStackStatus_RETIRED, s.retiredOn n), (F.memStackStatus_LOST, s.lostOn n)]

/-- MGT_MODULE (R599, R616). -/
def State.moduleWord (s : State) : Nat :=
  let seen := match s.pins.ppsAt with
    | some t => decide (s.ivl ≤ t + 1500000000)
    | none => false
  overlay 0 [(F.mgtModule_BRACE_IN, b2n s.pins.braceLow), (F.mgtModule_PWR_WARN_IN, b2n s.pins.pwrWarnLow),
    (F.mgtModule_WP_IN, b2n s.pins.nvmWp), (F.mgtModule_THERMTRIP_OUT, b2n s.pins.thermtrip),
    (F.mgtModule_REPLACE_OUT, b2n s.replaceLow), (F.mgtModule_ALERT_OUT, b2n s.alertLow),
    (F.mgtModule_MGMT_ADDR, s.pins.mgmtAddr.val), (F.mgtModule_PPS_SEEN, b2n seen),
    (F.mgtModule_COOLANT_IN, s.pins.coolantIn), (F.mgtModule_COOLANT_OUT, s.pins.coolantOut), (F.mgtModule_SUPPLY_MV, s.pins.supplyMv)]

/-- KFE_STATUSk (R445). -/
def State.kfeWord (s : State) (k v : Nat) : Nat :=
  overlay v [(F.kfeStatus_PRESENT, b2n (s.kfeFitted k)), (F.kfeStatus_BUSY, b2n (s.samplesOn k != [])),
    (F.kfeStatus_TABLE_VALID, b2n (look s.kfe.tables k).isSome)]

/-- This module's member index in the group of CTX_STEP_CFG. -/
def State.stepMember (s : State) (c : Nat) : Nat := (s.stepGroup c).elim 0 (·.self)

/-- The value that a read of copy `i` of a register gives; write-only fields read zero (R12). -/
def State.regView (s : State) (r i : Nat) : Nat :=
  let v := (s.reg r i).toNat
  if r = Reg.hubCapUnits then capUnits s.variant
  else if r = Reg.hubHealth then overlay v [(F.hubHealth_REPLACE, b2n (s.rd F.mgtDegraded_CAUSES != 0))]
  else if r = Reg.hubTime then s.time
  else if r = Reg.hubMboxCmd then overlay v [(F.hubMboxCmd_GO, 0)]
  else if r = Reg.beadAttr then overlay v [(F.beadAttr_PAIR_OK, b2n (s.pairOk i)), (F.beadAttr_WAITERS, min 255 (s.waiters i))]
  else if r = Reg.ctxState then overlay v [(F.ctxState_STALLED, min 65535 (s.stalledUnits i))]
  else if r = Reg.ctxKvCfg then s.item 4 1 i 0
  else if r = Reg.ctxStepCfg then overlay v [(F.ctxStepCfg_MEMBER, s.stepMember i)]
  else if r = Reg.queStatus then s.queStatus i
  else if r = Reg.queHeadPkt then s.queHeadPkt i
  else if r = Reg.kfeStatus then s.kfeWord i v
  else if r = Reg.memStackStatus then s.stackStatus i
  else if r = Reg.memReserve then overlay v [(F.memReserve_SLOTS_D0, s.freeSlots 0), (F.memReserve_SLOTS_D1, s.freeSlots 1),
    (F.memReserve_SLOTS_D2, s.freeSlots 2), (F.memReserve_SLOTS_D3, s.freeSlots 3)]
  else if r = Reg.pwrDomStatus then overlay v [(F.pwrDomStatus_PRESENT, b2n (s.domFitted i))]
  else if r = Reg.mgtModule then s.moduleWord
  else if r = Reg.mgtBraceStatus then overlay v [(F.mgtBraceStatus_PIN, b2n s.pins.braceLow)]
  else if r = Reg.mgtAvail then overlay 0 [(F.mgtAvail_IN_SERVICE_S, s.lifeGet 0x5FC0 8 / 1000), (F.mgtAvail_LOST_MS, min (maxOf 24) (s.lifeGet 0x5FC8 8))]
  else v

/-- A read of a register: its value, and its clear-on-read fields cleared (R12). -/
def State.regRead (s : State) (r i : Nat) : Nat × State :=
  (s.regView r i, (regFields r).foldl (fun s f => if f.acc = .rc then s.wr f i 0 else s) s)

/-- A read of a register through an access that may not reach it, or whose unit is absent, reads zero (R572). -/
def State.readReg (s : State) (ok : Bool) (r i : Nat) : State :=
  if !ok || s.unitGone r i then { s with rdata := 0 }
  else let (v, s) := s.regRead r i; { s with rdata := v }

/-- CTX_KV_COUNTS_READ (R211). -/
def execCtxKvCountsRead (fn : Fn) (ctx : Fin 16) (s : State) : Host.Outcome State Fault Refusal :=
  .next (s.readReg (Fn.reaches fn ctx.val) Reg.ctxKvCounts ctx.val)

/-- CTX_TRAIN_COUNTS_READ (R253). -/
def execCtxTrainCountsRead (fn : Fn) (ctx : Fin 16) (s : State) : Host.Outcome State Fault Refusal :=
  .next (s.readReg (Fn.reaches fn ctx.val) Reg.ctxTrainCounts ctx.val)

/-- CTX_FAULT_COUNTS_READ (R360). -/
def execCtxFaultCountsRead (fn : Fn) (ctx : Fin 16) (s : State) : Host.Outcome State Fault Refusal :=
  .next (s.readReg (Fn.reaches fn ctx.val) Reg.ctxFaultCounts ctx.val)

/-- MEM_ECC_COUNT_READ (R321). -/
def execMemEccCountRead (stack : Fin 20) (s : State) : Host.Outcome State Fault Refusal :=
  .next (s.readReg true Reg.memEccCount stack.val)

/-- QUE_LOST_READ (R406, R411): the next discard raises its notice anew. -/
def execQueLostRead (fn : Fn) (q : Fin 256) (s : State) : Host.Outcome State Fault Refusal :=
  .next (
    let s := if s.queReach fn q.val then s.setQue q.val { s.que q.val with told := false } else s
    s.readReg (s.queReach fn q.val) Reg.queLost q.val)

/-- KFE_COUNTS_READ (R445). -/
def execKfeCountsRead (k : Fin 4) (s : State) : Host.Outcome State Fault Refusal := .next (s.readReg true Reg.kfeCounts k.val)

/-- KFE_LIVE_COUNT_READ (R445). -/
def execKfeLiveCountRead (n : Fin 64) (s : State) : Host.Outcome State Fault Refusal := .next (s.readReg true Reg.kfeLiveCount n.val)

/-- NET_PORT_STATUS_READ (R472). -/
def execNetPortStatusRead (p : Fin 12) (s : State) : Host.Outcome State Fault Refusal := .next (s.readReg true Reg.netPortStatus p.val)

/-- PWR_DOM_STATUS_READ (R515). -/
def execPwrDomStatusRead (d : Fin 20) (s : State) : Host.Outcome State Fault Refusal := .next (s.readReg true Reg.pwrDomStatus d.val)

/-- PWR_TEMP_READ (R515). -/
def execPwrTempRead (s : State) : Host.Outcome State Fault Refusal := .next (s.readReg true Reg.pwrTemp 0)

/-- MGT_CORES_READ (R540). -/
def execMgtCoresRead (s : State) : Host.Outcome State Fault Refusal := .next (s.readReg true Reg.mgtCores 0)

/-- MGT_SHOCK_READ (R540). -/
def execMgtShockRead (s : State) : Host.Outcome State Fault Refusal := .next (s.readReg true Reg.mgtShock 0)

/-- HUB_LINK_READ (R574). -/
def execHubLinkRead (s : State) : Host.Outcome State Fault Refusal := .next (s.readReg true Reg.hubLink 0)

/-! ### Register writes (R12) -/

/-- A 64-bit half of an MSI-X entry written (R570): the address, or data and control. A vector whose mask is cleared sends
its pending message. -/
def State.writeMsix (s : State) (v half x : Nat) : State :=
  if half = 0 then s.msixSet v 0 x
  else
    let s := (s.msixSet v 1 (bitsOf x 0 32)).msixSet v 2 (bitsOf x 32 1)
    if bitsOf x 32 1 = 0 ∧ s.msixGet v 3 = 1 then (s.msixSet v 3 0).emit (.msix v) else s

/-- What a write of an offset of a BAR0 does. -/
def State.busWrite (s : State) (fn : Fn) (off v : Nat) : State :=
  match s.spotAt fn off with
  | .reg r i =>
    if r = Reg.pwrPark then s.writePark fn (bitsOf v 0 2)
    else if r = Reg.hubMboxCmd then
      let s := s.wr F.hubMboxCmd_CMD 0 (bitsOf v 0 8)
      if v.testBit 8 then s.mboxGo else s
    else s.regWrite fn s.rwlOpen r i v
  | .bell k => s.doorbell k (v % 2 ^ 32)
  | .msix n half => s.writeMsix n half v
  | _ => s

/-- REGISTER_WRITE (R12, R572, R573): PCIe serves from ROM on (R478). -/
def execRegisterWrite (fn : Fn) (offset : BitVec 24) (value : Word) (s : State) : Host.Outcome State Fault Refusal :=
  .next (if s.dev < Dev.rom then s else s.busWrite fn offset.toNat value.toNat)

/-! ### The window of BAR4 (R575) -/

/-- The device physical address of an offset. -/
def State.windowAddr (s : State) (off : Nat) : Nat := s.rd F.hubWindow_BASE * 2 ^ 32 + off

/-- Memory answers the window: the stacks and tile stores are in service. -/
def State.windowOpen (s : State) : Bool := s.serving || s.dev == Dev.paused || s.dev == Dev.braced || s.dev == Dev.bringup

/-- An address that the window reaches: a stack granule of a valid region whose channel is not lost, or a tile store of a
present tile. -/
def State.windowHits (s : State) (pa : Nat) : Bool :=
  match s.place pa with
  | .stack n o => !s.chanLost n (chanOf o)
  | .tile t _ => s.tilePresent t
  | _ => false

/-- Every byte of an access is reached. -/
def State.windowReach (s : State) (pa n : Nat) : Bool := s.windowOpen && (List.range n).all (fun i => s.windowHits (pa + i))

/-- HOST_WINDOW_FAULT, once per second at most. -/
def State.windowFault (s : State) (pa : Nat) (write : Bool) : State :=
  let (due, s) := s.oncePerSecond 3000
  if due then s.raise { code := 0x0F02, sev := Sev.warn, data := Unit.hub, ctrl := Path.barp, a1 := pa % 2 ^ 32,
                        a2 := pa / 2 ^ 32 % 2 ^ 16, a3 := b2n write }
  else s

/-- WINDOW_READ (R575): all ones outside, a poisoned completion for a lost granule. -/
def execWindowRead (offset : BitVec 32) (len : Fin 4097) (s : State) : Host.Outcome State Fault Refusal :=
  let n := len.val
  .next (
    if s.dev < Dev.rom then s
    else
      let pa := s.windowAddr offset.toNat
      if !s.windowReach pa n then { s.windowFault pa false with rdata := maxOf (8 * n) }
      else
        let (bs, lost, s) := s.readPhys pa n
        if lost = [] then { s with rdata := leNat bs } else s.emit .poisoned)

/-- WINDOW_WRITE (R575): discarded outside. -/
def execWindowWrite (offset : BitVec 32) (bytes : List Byte) (s : State) : Host.Outcome State Fault Refusal :=
  .next (
    if s.dev < Dev.rom then s
    else
      let pa := s.windowAddr offset.toNat
      if s.windowReach pa bytes.length then (s.writePhys pa bytes).2 else s.windowFault pa true)

end Sys2Proof.Machine
end

