-- ==== Sys2Proof/Machine/Mod.lean ====
section
/-!
DEFINITION. The module's connectors (R476, R568, R593, R596, R598 to R602): PCIe resets and link events, PPS edges, the
management bus; and what the device does while no command waits.
-/
namespace Sys2Proof.Machine

/-! ### PCIe (R349, R476, R568, R574, R593, R596) -/

/-- A host-interface notice (R593). -/
def linkNtc (code sev a1 a2 a3 : Nat) : Ntc :=
  { code := code, sev := sev, data := Unit.hub, ctrl := Path.barp, a1 := a1, a2 := a2, a3 := a3 }

/-- The link has a rate and a width, 0 without a link; a change is told, as WARN when one of them falls. -/
def State.setLink (s : State) (gen width : Nat) : State :=
  let g := s.rd F.hubLink_GEN
  let w := s.rd F.hubLink_WIDTH
  if g = gen ∧ w = width then s
  else
    let s := (s.wr F.hubLink_GEN 0 gen).wr F.hubLink_WIDTH 0 width
    s.raise (linkNtc 0x0F03 (if gen < g ∨ width < w then Sev.warn else Sev.info) gen width (g * 16 + w))

/-- PERST_ASSERT (R476): the link goes down with the functions. -/
def execPerstAssert (s : State) : Host.Outcome State Fault Refusal :=
  let s := { s with pins := { s.pins with perst := true } }
  .next (if s.dev < Dev.rom then s else (s.resetFunctions).setLink 0 0)

/-- PERST_RELEASE (R478). -/
def execPerstRelease (s : State) : Host.Outcome State Fault Refusal := .next { s with pins := { s.pins with perst := false } }

/-- HOT_RESET (R476). -/
def execHotReset (s : State) : Host.Outcome State Fault Refusal := .next (if s.dev < Dev.rom then s else s.resetFunctions)

/-- REFCLK_LOSS (R596): the link goes down, and nothing else happens. -/
def execRefclkLoss (s : State) : Host.Outcome State Fault Refusal :=
  let s := { s with pins := { s.pins with refclk := false } }
  .next (if s.dev < Dev.rom then s else s.setLink 0 0)

/-- A rate and a width that the link can have (R568), or no link. -/
def linkOk (gen width : Nat) : Bool := (gen == 0 && width == 0) || ([5, 6, 7].contains gen && [1, 2, 4, 8].contains width)

/-- PCIE_LINK_STATE_CHANGE (R568, R574): with the link errors seen. The link trains from ROM entry and PERST# release on
(R478); a link that is up has its reference clock. -/
def execPcieLinkStateChange (gen : BitVec 3) (width : BitVec 4) (corr uncorr : BitVec 16) (s : State) :
    Host.Outcome State Fault Refusal :=
  let g := gen.toNat
  .next (
    if s.dev < Dev.rom ∨ !linkOk g width.toNat ∨ (g ≠ 0 ∧ s.pins.perst) then s
    else
      let s := { s with pins := { s.pins with refclk := s.pins.refclk || g != 0 } }
      let s := (s.count F.hubLink_CORRECTABLE 0 corr.toNat).count F.hubLink_UNCORRECTABLE 0 uncorr.toNat
      s.setLink g width.toNat)

/-- PCIE_AER_EVENT (R593). -/
def execPcieAerEvent (status hdr : BitVec 32) (fn : BitVec 16) (s : State) : Host.Outcome State Fault Refusal :=
  .next (
    if s.dev < Dev.rom then s
    else (s.count F.hubLink_UNCORRECTABLE 0 1).raise (linkNtc 0x0F04 Sev.warn status.toNat hdr.toNat fn.toNat))

/-! ### PPS and the management bus (R601, R602) -/

/-- PPS_EDGE (R601, R616): it never disciplines device time. -/
def execPpsEdge (s : State) : Host.Outcome State Fault Refusal :=
  .next (if s.dev = Dev.off then s else { s.wr F.mgtPps_EDGE_TIME 0 s.time with pins := { s.pins with ppsAt := some s.ivl } })

/-- The answer to a request for an offset: a register of the HUB_, MGT_, PWR_ or SEC_ block is read, anything else is
refused. -/
def State.mctpAnswer (s : State) (off : Nat) (write : Bool) : State :=
  if write ∨ off ≥ 0x4000 ∨ off % 8 ≠ 0 then s.emit (.mctp false 0)
  else match s.spotAt .pf0 off with
    | .reg r i => let (v, s) := s.regRead r i; s.emit (.mctp true (BitVec.ofNat 64 v))
    | _ => s.emit (.mctp true 0)

/-- MCTP_MESSAGE (R602): the first transaction after J2 comes up chooses the binding. Nothing is answered in AON or while
core 0's duties pause. -/
def execMctpMessage (i3c : Bool) (offset : BitVec 32) (write : Bool) (s : State) : Host.Outcome State Fault Refusal :=
  .next (
    if s.dev = Dev.off then s
    else
      let b := s.pins.mgmtBinding.getD i3c
      let s := { s with pins := { s.pins with mgmtBinding := some b } }
      if b ≠ i3c ∨ s.dev < Dev.rom ∨ s.dutyHeld 0 then s else s.mctpAnswer offset.toNat write)

/-! ### Time with no command waiting -/

/-- One period of CK_AON with no command waiting: the clocks advance and the time is accounted for, idle domains are
noted, retired tiles settle, the requests of peers that wait for a fault are tried again, and commands that have yielded
continue (log entry 2). -/
def State.idle (s : State) : State :=
  if s.dev = Dev.off then s else (s.tick.account tickNs).trackIdle.settleTiles.retryHeld.continueYielded

end Sys2Proof.Machine
end

