-- ==== Sys2Proof/Machine/Dispatch.lean ====
section
/-!
DEFINITION. The dispatch: one arm for each command, one direct call of its meaning.
-/
namespace Sys2Proof.Machine

def exec (i : Instr) (s : State) : Host.Outcome State Fault Refusal :=
  match i with
  | .powerOn => Sys2Proof.Machine.execPowerOn s
  | .supplyLoss => Sys2Proof.Machine.execSupplyLoss s
  | .romEntry => Sys2Proof.Machine.execRomEntry s
  | .romBoot raw => Sys2Proof.Machine.execRomBoot raw s
  | .loadDone => Sys2Proof.Machine.execLoadDone s
  | .configCheck => Sys2Proof.Machine.execConfigCheck s
  | .bringupDone r => Sys2Proof.Machine.execBringupDone r s
  | .ptpWaitExpiry => Sys2Proof.Machine.execPtpWaitExpiry s
  | .pd01Loss => Sys2Proof.Machine.execPd01Loss s
  | .watchdogRestart c => Sys2Proof.Machine.execWatchdogRestart c s
  | .perstAssert => Sys2Proof.Machine.execPerstAssert s
  | .hotReset => Sys2Proof.Machine.execHotReset s
  | .pf0Flr => Sys2Proof.Machine.execPf0Flr s
  | .vfFlr k => Sys2Proof.Machine.execVfFlr k s
  | .vfDisable => Sys2Proof.Machine.execVfDisable s
  | .disableUnitDeadline ctx => Sys2Proof.Machine.execDisableUnitDeadline ctx s
  | .disableComplete ctx => Sys2Proof.Machine.execDisableComplete ctx s
  | .refclkLoss => Sys2Proof.Machine.execRefclkLoss s
  | .pcieLinkStateChange gen width corr uncorr => Sys2Proof.Machine.execPcieLinkStateChange gen width corr uncorr s
  | .pcieAerEvent status hdr fn => Sys2Proof.Machine.execPcieAerEvent status hdr fn s
  | .braceLatch => Sys2Proof.Machine.execBraceLatch s
  | .bracePhaseEnd => Sys2Proof.Machine.execBracePhaseEnd s
  | .bracePhaseTimeout => Sys2Proof.Machine.execBracePhaseTimeout s
  | .bracePinRelease => Sys2Proof.Machine.execBracePinRelease s
  | .powerWarning => Sys2Proof.Machine.execPowerWarning s
  | .ppsEdge => Sys2Proof.Machine.execPpsEdge s
  | .nvmWriteProtectChange asserted => Sys2Proof.Machine.execNvmWriteProtectChange asserted s
  | .powerSample mw => Sys2Proof.Machine.execPowerSample mw s
  | .thermalThrottleStep die temp => Sys2Proof.Machine.execThermalThrottleStep die temp s
  | .thermalTrip die temp => Sys2Proof.Machine.execThermalTrip die temp s
  | .domainIdleStep d => Sys2Proof.Machine.execDomainIdleStep d s
  | .domainWakeDone d => Sys2Proof.Machine.execDomainWakeDone d s
  | .wakeTimeout d => Sys2Proof.Machine.execWakeTimeout d s
  | .parkLevelWrite fn level => Sys2Proof.Machine.execParkLevelWrite fn level s
  | .parkComplete => Sys2Proof.Machine.execParkComplete s
  | .coolantCheck inlet outlet => Sys2Proof.Machine.execCoolantCheck inlet outlet s
  | .ceWindowEnd => Sys2Proof.Machine.execCeWindowEnd s
  | .shockEnd => Sys2Proof.Machine.execShockEnd s
  | .lifeSample temps mv => Sys2Proof.Machine.execLifeSample temps mv s
  | .lifeMirror => Sys2Proof.Machine.execLifeMirror s
  | .coreHeartbeatLapse core => Sys2Proof.Machine.execCoreHeartbeatLapse core s
  | .coreMemoryError core => Sys2Proof.Machine.execCoreMemoryError core s
  | .coreRestartDone core => Sys2Proof.Machine.execCoreRestartDone core s
  | .tileIdleTest tile => Sys2Proof.Machine.execTileIdleTest tile s
  | .tileTestEnd tile code => Sys2Proof.Machine.execTileTestEnd tile code s
  | .phyRecalibration stack group => Sys2Proof.Machine.execPhyRecalibration stack group s
  | .periodicRetrain stack group failing => Sys2Proof.Machine.execPeriodicRetrain stack group failing s
  | .earlyRetrain stack group failing => Sys2Proof.Machine.execEarlyRetrain stack group failing s
  | .retireCopyPiece stack channel => Sys2Proof.Machine.execRetireCopyPiece stack channel s
  | .patrolScrub stack granule symbols => Sys2Proof.Machine.execPatrolScrub stack granule symbols s
  | .sramScrub w => Sys2Proof.Machine.execSramScrub w s
  | .innerCountPoll stack n => Sys2Proof.Machine.execInnerCountPoll stack n s
  | .telemetryTick unit v => Sys2Proof.Machine.execTelemetryTick unit v s
  | .ringDoorbell fn ctx ring tail => Sys2Proof.Machine.execRingDoorbell fn ctx ring tail s
  | .gctDoorbell hdr ctx ring tail => Sys2Proof.Machine.execGctDoorbell hdr ctx ring tail s
  | .recordFetch ctx ring => Sys2Proof.Machine.execRecordFetch ctx ring s
  | .commandComplete id => Sys2Proof.Machine.execCommandComplete id s
  | .beadWaitExpiry id => Sys2Proof.Machine.execBeadWaitExpiry id s
  | .pegWaitExpiry id => Sys2Proof.Machine.execPegWaitExpiry id s
  | .ringEnable fn ctx ring value => Sys2Proof.Machine.execRingEnable fn ctx ring value s
  | .ringDisable fn ctx ring => Sys2Proof.Machine.execRingDisable fn ctx ring s
  | .ringStop fn ctx ring => Sys2Proof.Machine.execRingStop fn ctx ring s
  | .ringRestart fn ctx ring skip => Sys2Proof.Machine.execRingRestart fn ctx ring skip s
  | .ctxPreempt src ctx => Sys2Proof.Machine.execCtxPreempt src ctx s
  | .ctxEvict src ctx => Sys2Proof.Machine.execCtxEvict src ctx s
  | .preemptComplete ctx => Sys2Proof.Machine.execPreemptComplete ctx s
  | .ctxResume src ctx => Sys2Proof.Machine.execCtxResume src ctx s
  | .resumeComplete ctx => Sys2Proof.Machine.execResumeComplete ctx s
  | .ctxInvalidate fn ctx vpn count => Sys2Proof.Machine.execCtxInvalidate fn ctx vpn count s
  | .invalidationComplete ctx => Sys2Proof.Machine.execInvalidationComplete ctx s
  | .hostBeadAdd fn ctx vid amount => Sys2Proof.Machine.execHostBeadAdd fn ctx vid amount s
  | .beadAttrWrite n value => Sys2Proof.Machine.execBeadAttrWrite n value s
  | .beadMapWrite fn ctx value => Sys2Proof.Machine.execBeadMapWrite fn ctx value s
  | .queueEntryRead fn q => Sys2Proof.Machine.execQueueEntryRead fn q s
  | .queueFlush fn q => Sys2Proof.Machine.execQueueFlush fn q s
  | .queueSkip fn q => Sys2Proof.Machine.execQueueSkip fn q s
  | .connOpen fn conn => Sys2Proof.Machine.execConnOpen fn conn s
  | .connClose fn conn => Sys2Proof.Machine.execConnClose fn conn s
  | .connTableWrite value => Sys2Proof.Machine.execConnTableWrite value s
  | .loanBind w => Sys2Proof.Machine.execLoanBind w s
  | .loanUnbind w => Sys2Proof.Machine.execLoanUnbind w s
  | .windowRead offset len => Sys2Proof.Machine.execWindowRead offset len s
  | .windowWrite offset bytes => Sys2Proof.Machine.execWindowWrite offset bytes s
  | .registerWrite fn offset value => Sys2Proof.Machine.execRegisterWrite fn offset value s
  | .ctxKvCountsRead fn ctx => Sys2Proof.Machine.execCtxKvCountsRead fn ctx s
  | .ctxTrainCountsRead fn ctx => Sys2Proof.Machine.execCtxTrainCountsRead fn ctx s
  | .ctxFaultCountsRead fn ctx => Sys2Proof.Machine.execCtxFaultCountsRead fn ctx s
  | .memEccCountRead stack => Sys2Proof.Machine.execMemEccCountRead stack s
  | .queLostRead fn q => Sys2Proof.Machine.execQueLostRead fn q s
  | .kfeCountsRead k => Sys2Proof.Machine.execKfeCountsRead k s
  | .kfeLiveCountRead n => Sys2Proof.Machine.execKfeLiveCountRead n s
  | .netPortStatusRead p => Sys2Proof.Machine.execNetPortStatusRead p s
  | .pwrDomStatusRead d => Sys2Proof.Machine.execPwrDomStatusRead d s
  | .pwrTempRead => Sys2Proof.Machine.execPwrTempRead s
  | .mgtCoresRead => Sys2Proof.Machine.execMgtCoresRead s
  | .mgtShockRead => Sys2Proof.Machine.execMgtShockRead s
  | .hubLinkRead => Sys2Proof.Machine.execHubLinkRead s
  | .cfgLoad addr len => Sys2Proof.Machine.execCfgLoad addr len s
  | .cfgCommit writeNvm => Sys2Proof.Machine.execCfgCommit writeNvm s
  | .activateStage src addr len => Sys2Proof.Machine.execActivateStage src addr len s
  | .activateSchedule src time windowMs ctx fallback => Sys2Proof.Machine.execActivateSchedule src time windowMs ctx fallback s
  | .activateNow src => Sys2Proof.Machine.execActivateNow src s
  | .activateCancel src => Sys2Proof.Machine.execActivateCancel src s
  | .mboxResume => Sys2Proof.Machine.execMboxResume s
  | .lifeRead source offset len addr => Sys2Proof.Machine.execLifeRead source offset len addr s
  | .mboxAttest addr nonce => Sys2Proof.Machine.execMboxAttest addr nonce s
  | .doeAttestRequest nonce => Sys2Proof.Machine.execDoeAttestRequest nonce s
  | .gctAttest hdr nonce => Sys2Proof.Machine.execGctAttest hdr nonce s
  | .diagFindings addr => Sys2Proof.Machine.execDiagFindings addr s
  | .diagRestart => Sys2Proof.Machine.execDiagRestart s
  | .diagNotices addr => Sys2Proof.Machine.execDiagNotices addr s
  | .mailboxDone => Sys2Proof.Machine.execMailboxDone s
  | .activationPrepared ok => Sys2Proof.Machine.execActivationPrepared ok s
  | .activationTime => Sys2Proof.Machine.execActivationTime s
  | .activationPause r => Sys2Proof.Machine.execActivationPause r s
  | .activationDrainTimeout units => Sys2Proof.Machine.execActivationDrainTimeout units s
  | .activationWindowExpiry => Sys2Proof.Machine.execActivationWindowExpiry s
  | .linkLoss lp => Sys2Proof.Machine.execLinkLoss lp s
  | .linkUp lp => Sys2Proof.Machine.execLinkUp lp s
  | .ptpMessage lp offset => Sys2Proof.Machine.execPtpMessage lp offset s
  | .ptpLock lp time => Sys2Proof.Machine.execPtpLock lp time s
  | .ptpSourceLoss => Sys2Proof.Machine.execPtpSourceLoss s
  | .arpFrame lp request target senderIp senderMac => Sys2Proof.Machine.execArpFrame lp request target senderIp senderMac s
  | .ndMessage lp solicit target senderIp senderMac => Sys2Proof.Machine.execNdMessage lp solicit target senderIp senderMac s
  | .icmpEcho lp v6 dst src payload => Sys2Proof.Machine.execIcmpEcho lp v6 dst src payload s
  | .pfcPauseFrame lp prio quanta => Sys2Proof.Machine.execPfcPauseFrame lp prio quanta s
  | .roceSend conn bytes => Sys2Proof.Machine.execRoceSend conn bytes s
  | .roceRdmaWrite conn rkey va bytes => Sys2Proof.Machine.execRoceRdmaWrite conn rkey va bytes s
  | .roceRdmaRead conn rkey va len => Sys2Proof.Machine.execRoceRdmaRead conn rkey va len s
  | .roceAtomic conn => Sys2Proof.Machine.execRoceAtomic conn s
  | .roceRetryExhausted conn => Sys2Proof.Machine.execRoceRetryExhausted conn s
  | .gctCaps conn caps => Sys2Proof.Machine.execGctCaps conn caps s
  | .capsTimer conn => Sys2Proof.Machine.execCapsTimer conn s
  | .openTimeout conn => Sys2Proof.Machine.execOpenTimeout conn s
  | .gctAck conn upto sel ce => Sys2Proof.Machine.execGctAck conn upto sel ce s
  | .gctResendTimer conn seq => Sys2Proof.Machine.execGctResendTimer conn seq s
  | .ecnRecoveryTimer conn => Sys2Proof.Machine.execEcnRecoveryTimer conn s
  | .keepaliveTimer conn => Sys2Proof.Machine.execKeepaliveTimer conn s
  | .connectionLossTimeout conn => Sys2Proof.Machine.execConnectionLossTimeout conn s
  | .gctClose conn newEpoch => Sys2Proof.Machine.execGctClose conn newEpoch s
  | .gctHold hdr ns => Sys2Proof.Machine.execGctHold hdr ns s
  | .connWaitTimeout id => Sys2Proof.Machine.execConnWaitTimeout id s
  | .remoteBeadRequest hdr req op vid value => Sys2Proof.Machine.execRemoteBeadRequest hdr req op vid value s
  | .remoteBeadReply hdr req kind value => Sys2Proof.Machine.execRemoteBeadReply hdr req kind value s
  | .remoteSuspendMessage hdr req starts value => Sys2Proof.Machine.execRemoteSuspendMessage hdr req starts value s
  | .gctReady hdr m => Sys2Proof.Machine.execGctReady hdr m s
  | .gctQuery hdr m => Sys2Proof.Machine.execGctQuery hdr m s
  | .gctPropose hdr m => Sys2Proof.Machine.execGctPropose hdr m s
  | .gctCommitReply hdr m => Sys2Proof.Machine.execGctCommitReply hdr m s
  | .commitReadyTimeout ctx => Sys2Proof.Machine.execCommitReadyTimeout ctx s
  | .commitQueryTimeout ctx => Sys2Proof.Machine.execCommitQueryTimeout ctx s
  | .gctJoin hdr group n index max => Sys2Proof.Machine.execGctJoin hdr group n index max s
  | .gctLeave hdr group => Sys2Proof.Machine.execGctLeave hdr group s
  | .gctCollSignature hdr group seq sig => Sys2Proof.Machine.execGctCollSignature hdr group seq sig s
  | .gctCollectiveData hdr group seq bytes lost flags => Sys2Proof.Machine.execGctCollectiveData hdr group seq bytes lost flags s
  | .gctTransferData hdr req addr vid add bytes => Sys2Proof.Machine.execGctTransferData hdr req addr vid add bytes s
  | .loanGrantRequest hdr offsetGib sizeGib => Sys2Proof.Machine.execLoanGrantRequest hdr offsetGib sizeGib s
  | .loanGrantReply hdr w granted cause => Sys2Proof.Machine.execLoanGrantReply hdr w granted cause s
  | .loanAccessRequest hdr offset write => Sys2Proof.Machine.execLoanAccessRequest hdr offset write s
  | .lenderLoanStep hdr m => Sys2Proof.Machine.execLenderLoanStep hdr m s
  | .loanReply hdr m => Sys2Proof.Machine.execLoanReply hdr m s
  | .loanStepTimeout id => Sys2Proof.Machine.execLoanStepTimeout id s
  | .collectiveTimeout id => Sys2Proof.Machine.execCollectiveTimeout id s
  | .liveDatagram lp bytes => Sys2Proof.Machine.execLiveDatagram lp bytes s
  | .liveFrameTimeout stream frame => Sys2Proof.Machine.execLiveFrameTimeout stream frame s
  | .nop id => Sys2Proof.Machine.execNop id s
  | .dmaCopy id => Sys2Proof.Machine.execDmaCopy id s
  | .dmaScatter id => Sys2Proof.Machine.execDmaScatter id s
  | .dmaGather id => Sys2Proof.Machine.execDmaGather id s
  | .gemm id => Sys2Proof.Machine.execGemm id s
  | .gemmGrouped id => Sys2Proof.Machine.execGemmGrouped id s
  | .conv id => Sys2Proof.Machine.execConv id s
  | .pool id => Sys2Proof.Machine.execPool id s
  | .vec id => Sys2Proof.Machine.execVec id s
  | .scan id => Sys2Proof.Machine.execScan id s
  | .reduce id => Sys2Proof.Machine.execReduce id s
  | .convert id => Sys2Proof.Machine.execConvert id s
  | .attnFwd id => Sys2Proof.Machine.execAttnFwd id s
  | .attnBwd id => Sys2Proof.Machine.execAttnBwd id s
  | .kvWalkRestart id seq => Sys2Proof.Machine.execKvWalkRestart id seq s
  | .kvAppendScatter id => Sys2Proof.Machine.execKvAppendScatter id s
  | .kvAlloc id => Sys2Proof.Machine.execKvAlloc id s
  | .kvRelease id => Sys2Proof.Machine.execKvRelease id s
  | .kvShare id => Sys2Proof.Machine.execKvShare id s
  | .kvTreeLookup id => Sys2Proof.Machine.execKvTreeLookup id s
  | .kvTreeInsert id => Sys2Proof.Machine.execKvTreeInsert id s
  | .kvTreeRemove id => Sys2Proof.Machine.execKvTreeRemove id s
  | .kvCowResolve id unit => Sys2Proof.Machine.execKvCowResolve id unit s
  | .optStep id => Sys2Proof.Machine.execOptStep id s
  | .loanStepStep id => Sys2Proof.Machine.execLoanStepStep id s
  | .loanStepCommit id => Sys2Proof.Machine.execLoanStepCommit id s
  | .loanStepFetch id => Sys2Proof.Machine.execLoanStepFetch id s
  | .digest id => Sys2Proof.Machine.execDigest id s
  | .stateExport id => Sys2Proof.Machine.execStateExport id s
  | .stepCommit id => Sys2Proof.Machine.execStepCommit id s
  | .stepCommitResolve id => Sys2Proof.Machine.execStepCommitResolve id s
  | .stepCommitForce id => Sys2Proof.Machine.execStepCommitForce id s
  | .stepCommitAbstain id => Sys2Proof.Machine.execStepCommitAbstain id s
  | .collectiveAllReduce id => Sys2Proof.Machine.execCollectiveAllReduce id s
  | .collectiveReduceScatter id => Sys2Proof.Machine.execCollectiveReduceScatter id s
  | .collectiveAllGather id => Sys2Proof.Machine.execCollectiveAllGather id s
  | .collectiveAllToAll id => Sys2Proof.Machine.execCollectiveAllToAll id s
  | .collectiveBroadcast id => Sys2Proof.Machine.execCollectiveBroadcast id s
  | .collectiveTransfer id => Sys2Proof.Machine.execCollectiveTransfer id s
  | .collectiveForm id => Sys2Proof.Machine.execCollectiveForm id s
  | .collectiveDissolve id => Sys2Proof.Machine.execCollectiveDissolve id s
  | .remoteBeadAdd id => Sys2Proof.Machine.execRemoteBeadAdd id s
  | .remoteBeadWaitGe id => Sys2Proof.Machine.execRemoteBeadWaitGe id s
  | .remoteBeadRead id => Sys2Proof.Machine.execRemoteBeadRead id s
  | .mediaBatch id => Sys2Proof.Machine.execMediaBatch id s
  | .mediaBatchLive id => Sys2Proof.Machine.execMediaBatchLive id s
  | .liveWaitExpiry id => Sys2Proof.Machine.execLiveWaitExpiry id s
  | .sampleTimeout id slot => Sys2Proof.Machine.execSampleTimeout id slot s
  | .kfeWatchdog k => Sys2Proof.Machine.execKfeWatchdog k s
  | .kfeResetDone k => Sys2Proof.Machine.execKfeResetDone k s
  | .beadOpAdd id => Sys2Proof.Machine.execBeadOpAdd id s
  | .beadOpWaitGe id => Sys2Proof.Machine.execBeadOpWaitGe id s
  | .beadOpRead id => Sys2Proof.Machine.execBeadOpRead id s
  | .pegSet id => Sys2Proof.Machine.execPegSet id s
  | .pegClear id => Sys2Proof.Machine.execPegClear id s
  | .pegWaitSet id => Sys2Proof.Machine.execPegWaitSet id s
  | .pegWaitClear id => Sys2Proof.Machine.execPegWaitClear id s
  | .branch id => Sys2Proof.Machine.execBranch id s
  | .remap id => Sys2Proof.Machine.execRemap id s
  | .remapDrainEnd id => Sys2Proof.Machine.execRemapDrainEnd id s
  | .queuePut id => Sys2Proof.Machine.execQueuePut id s
  | .braceSet id => Sys2Proof.Machine.execBraceSet id s
  | .cowResolve id unit => Sys2Proof.Machine.execCowResolve id unit s
  | .loanResolve id unit granted => Sys2Proof.Machine.execLoanResolve id unit granted s
  | .migratePoll id unit => Sys2Proof.Machine.execMigratePoll id unit s
  | .migrateTimeout id unit => Sys2Proof.Machine.execMigrateTimeout id unit s
  | .perstRelease => Sys2Proof.Machine.execPerstRelease s
  | .mctpMessage i3c offset write => Sys2Proof.Machine.execMctpMessage i3c offset write s
  | .shockBegin magnitude axis => Sys2Proof.Machine.execShockBegin magnitude axis s
  | .domainStepDownDone d => Sys2Proof.Machine.execDomainStepDownDone d s
  | .loanAccessReply hdr offset data => Sys2Proof.Machine.execLoanAccessReply hdr offset data s
  | .loanGrantRelease hdr offsetGib => Sys2Proof.Machine.execLoanGrantRelease hdr offsetGib s
  | .frameOutsideSubset lp why => Sys2Proof.Machine.execFrameOutsideSubset lp why s

end Sys2Proof.Machine
end

