-- ==== Sys2Proof/Safety.lean ====
section
/-!
DEFINITION. What counts as a safe run, and the terms in which the statements speak of commands: what a command leads to,
what it keeps, and the invariant of the memories.
-/
namespace Sys2Proof.Machine

/-- The outcome is a next state. -/
def completes (o : Host.Outcome State Fault Refusal) : Prop := ∃ t, o = .next t

/-- A state in which a finite run of `n` steps meets no fault and no refusal. -/
def safeFor : Nat → State → Prop
  | 0, _ => True
  | n + 1, s => ∃ t, step s = .next t ∧ safeFor n t

/-- The command completes in this state, and what it leaves is as `P` says. -/
def leads (c : Instr) (s : State) (P : State → Prop) : Prop := ∃ t, exec c s = .next t ∧ P t

/-- Every register but those of the list holds what it held. -/
def keepsRegs (s t : State) (except : List Nat) : Prop :=
  ∀ r i, i < 1048576 → r ∉ except → t.reg r i = s.reg r i

/-- The memories of the device, of the host and of the life log, and the table of the registers, are in canonical form:
one list for one content. -/
def State.canonical (s : State) : Prop := s.mem.wf = true ∧ s.host.wf = true ∧ s.life.wf = true ∧ rising s.regs = true

/-- Every byte of the device's memory and of host memory is what it was. -/
def keepsMem (s t : State) : Prop := (∀ k, t.mem.read k = s.mem.read k) ∧ (∀ a, t.host.read a = s.host.read a)

/-- The rows that read a register with fields that a read clears: whether the access reaches it, the register, the copy. -/
def countRead (s : State) : Instr → Option (Bool × Nat × Nat)
  | .ctxKvCountsRead fn c => some (Fn.reaches fn c.val, Reg.ctxKvCounts, c.val)
  | .ctxTrainCountsRead fn c => some (Fn.reaches fn c.val, Reg.ctxTrainCounts, c.val)
  | .ctxFaultCountsRead fn c => some (Fn.reaches fn c.val, Reg.ctxFaultCounts, c.val)
  | .memEccCountRead n => some (true, Reg.memEccCount, n.val)
  | .queLostRead fn q => some (s.queReach fn q.val, Reg.queLost, q.val)
  | .kfeCountsRead k => some (true, Reg.kfeCounts, k.val)
  | .kfeLiveCountRead n => some (true, Reg.kfeLiveCount, n.val)
  | .netPortStatusRead p => some (true, Reg.netPortStatus, p.val)
  | .pwrDomStatusRead d => some (true, Reg.pwrDomStatus, d.val)
  | .pwrTempRead => some (true, Reg.pwrTemp, 0)
  | .mgtCoresRead => some (true, Reg.mgtCores, 0)
  | .mgtShockRead => some (true, Reg.mgtShock, 0)
  | .hubLinkRead => some (true, Reg.hubLink, 0)
  | _ => none

/-- The entry of a connection stands in memory that takes writes: its table in the stack range, its granule not lost, and
either held by the shared cache or with no more errors than the code corrects. -/
def State.entryHeld (s : State) (n : Nat) : Prop :=
  s.connTableOk = true ∧ s.granLost (s.connAddr n) = false ∧ ∃ k o, s.place (s.connAddr n) = .stack k o ∧
    (s.cached k o = true ∨ badCount (lookD s.ecc (s.homeKey k o) {}).bad ≤ s.radius k o)

/-- The commands that end a connection, with the state that it is left in: CLOSE, the peer's CLOSE or new epoch, and the loss
timers (R453, R455). -/
def endOf (n : Fin 4096) (s : State) : Instr → Option Nat
  | .connClose fn m => if m = n ∧ s.connReach fn n.val = true ∧ (s.connState n.val = ConnSt.opening ∨ s.connState n.val = ConnSt.opened)
      then some ConnSt.closed else none
  | .gctClose m e => if m = n ∧ s.netUp = true ∧ s.gctOpen n.val = true ∧ (e.map (·.toNat)) ≠ some (s.conn n.val).peerEpoch
      then some ConnSt.lost else none
  | .gctCaps m c => if m = n ∧ s.netUp = true ∧ s.capsFits n.val c = true ∧ s.connState n.val = ConnSt.opened ∧
      c.epoch.toNat ≠ (s.conn n.val).peerEpoch then some ConnSt.lost else none
  | .connectionLossTimeout m => if m = n ∧ s.netUp = true ∧ s.gctOpen n.val = true ∧
      (s.lossDue (s.conn n.val) (s.conn n.val).heardAt = true ∨ ∃ u ∈ (s.conn n.val).unacked, s.lossDue (s.conn n.val) u.firstAt = true)
      then some ConnSt.lost else none
  | .roceRetryExhausted m => if m = n ∧ s.netUp = true ∧ s.roceOpen n.val = true then some ConnSt.lost else none
  | .openTimeout m => if m = n ∧ s.gctOpening n.val = true ∧ (s.conn n.val).openedAt + 1000000000 ≤ s.ivl then some ConnSt.failed else none
  | _ => none

/-- No command of the device stands on a loan window: none stalls, and none has a loan-tier write that is not acknowledged. -/
def State.noLoanUse (s : State) : Prop :=
  ∀ e, e ∈ s.rings → e.2.complStall = none ∧ e.2.fetchStall = none ∧ ∀ x, x ∈ e.2.cmds → x.stalls = [] ∧ x.loanOut = []

/-- The rows that are commands of a ring: the command, its opcode (R588), and whether it is of the row and its front ends,
where it needs some, are awake. -/
def ringRow (s : State) : Instr → Option (CmdId × Nat × Bool)
  | .nop id => some (id, 0x0001, true)
  | .dmaCopy id => some (id, 0x0010, true)
  | .dmaScatter id => some (id, 0x0011, true)
  | .dmaGather id => some (id, 0x0012, true)
  | .gemm id => some (id, 0x0020, true)
  | .gemmGrouped id => some (id, 0x0021, true)
  | .conv id => some (id, 0x0030, true)
  | .pool id => some (id, 0x0031, true)
  | .vec id => some (id, 0x0040, true)
  | .scan id => some (id, 0x0041, true)
  | .reduce id => some (id, 0x0042, true)
  | .convert id => some (id, 0x0048, true)
  | .attnFwd id => some (id, 0x0050, true)
  | .attnBwd id => some (id, 0x0051, true)
  | .kvAppendScatter id => some (id, 0x0052, true)
  | .optStep id => some (id, 0x0060, true)
  | .digest id => some (id, 0x0062, true)
  | .stateExport id => some (id, 0x0063, true)
  | .branch id => some (id, 0x00a0, true)
  | .remap id => some (id, 0x00a1, true)
  | .queuePut id => some (id, 0x00b0, true)
  | .braceSet id => some (id, 0x00c0, true)
  | .kvAlloc id => some (id, 0x0053, s.isRow id 0 0 8 [1, 2, 3, 4, 5, 6] 1)
  | .kvRelease id => some (id, 0x0053, s.isRow id 0 0 8 [1, 2, 3, 4, 5, 6] 2)
  | .kvShare id => some (id, 0x0053, s.isRow id 0 0 8 [1, 2, 3, 4, 5, 6] 3)
  | .kvTreeLookup id => some (id, 0x0053, s.isRow id 0 0 8 [1, 2, 3, 4, 5, 6] 4)
  | .kvTreeInsert id => some (id, 0x0053, s.isRow id 0 0 8 [1, 2, 3, 4, 5, 6] 5)
  | .kvTreeRemove id => some (id, 0x0053, s.isRow id 0 0 8 [1, 2, 3, 4, 5, 6] 6)
  | .loanStepStep id => some (id, 0x0072, s.isRow id 1 0 2 [0, 1, 2] 0)
  | .loanStepCommit id => some (id, 0x0072, s.isRow id 1 0 2 [0, 1, 2] 1)
  | .loanStepFetch id => some (id, 0x0072, s.isRow id 1 0 2 [0, 1, 2] 2)
  | .stepCommit id => some (id, 0x0061, s.isRow id 1 0 2 [0, 1, 2, 3] 0)
  | .stepCommitResolve id => some (id, 0x0061, s.isRow id 1 0 2 [0, 1, 2, 3] 1)
  | .stepCommitForce id => some (id, 0x0061, s.isRow id 1 0 2 [0, 1, 2, 3] 2)
  | .stepCommitAbstain id => some (id, 0x0061, s.isRow id 1 0 2 [0, 1, 2, 3] 3)
  | .collectiveAllReduce id => some (id, 0x0070, s.isRow id 1 0 4 [0, 1, 2, 3, 4, 5, 8, 9] 0)
  | .collectiveReduceScatter id => some (id, 0x0070, s.isRow id 1 0 4 [0, 1, 2, 3, 4, 5, 8, 9] 1)
  | .collectiveAllGather id => some (id, 0x0070, s.isRow id 1 0 4 [0, 1, 2, 3, 4, 5, 8, 9] 2)
  | .collectiveAllToAll id => some (id, 0x0070, s.isRow id 1 0 4 [0, 1, 2, 3, 4, 5, 8, 9] 3)
  | .collectiveBroadcast id => some (id, 0x0070, s.isRow id 1 0 4 [0, 1, 2, 3, 4, 5, 8, 9] 4)
  | .collectiveTransfer id => some (id, 0x0070, s.isRow id 1 0 4 [0, 1, 2, 3, 4, 5, 8, 9] 5)
  | .collectiveForm id => some (id, 0x0070, s.isRow id 1 0 4 [0, 1, 2, 3, 4, 5, 8, 9] 8)
  | .collectiveDissolve id => some (id, 0x0070, s.isRow id 1 0 4 [0, 1, 2, 3, 4, 5, 8, 9] 9)
  | .remoteBeadAdd id => some (id, 0x0071, s.isRow id 0 0 2 [0, 1, 2] 0)
  | .remoteBeadWaitGe id => some (id, 0x0071, s.isRow id 0 0 2 [0, 1, 2] 1)
  | .remoteBeadRead id => some (id, 0x0071, s.isRow id 0 0 2 [0, 1, 2] 2)
  | .beadOpAdd id => some (id, 0x0090, s.isRow id 0 0 2 [0, 1, 2] 0)
  | .beadOpWaitGe id => some (id, 0x0090, s.isRow id 0 0 2 [0, 1, 2] 1)
  | .beadOpRead id => some (id, 0x0090, s.isRow id 0 0 2 [0, 1, 2] 2)
  | .pegSet id => some (id, 0x0091, s.isRow id 0 0 2 [0, 1, 2, 3] 0)
  | .pegClear id => some (id, 0x0091, s.isRow id 0 0 2 [0, 1, 2, 3] 1)
  | .pegWaitSet id => some (id, 0x0091, s.isRow id 0 0 2 [0, 1, 2, 3] 2)
  | .pegWaitClear id => some (id, 0x0091, s.isRow id 0 0 2 [0, 1, 2, 3] 3)
  | .mediaBatch id => some (id, 0x0080, s.isRow id 1 2 1 [0, 1] 0 && ((s.cmd id).map (s.kfeAsleep (CmdKey id))).getD [] == [])
  | .mediaBatchLive id => some (id, 0x0080, s.isRow id 1 2 1 [0, 1] 1 && ((s.cmd id).map (s.kfeAsleep (CmdKey id))).getD [] == [])
  | _ => none

/-- The reading of a command by the dispatcher, from a state on. -/
def State.prepRun (s : State) (k : Nat) (x : Cmd) (e : Engine) : Prep × Acc :=
  (e.prep s k x).run (s.dispAcc k x)

/-- The command may issue now (R104 to R109, R343, R581): its lane, its waits and its fence let it, the tiles of its ring are awake, its
descriptor and tables are read whole and pass their checks, the scoreboard and the filler rule let it, it is its ring's
turn, and the units that it needs are there. -/
def State.issues (s : State) (id : CmdId) (op : Nat) (x : Cmd) (e : Engine) (d : List Byte) (tabs : List (List Byte)) (a : Acc) : Prop :=
  let k := CmdKey id
  let y := e.judged s k x d tabs
  s.cmd id = some x ∧ x.opcode = op ∧ engineOf op = some e ∧ s.issuable k x = true ∧ (e.tiled = true → s.asleep k = []) ∧
  s.prepRun k x e = (.ok (d, tabs), a) ∧ a.fault = none ∧ a.lost = [] ∧
  s.admits k y engineOf = true ∧ s.itsTurn k y engineOf = true ∧ e.gone s k y = false

/-- A fetched command to which nothing has happened yet. -/
def Cmd.untouched (x : Cmd) : Prop := x.fatal = none ∧ x.lost = [] ∧ x.dataLoss = false ∧ x.stalls = [] ∧ x.seeds = []

/-- The rows that are commands of the mailbox (R577): the code and the arguments that the host writes. -/
def mboxRow : Instr → Option (Nat × List (Nat × Nat))
  | .cfgLoad addr len => some (1, [(0, addr.toNat), (1, len.toNat)])
  | .cfgCommit w => some (2, [(0, b2n w)])
  | .activateStage .mailbox addr len => some (3, [(0, 1), (1, addr.toNat), (2, len.toNat)])
  | .activateSchedule .mailbox time w ctx fb => some (3, [(0, 2), (1, time.toNat), (2, w.toNat + ctx.val * 2 ^ 16 + b2n fb * 2 ^ 20)])
  | .activateNow .mailbox => some (3, [(0, 3)])
  | .activateCancel .mailbox => some (3, [(0, 4)])
  | .mboxResume => some (4, [])
  | .lifeRead source offset len addr => some (5, [(0, b2n source), (1, offset.toNat + len.toNat * 2 ^ 32), (2, addr.toNat)])
  | .mboxAttest addr nonce => some (6, (0, addr.toNat) :: (List.range 4).map (fun i => (4 + i, leNat (slice nonce (8 * i) 8))))
  | .diagFindings addr => some (7, [(0, 1), (1, addr.toNat)])
  | .diagRestart => some (7, [(0, 2)])
  | .diagNotices addr => some (7, [(0, 3), (1, addr.toNat)])
  | _ => none

/-- The registers of the mailbox as the host has written them. -/
def State.mboxArgs (s : State) (cmd : Nat) (args : List (Nat × Nat)) : State :=
  (args.foldl (fun s a => s.wr F.hubMboxArg_VALUE a.1 a.2) s).wr F.hubMboxCmd_CMD 0 cmd

/-- The mailbox has taken the command: it is BUSY with it. -/
def State.mboxTaken (s : State) (cmd : Nat) (args : List (Nat × Nat)) : State :=
  let u := s.mboxArgs cmd args
  { u.wr F.hubMboxStatus_BUSY 0 1 with mbox := some { cmd := cmd, args := (List.range 8).map (fun i => u.rd F.hubMboxArg_VALUE i) } }

/-- No interrupt doorbell of a queue writes memory: no enabled queue notifies by a memory write (R404). -/
def State.quietQueues (s : State) : Prop := ∀ q, q < 256 → s.rd F.queNotify_MODE q ≠ 2

end Sys2Proof.Machine
end

