-- ==== Sys2Proof/Certificates/Slice0/Obligations.lean ====
section
/-!
DEFINITION. The statements for the provers. What a clause says of a command `c` in a state is written `leads c s P`:
exec answers a next state, and `P` holds of it.
-/
open Sys2Proof Sys2Proof.Machine

/-! ### The whole device -/

/-- A step runs the command in front of the queue, with the rest of the queue. -/
def Obligations.StepRunsFront : Prop :=
  ∀ (c : Instr) (s : State), step (s.withFront c) = exec c s

/-- With no command waiting and the supply there, one period of CK_AON passes, 80 ns on the interval count; with the
supply gone nothing happens. No command stands yielded and no request of a peer is held, which would go on at such a
period. That the idle device does this is the model's choice (log entry 2). -/
def Obligations.IdlePeriod : Prop :=
  ∀ s : State, s.pending = [] →
    (s.dev = Dev.off → step s = .next s) ∧
    (s.dev ≠ Dev.off → s.net.held = [] → (∀ e, e ∈ s.rings → ∀ x, x ∈ e.2.cmds → x.yielded = .no) →
      ∃ t, step s = .next t ∧ t.ivl = s.ivl + 80 ∧ t.pending = [] ∧ t.rings = s.rings ∧ t.conns = s.conns)

/-- The device that a cold reset leaves (R475): OFF, every field of every register at its reset value, nothing in any
memory, no command in any ring, no connection and no group. -/
def Obligations.ColdReset : Prop :=
  State.reset.dev = Dev.off ∧ (∀ r f i, f ∈ regFields r → State.reset.rd f i = f.reset) ∧ State.reset.canonical ∧
  (∀ c t i, State.reset.slot c t i = Fmt.x36.nanCode) ∧ (∀ k, (State.reset.ring k).cmds = []) ∧ State.reset.conns = [] ∧ State.reset.groups = [] ∧
  State.reset.mbox = none ∧ State.reset.pending = []

/-- Every step keeps the memories of the device, of the host and of the life log, and the table of the registers, in
canonical form: for one content there is one list. -/
def Obligations.StepKeepsCanonical : Prop :=
  ∀ s t : State, s.canonical → step s = .next t → t.canonical

/-- The address map (R288): within a region no two physical addresses name the same byte of a stack, and every one names
a stack of the device. -/
def Obligations.AddressMap : Prop :=
  (∀ (s : State) (n a b : Nat), s.inRegion n a = true → s.inRegion n b = true → s.decodeIn n a = s.decodeIn n b → a = b) ∧
  (∀ (s : State) (n a : Nat), s.inRegion n a = true → s.encodeIn n (s.decodeIn n a).1 (s.decodeIn n a).2 = a) ∧
  (∀ (s : State) (n a : Nat), s.inRegion n a = true → s.rd F.memRegionCfg_MODE n ≤ 4 → (s.decodeIn n a).1 < 20)

/-- Conversions to unscaled formats (R41, R62). Every value of the narrower formats converts to X36 exactly: it raises
no flag, whatever the control and the draw, and the X36 code that is written holds the same value; NaN stays NaN. A
finite value that overflows becomes ±Inf and sets OVERFLOW, or with SAT ±largest finite and sets SATURATED; ±Inf
stays; a magnitude that rounds to nothing is a zero of the same sign without a flag. -/
def Obligations.Conversions : Prop :=
  (∀ (f : Fmt) (c : Cvt) (draw : Option Nat) (code : Nat), f ≠ .x36 → code < 2 ^ f.bits →
    (Fmt.x36.round c draw (f.decode code)).2 = {} ∧
    (f.decode code = .nan → (Fmt.x36.round c draw (f.decode code)).1 = .nan ∧ x36Of (x36Code (f.decode code)) = .nan) ∧
    (f.decode code ≠ .nan → (Fmt.x36.round c draw (f.decode code)).1.cmp (f.decode code) = some .eq ∧
      (x36Of (x36Code (f.decode code))).cmp (f.decode code) = some .eq ∧
      (x36Of (x36Code (f.decode code))).isNeg = (f.decode code).isNeg)) ∧
  (∀ (f : Fmt) (c : Cvt) (draw : Option Nat) (neg : Bool) (m : Nat) (e : Int),
    let r := f.roundMag (if f = .x36 ∨ !c.stoch then none else draw) m e
    (c.sat = false → (Num.fin false r.1 r.2).cmp f.maxNum = some .gt → f.round c draw (.fin neg m e) = (.inf neg, { overflow := true })) ∧
    (c.sat = true → (Num.fin false r.1 r.2).cmp f.maxNum = some .gt →
      ∃ a b, f.maxNum = .fin false a b ∧ f.round c draw (.fin neg m e) = (.fin neg a b, { saturated := true })) ∧
    (f.round c draw (.inf neg) = (.inf neg, {})) ∧
    (r.1 = 0 → (f.round c draw (.fin neg m e)).2 = {} ∧ ∃ q, (f.round c draw (.fin neg m e)).1 = .fin neg 0 q))

/-- The head of a queue (R402): with no packet begun it is the oldest of the highest priority present; a packet that the
reader has begun stays at the head, whatever commits meanwhile. -/
def Obligations.QueueHeads : Prop :=
  (∀ x : Que, x.reading = none → x.pkts ≠ [] → ∃ pre p post, x.pkts = pre ++ p :: post ∧ x.head = some p ∧
    (∀ q, q ∈ x.pkts → q.prio ≤ p.prio) ∧ (∀ q, q ∈ pre → q.prio < p.prio)) ∧
  (∀ (x : Que) (pre post more : List Pkt) (p : Pkt), x.pkts = pre ++ p :: post → (∀ q, q ∈ pre → q.seq ≠ p.seq) →
    x.reading = some p.seq → { x with pkts := x.pkts ++ more }.head = some p)

/-! ### Starting (chapter 15) -/

/-- POWER_ON and ROM_ENTRY (R476): OFF leads to AON with PD00 up, and 10 ms later AON leads to ROM with PD01 and PD03.
SUPPLY_LOSS (R604): the device is as after a cold reset; both NVM devices, host memory and the queue of commands
stand, but for a configuration write of the mailbox that the loss cuts off. -/
def Obligations.SupplyAndRom : Prop :=
  ((∀ s : State, s.dev = Dev.off →
     leads .powerOn s (fun t => t.dev = Dev.aon ∧ t.rd F.hubState_PREV = Dev.off ∧ t.dom 0 = Dom.on ∧ t.clk.startAt = s.ivl ∧
       t.mem = s.mem ∧ t.nvmA = s.nvmA ∧ keepsRegs s t [Reg.hubState, Reg.pwrDomStatus])) ∧
   (∀ s : State, s.dev = Dev.aon → s.clk.startAt + 10000000 ≤ s.ivl →
     leads .romEntry s (fun t => t.dev = Dev.rom ∧ t.rd F.hubState_PREV = Dev.aon ∧ t.dom 1 = Dom.on ∧ t.dom 3 = Dom.on ∧
       t.mem = s.mem ∧ t.nvmA = s.nvmA ∧ keepsRegs s t [Reg.hubState, Reg.pwrDomStatus]))) ∧
  (∀ s : State, (∀ j, s.mbox = some j → j.writes = none) →
     leads .supplyLoss s (fun t => t.dev = Dev.off ∧ t.regs = State.reset.regs ∧ t.mem = [] ∧ t.life = [] ∧ t.rings = [] ∧
       t.ctxs = [] ∧ t.queues = [] ∧ t.conns = [] ∧ t.mbox = none ∧ t.clk = {} ∧ t.start = {} ∧ t.sec = {} ∧
       t.nvmA = s.nvmA ∧ t.nvmB = s.nvmB ∧ t.host = s.host ∧ t.variant = s.variant ∧ t.pending = s.pending))

/-- ROM_BOOT (R476, R480, R526): the image that R480 picks is loaded; without one the device is HALTED for NO_IMAGE, and
after three watchdog resets within an hour for MANAGEMENT. -/
def Obligations.RomBoots : Prop :=
  ∀ (raw : List (BitVec 255)) (s : State), s.dev = Dev.rom →
    let recent := s.start.watchdogs.filter (fun w => decide (s.ivl < w + 3600000000000))
    (recent.length < 3 →
      leads (.romBoot raw) s (fun t => match bootPick s s.bootOrder [] with
        | some (b, _) => t.dev = Dev.load ∧ t.rd F.hubState_PREV = Dev.rom ∧ t.rd F.hubState_BOOT_IMAGE = b2n b ∧
            t.start.watchdogs = recent ∧ t.nvmA = s.nvmA ∧ t.nvmB = s.nvmB ∧ t.rings = s.rings ∧ (s.quietQueues → t.mem = s.mem ∧ t.ecc = s.ecc)
        | none => t.dev = Dev.halted ∧ t.rd F.hubState_HALT_CAUSE = 1)) ∧
    (3 ≤ recent.length →
      leads (.romBoot raw) s (fun t => t.dev = Dev.halted ∧ t.rd F.hubState_HALT_CAUSE = 4 ∧ t.start.watchdogs = []))

/-- LOAD_DONE (R476): the four cores run, and the configuration is checked next. The booted image stays as it was.
CONFIG_CHECK (R476, R486): with no intact copy the device is held in CFG_HOLD; the intact copy with the greater
SEQUENCE, A's on a tie, leads to BRINGUP when it has no finding, and is held in CFG_HOLD with its findings else; so
does the one intact copy where the other is torn. -/
def Obligations.LoadAndCheck : Prop :=
  (∀ s : State, s.dev = Dev.load →
     leads .loadDone s (fun t => t.dev = Dev.cfgCheck ∧ t.rd F.hubState_PREV = Dev.load ∧ t.rd F.mgtCores_UP = 15 ∧
       t.rd F.hubState_BOOT_IMAGE = s.rd F.hubState_BOOT_IMAGE ∧ t.nvmA = s.nvmA ∧ t.nvmB = s.nvmB ∧
       t.rings = s.rings ∧ t.conns = s.conns ∧ t.clk = s.clk ∧ (s.quietQueues → t.mem = s.mem ∧ t.ecc = s.ecc))) ∧
  (∀ s : State, s.dev = Dev.cfgCheck →
     ((blobTorn s.nvmA.blobCopy false).isSome → (blobTorn s.nvmB.blobCopy false).isSome →
       leads .configCheck s (fun t => t.dev = Dev.cfgHold ∧ t.rd F.hubState_PREV = Dev.cfgCheck ∧ t.start.chosen = s.start.chosen)) ∧
     (∀ image, blobTorn s.nvmA.blobCopy false = none → blobTorn s.nvmB.blobCopy false = none →
       image = decide (blobSeq s.nvmA.blobCopy < blobSeq s.nvmB.blobCopy) →
       let fs := { s with start := { s.start with chosen := some image } }.blobFindings (b2n image) (s.nvm image).blobCopy
       leads .configCheck s (fun t => t.start.chosen = some image ∧ t.rd F.hubState_PREV = Dev.cfgCheck ∧
         (fs ≠ [] → t.dev = Dev.cfgHold ∧ t.start.findings = fs ∧ t.rd F.hubState_CFG_IMAGE = s.rd F.hubState_CFG_IMAGE) ∧
         (fs = [] → t.dev = Dev.bringup ∧ t.rd F.hubState_CFG_IMAGE = b2n image ∧ t.rd F.hubState_CFG_HOST = 0 ∧
           t.start.seq = blobSeq (s.nvm image).blobCopy ∧ t.start.findings = []))) ∧
     (∀ image, blobTorn (s.nvm image).blobCopy false = none → (blobTorn (s.nvm (!image)).blobCopy false).isSome →
       leads .configCheck s (fun t => t.start.chosen = some image ∧ t.rd F.hubState_PREV = Dev.cfgCheck ∧
         (t.dev = Dev.cfgHold ∧ t.start.findings ≠ [] ∨
           t.dev = Dev.bringup ∧ t.rd F.hubState_CFG_IMAGE = b2n image ∧ t.start.seq = blobSeq (s.nvm image).blobCopy))))

/-- BRINGUP_DONE, PTP_WAIT_EXPIRY and PTP_LOCK (R451, R476, R477, R494). With no tile left the start ends HALTED for
NO_TILES; with no finding in the registers it ends in READY or DEGRADED, after the wait for PTP where one is set,
and with findings it is held in CFG_HOLD. Without PTP the wait ends at its limit; a lock ends it too. -/
def Obligations.StartEnds : Prop :=
  (∀ s : State, s.dev = Dev.bringup → s.start.ptpWaiting = false → s.tilesPresent = 0 →
    leads (.bringupDone { lanes := [], tiles := [] }) s (fun t => t.dev = Dev.halted ∧ t.rd F.hubState_HALT_CAUSE = 2)) ∧
  (∀ (r : BringupReport) (s : State), s.dev = Dev.bringup → s.start.ptpWaiting = false → s.rel.held = [] →
    let a := s.bringReport r
    let u := if a.start.cold then { a with mem := [], ecc := [], cache := [] } else a
    let waits := u.item 2 5 0 120 ≠ 0 ∧ u.rd F.netPtpStatus_STATE ≠ Ptp.locked
    u.tilesPresent ≠ 0 →
    leads (.bringupDone r) s (fun t =>
      (waits → t.dev = Dev.bringup ∧ t.start.ptpWaiting = true) ∧
      (¬ waits → u.holdFindings = [] → t.serving = true ∧ t.rd F.hubState_PREV = Dev.bringup ∧ t.start.inService = true ∧
        t.start.ptpWaiting = false) ∧
      (¬ waits → u.holdFindings ≠ [] → t.dev = Dev.cfgHold ∧ t.rd F.hubState_PREV = Dev.bringup ∧ t.start.findings = u.holdFindings.take 64))) ∧
  (∀ s : State, s.dev = Dev.bringup → s.start.ptpWaiting = true →
    leads .ptpWaitExpiry s (fun t => t.rd F.hubState_PREV = Dev.bringup ∧
      (s.holdFindings = [] → t.dev = s.readyState ∧ t.start.inService = true ∧ t.start.ptpWaiting = false ∧ t.conns = s.conns ∧
        keepsRegs s t (Reg.hubState :: toldRegs)) ∧
      (s.holdFindings ≠ [] → t.dev = Dev.cfgHold))) ∧
  (∀ (lp : Fin 24) (time : Word) (s : State), s.ptpPort lp.val = true →
    (s.dev = Dev.bringup → s.start.ptpWaiting = true → s.holdFindings = []) →
    leads (.ptpLock lp time) s (fun t => t.rd F.netPtpStatus_STATE = Ptp.locked ∧ t.rd F.netPtpStatus_SOURCE = lp.val ∧
      (s.clk.stepped = true → t.clk = s.clk) ∧
      (s.clk.stepped = false → t.clk.dev = max s.clk.dev time.toNat ∧ t.clk.ivl = s.clk.ivl ∧ t.clk.stepped = true) ∧
      (s.dev = Dev.bringup → s.start.ptpWaiting = true → t.dev = s.readyState)))

/-- A warm reset (R13, R314, R476): PD01_LOSS and WATCHDOG_RESTART lead every powered state that no thermal trip holds
to ROM. The stacks keep their bytes and tile stores lose theirs; rings, contexts, queues, connections and the
mailbox are empty; device time goes on; of the registers only sticky fields keep their values, those that the start
itself keeps apart. -/
def Obligations.WarmReset : Prop :=
  ∀ (c : Instr) (s : State), (c = .pd01Loss ∨ ∃ w, c = .watchdogRestart w) → s.mayRestart = true → s.canonical →
    (∀ j, s.mbox = some j → j.writes = none) →
    leads c s (fun t => t.dev = Dev.rom ∧ t.rd F.hubState_PREV = s.dev ∧
      (∀ k, t.mem.read k = if k < 2 ^ 46 then s.mem.read k else 0) ∧ t.host = s.host ∧
      t.rings = [] ∧ t.ctxs = [] ∧ t.queues = [] ∧ t.conns = [] ∧ t.slots = [] ∧ t.groups = [] ∧ t.mbox = none ∧
      t.cache = [] ∧ t.tlb = {} ∧
      t.clk.dev = s.clk.dev ∧ t.clk.ivl = s.clk.ivl ∧ t.clk.startAt = s.ivl ∧ t.nvmA = s.nvmA ∧ t.nvmB = s.nvmB ∧
      t.dom 0 = Dom.on ∧ t.dom 1 = Dom.on ∧ t.dom 3 = Dom.on ∧
      (∀ (f : Fld) (i : Nat), f ∈ regFields f.reg → i < 1048576 →
        f.reg ≠ Reg.hubState → f.reg ≠ Reg.pwrDomStatus → f.reg ≠ Reg.mgtLifeStatus →
        t.rd f i = if f.acc = .rs then s.rd f i else bitsOf (resetWord f.reg).toNat f.lo f.width))

/-! ### Power (chapter 16) -/

/-- POWER_SAMPLE (R510, R515): in every state but OFF, PWR_READING holds the averages over the samples of the last
millisecond and the last second with the new one, EXCURSION says whether the first is above the limit in force, and
the energy counter takes what the sample adds. -/
def Obligations.PowerSampleReading : Prop :=
  ∀ (mw : BitVec 32) (s : State), s.dev ≠ Dev.off →
    leads (.powerSample mw) s (fun t =>
      let l := (mw.toNat :: s.pwr.s1).take 100000
      let base := if s.rd F.pwrCap_LIMIT_W = 0 then s.rd F.pwrCap_SUSTAINED_W else s.rd F.pwrCap_LIMIT_W
      t.rd F.pwrReading_P_1MS = min 65535 (avgW (l.take 100)) ∧
      t.rd F.pwrReading_P_1S = min 65535 (avgW l) ∧
      t.rd F.pwrReading_EXCURSION = b2n (decide (min 65535 (avgW (l.take 100)) > base)) ∧
      t.rd F.pwrEnergy_MJ = (s.rd F.pwrEnergy_MJ + (s.pwr.energy + mw.toNat) / 100000) % 2 ^ 64 ∧
      t.pwr.s1 = l ∧ t.rings = s.rings ∧ t.ctxs = s.ctxs ∧
      keepsRegs s t (Reg.pwrReading :: Reg.pwrEnergy :: toldRegs))

/-- THERMAL_THROTTLE_STEP (R512, R515): the reading is kept with its peak; a die at THROTTLE_C or more loses one
sixteenth of its issue rate per 100 µs, down to one, and one that reads 3 °C below gains one per millisecond; the
hub, number 4, has no tiles to throttle. THERMAL_TRIP (R512): at 110 °C the device is HALTED with cause 3,
THERMTRIP_N is low, and no command is in flight. -/
def Obligations.Thermal : Prop :=
  (∀ (die : Fin 5) (temp : BitVec 8) (s : State), s.dev ≠ Dev.off →
     leads (.thermalThrottleStep die temp) s (fun t =>
       let r := lookD s.pwr.therm die.val 16
       let lim := s.rd F.pwrCap_THROTTLE_C
       let due (ns : Nat) : Prop := ∀ a, look s.pwr.thermAt die.val = some a → ns ≤ s.ivl - a
       t.rd (tempFld die.val) = temp.toNat ∧
       t.rd F.pwrTemp_PEAK = max (s.rd F.pwrTemp_PEAK) temp.toNat ∧
       (die.val < 4 → lim ≤ temp.toNat → due 100000 → r ≤ 16 → lookD t.pwr.therm die.val 16 = max 1 (r - 1)) ∧
       (die.val < 4 → temp.toNat + 3 ≤ lim → due 1000000 → r < 16 → lookD t.pwr.therm die.val 16 = r + 1) ∧
       (die.val = 4 → t.pwr = s.pwr) ∧ t.rings = s.rings ∧ t.mbox = s.mbox)) ∧
  (∀ (die : Fin 5) (temp : BitVec 8) (s : State), s.dev ≠ Dev.off → 110 ≤ temp.toNat →
     leads (.thermalTrip die temp) s (fun t =>
       t.dev = Dev.halted ∧ t.rd F.hubState_HALT_CAUSE = 3 ∧ t.rd F.hubState_PREV = s.dev ∧ t.pins.thermtrip = true ∧
       t.rings = [] ∧ t.kfe = {} ∧ t.rd (tempFld die.val) = temp.toNat ∧ t.nvmA = s.nvmA ∧ t.nvmB = s.nvmB))

/-- The power domains (R503 to R507). DOMAIN_IDLE_STEP: an idle domain in service whose idle period is over begins to
step down. DOMAIN_STEP_DOWN_DONE: it is in its new state. DOMAIN_WAKE_DONE: it is ON, and the wake is counted.
WAKE_TIMEOUT: after ten wake times the wake is tried once more, and after the second failure the domain is removed;
that of tiles or stacks is cross-checked (R525). PARK_LEVEL_WRITE (R509): PF0 sets LEVEL in service when no change
is under way and the entry conditions of the level hold, and a level other than the current one makes the change
BUSY; while one is under way its LEVEL is replaced. PARK_COMPLETE (R508, R514): with no wake waiting and, for level
3, no tile at work, the change takes effect. -/
def Obligations.DomainsAndParking : Prop :=
  ((∀ (d : Fin 20) (s : State) (at_ v : Nat), s.serving = true → s.domFitted d.val = true →
     look s.pwr.down d.val = none → look s.pwr.wake d.val = none →
     look s.trackIdle.pwr.idle d.val = some at_ → s.stepTo d.val (s.ivl - at_) = some v →
     leads (.domainIdleStep d) s (fun t => look t.pwr.down d.val = some v ∧ t.regs = s.regs ∧ t.mem = s.mem)) ∧
   (∀ (d : Fin 20) (s : State) (v : Nat), look s.pwr.down d.val = some v → v < 4 →
     leads (.domainStepDownDone d) s (fun t =>
       t.dom d.val = v ∧ look t.pwr.down d.val = none ∧ t.dev = s.dev ∧
       (v ≠ Dom.off → t.mem = s.mem ∧ t.kfe = s.kfe ∧ (isDieDom d.val = false → t.ecc = s.ecc)) ∧
       (isDieDom d.val = true → s.dom d.val = Dom.on → v ≠ Dom.on →
         ∀ line, line / 2 ^ 32 / 5 = (d.val - 6) / 4 → (lookD t.cache line {}).dirty = 0))) ∧
   (∀ (d : Fin 20) (s : State) (w : Nat × Nat), look s.pwr.wake d.val = some w → look s.pwr.down d.val = none →
     leads (.domainWakeDone d) s (fun t =>
       t.dom d.val = Dom.on ∧ t.domOn d.val = true ∧ look t.pwr.wake d.val = none ∧
       t.rd F.pwrDomStatus_WAKES d.val = satAdd 32 (s.rd F.pwrDomStatus_WAKES d.val) 1 ∧
       t.rd F.pwrDomStatus_WAKING d.val = 0 ∧ t.mem = s.mem ∧ keepsRegs s t [Reg.pwrDomStatus])) ∧
   (∀ (d : Fin 20) (s : State) (at_ tries : Nat), look s.pwr.wake d.val = some (at_, tries) → look s.pwr.down d.val = none →
     10 * s.wakeNs d.val ≤ s.ivl - at_ → tries < 2 →
     leads (.wakeTimeout d) s (fun t =>
       t = { s with pwr := { s.pwr with wake := put s.pwr.wake d.val (s.ivl, tries + 1) } })) ∧
   (∀ (d : Fin 20) (s : State) (at_ tries : Nat), look s.pwr.wake d.val = some (at_, tries) → look s.pwr.down d.val = none →
     10 * s.wakeNs d.val ≤ s.ivl - at_ → 2 ≤ tries → isKfeDom d.val = true →
     leads (.wakeTimeout d) s (fun t =>
       d.val ∈ t.pwr.failed ∧ t.rd F.kfeStatus_UP ((d.val - 7) / 4) = 0 ∧ t.rings = s.rings)) ∧
   (∀ (d : Fin 20) (s : State) (at_ tries : Nat), look s.pwr.wake d.val = some (at_, tries) → look s.pwr.down d.val = none →
     10 * s.wakeNs d.val ≤ s.ivl - at_ → 2 ≤ tries → isKfeDom d.val = false → s.rel.held = [] →
     leads (.wakeTimeout d) s (fun t =>
       (Config.crossFails s.nfree = false → d.val ∈ t.pwr.failed ∧ look t.pwr.wake d.val = none) ∧
       (Config.crossFails s.nfree = true → t.pwr.failed = s.pwr.failed)))) ∧
  ((∀ (level : BitVec 2) (s : State), s.serving = true → s.flag F.pwrPark_BUSY = false → s.parkOk level.toNat = true →
     leads (.parkLevelWrite .pf0 level) s (fun t =>
       t.rd F.pwrPark_LEVEL = level.toNat ∧ t.rd F.pwrPark_CURRENT = s.rd F.pwrPark_CURRENT ∧
       (level.toNat ≠ s.rd F.pwrPark_CURRENT → t.rd F.pwrPark_BUSY = 1 ∧ t.pwr.parkFrom = s.rd F.pwrPark_CURRENT) ∧
       t.mem = s.mem ∧ t.conns = s.conns ∧ keepsRegs s t [Reg.pwrPark])) ∧
   (∀ (level : BitVec 2) (s : State), s.serving = true → s.flag F.pwrPark_BUSY = true → s.parkOk level.toNat = true →
     leads (.parkLevelWrite .pf0 level) s (fun t => t.rd F.pwrPark_LEVEL = level.toNat ∧ t.rd F.pwrPark_BUSY = 1 ∧ t.pwr = s.pwr ∧
       t.mem = s.mem ∧ keepsRegs s t [Reg.pwrPark])) ∧
   (∀ (s : State), s.flag F.pwrPark_BUSY = true → s.pwr.wake = [] → s.parkHeld = false →
     leads .parkComplete s (fun t =>
       t.rd F.pwrPark_CURRENT = s.rd F.pwrPark_LEVEL ∧ t.rd F.pwrPark_BUSY = 0)) ∧
   (∀ (s : State), s.parkHeld = true → exec .parkComplete s = .next s))

/-! ### The brace, the management cores and repairs in service (chapters 9 and 17) -/

/-- BRACE_LATCH (R498, R533, R536). In service the brace begins: the device is BRACED in phase 1 with its counts at
zero. In an activation pause the brace waits for the end of the pause; a start is held. BRACE_PIN_RELEASE changes
the pin's level alone. -/
def Obligations.BraceLatches : Prop :=
  (∀ s : State, s.serving = true →
    leads .braceLatch s (fun t => t.dev = Dev.braced ∧ t.rd F.hubState_PREV = s.dev ∧ t.rd F.mgtBraceStatus_PHASE = 1 ∧
      t.rd F.mgtBraceStatus_DONE = 0 ∧ t.rd F.mgtBraceStatus_FAILED = 0 ∧ t.rd F.mgtBraceStatus_PUSHED_MIB = 0 ∧
      t.pins.braceLow = true ∧ t.start.fromBrace = true ∧ t.brace.sets = s.brace.sets ∧ t.rings = s.rings ∧ (s.quietQueues → t.mem = s.mem ∧ t.ecc = s.ecc) ∧
      keepsRegs s t (Reg.hubState :: Reg.mgtBraceStatus :: toldRegs))) ∧
  (∀ s : State, s.dev = Dev.paused →
    leads .braceLatch s (fun t => t.sec.braceWaiting = true ∧ t.pins.braceLow = true ∧ t.regs = s.regs ∧ t.mem = s.mem ∧ t.rings = s.rings)) ∧
  (∀ s : State, s.dev = Dev.rom ∨ s.dev = Dev.load ∨ s.dev = Dev.cfgCheck ∨ s.dev = Dev.bringup → s.rel.held = [] →
    leads .braceLatch s (fun t => t.dev = Dev.braced ∧ t.start.held = some s.dev ∧ t.pins.braceLow = true ∧ t.rings = s.rings)) ∧
  (∀ s : State, s.dev ≠ Dev.off → exec .bracePinRelease s = .next { s with pins := { s.pins with braceLow := false } })

/-- BRACE_PHASE_END (R533, R538): with no core being restarted, a phase that is over gives way to the next, up to
PARKED. BRACE_PHASE_TIMEOUT (R533, R534): the commit, drain and push phases end at their limits. -/
def Obligations.BracePhaseChanges : Prop :=
  (∀ (s : State) (p : Nat), s.bracing = true → s.rel.halted = [] → s.rel.held = [] → s.rd F.mgtBraceStatus_PHASE = p → 1 ≤ p → p ≤ 5 →
     (p = 1 → s.commitDone = true) → (p = 2 → s.drained = true) →
     leads .bracePhaseEnd s (fun t => t.rd F.mgtBraceStatus_PHASE = p + 1 ∧ t.dev = Dev.braced ∧ (p = 2 → t.mem = s.mem ∧ t.rings = s.rings) ∧
       (p = 5 → s.quietQueues → ∀ d, d ∈ coreDoms → s.domFitted d = true → s.dom d ≠ Dom.off → look s.pwr.down d = none →
         t.dom d = Dom.retain))) ∧
  (∀ (s : State) (p : Nat) (f : Fld), s.bracing = true → s.rel.held = [] → s.rd F.mgtBraceStatus_PHASE = p →
     (p = 1 ∧ f = F.mgtBraceCfg_COMMIT_MS ∨ p = 2 ∧ f = F.mgtBraceCfg_DRAIN_MS ∨ p = 3 ∧ f = F.mgtBraceCfg_PUSH_MS) →
     s.brace.phaseAt + s.rd f * 1000000 ≤ s.ivl →
     leads .bracePhaseTimeout s (fun t => t.rd F.mgtBraceStatus_PHASE = p + 1 ∧ t.dev = Dev.braced ∧ t.start.held = none))

/-- CORE_HEARTBEAT_LAPSE and CORE_MEMORY_ERROR (R524, R526, R540): a core that runs is halted, counted and restarted
alone; its third restart within 10 minutes retires it. CORE_RESTART_DONE: it runs again. The counts and bits are
stated where no notice is held back. -/
def Obligations.CoreRestarts : Prop :=
  (∀ (c : Instr) (core : Fin 4) (cause : Nat) (s : State),
    (c = .coreHeartbeatLapse core ∧ cause = 1 ∨ c = .coreMemoryError core ∧ cause = 2) → s.coreRuns core.val = true → s.rel.held = [] →
    leads c s (fun t =>
      t.rd F.mgtCores_RESTARTS = satAdd F.mgtCores_RESTARTS.width (s.rd F.mgtCores_RESTARTS) 1 ∧ t.rd F.mgtCores_LAST_CORE = core.val ∧
      t.rd F.mgtCores_LAST_CAUSE = cause ∧ (t.rd F.mgtCores_UP).testBit core.val = false ∧ t.rings = s.rings ∧ t.mbox = s.mbox ∧
      ((s.recentRestarts.filter (fun r => r.1 == core.val)).length < 2 → t.coreHalted core.val = true ∧ t.rd F.mgtCores_RETIRED = s.rd F.mgtCores_RETIRED) ∧
      (2 ≤ (s.recentRestarts.filter (fun r => r.1 == core.val)).length → s.rd F.mgtCores_RETIRED = 0 →
        (t.rd F.mgtCores_RETIRED).testBit core.val = true ∧ t.coreHalted core.val = false ∧
          (t.rd F.mgtDegraded_CAUSES).testBit Cse.core = true))) ∧
  (∀ (core : Fin 4) (s : State), s.coreHalted core.val = true →
    leads (.coreRestartDone core) s (fun t => t.coreHalted core.val = false ∧ t.rings = s.rings ∧ t.mbox = s.mbox ∧
      (s.rel.held = [] → (t.rd F.mgtCores_UP).testBit core.val = true ∧ keepsRegs s t [Reg.mgtCores])))

/-- RETIRE_COPY_PIECE (R301, R302): the piece due of a retiring channel is copied into its slot, where its bytes stand
and are read from then on, and the next piece is due; all other memory stands. Training and recalibration in service
(R299, R300, R301, R311). A recalibration holds requests for a time and changes nothing else. A retrain that finds
every lane sound ends the group's pending retrain and leaves the rest; a lane that fails takes a spare of its group,
and with none left its channel begins to retire into a free slot, unless the cross-check of that fails (log entry
19). -/
def Obligations.LaneRepairs : Prop :=
  (∀ (stack : Fin 20) (channel : Fin 128) (s : State) (r : RetireCopy),
     let n := stack.val
     let k := 128 * n + channel.val
     s.mem.wf = true → look s.rel.copies k = some r → look s.rel.slots k = none → r.slot < s.slotsOf (n / 5) → r.piece < 383 →
     leads (.retireCopyPiece stack channel) s (fun t =>
       (∃ bad, look t.rel.copies k = some { r with piece := r.piece + 1, poisoned := r.poisoned + bad }) ∧
       (∀ o, o < (384 - s.rd F.memReserve_PER_STACK) * 2 ^ 28 → chanOf o = channel.val → pieceOf o = r.piece →
         s.homeKey n o = n * 2 ^ 40 + o ∧ t.homeKey n o = s.reserveKey (n / 5) r.slot (chanByte o) ∧
         t.mem.read (t.homeKey n o) = s.mem.read (n * 2 ^ 40 + o)) ∧
       (∀ key, s.inSlot (n / 5) r.slot (fun p => p == r.piece) key = false → t.mem.read key = s.mem.read key) ∧
       t.regs = s.regs ∧ t.rel.slots = s.rel.slots)) ∧
  ((∀ (stack : Fin 20) (group : Fin 4) (s : State), exec (.phyRecalibration stack group) s = .next s) ∧
   (∀ (c : Instr) (stack : Fin 20) (group : Fin 4) (s : State),
     (c = .periodicRetrain stack group [] ∨ c = .earlyRetrain stack group []) → s.stackUp stack.val = true →
     exec c s = .next { s with rel := { s.rel with retrain := s.rel.retrain.filter (fun g => g != 4 * stack.val + group.val) } }) ∧
   (∀ (c : Instr) (stack : Fin 20) (lane : LaneFail) (group : Fin 4) (s : State),
     (c = .periodicRetrain stack group [lane] ∨ c = .earlyRetrain stack group [lane] ∧ 4 * stack.val + group.val ∈ s.rel.retrain) →
     s.stackUp stack.val = true → lane.channel.val / 32 = group.val → s.chanOut stack.val lane.channel.val = false → 0 < s.sparesLeft stack.val group.val → s.sec.xi = none →
     leads c s (fun t => t.rel.spares = s.rel.spares ++ [(stack.val, lane.channel.val, lane.lane.val, 4 - s.sparesLeft stack.val group.val)] ∧
       t.sparesLeft stack.val group.val = s.sparesLeft stack.val group.val - 1 ∧ t.rel.slots = s.rel.slots ∧
       (s.quietQueues → t.mem = s.mem ∧ t.ecc = s.ecc) ∧ t.nvmA = s.nvmA ∧ t.nvmB = s.nvmB ∧ t.rings = s.rings)) ∧
   (∀ (c : Instr) (stack : Fin 20) (lane : LaneFail) (group : Fin 4) (slot : Nat) (s : State),
     (c = .periodicRetrain stack group [lane] ∨ c = .earlyRetrain stack group [lane] ∧ 4 * stack.val + group.val ∈ s.rel.retrain) →
     s.stackUp stack.val = true → lane.channel.val / 32 = group.val → s.chanOut stack.val lane.channel.val = false →
     look s.rel.copies (128 * stack.val + lane.channel.val) = none → s.sparesLeft stack.val group.val = 0 →
     s.freeSlot (stack.val / 5) = some slot → s.rel.held = [] →
     leads c s (fun t => t.rel.spares = s.rel.spares ∧ t.rings = s.rings ∧ (s.quietQueues → t.mem = s.mem ∧ t.ecc = s.ecc) ∧
       (Config.crossFails s.nfree = true → t.rel.copies = s.rel.copies) ∧
       (Config.crossFails s.nfree = false →
         look t.rel.copies (128 * stack.val + lane.channel.val) = some { slot := slot, lane := lane.lane.val }))))

/-- TELEMETRY_TICK (R396): where the telemetry queue is not enabled the packet is dropped. Into an enabled queue with
room it is one entry of priority 0 with the time, the unit and its kind first; pointers of the queue that disagree
empty it instead (log entry 20). -/
def Obligations.TelemetryTicks : Prop :=
  ∀ (unit : BitVec 16) (v : List (BitVec 32)) (s : State) (k : Nat), s.telemetryKind unit.toNat = some k →
    17 ≤ s.telemetryQueue → s.telemetryQueue ≤ 255 → (s.serving = true ∨ s.dev = Dev.paused ∨ s.dev = Dev.braced) →
    leads (.telemetryTick unit v) s (fun t => (s.quietQueues → t.mem = s.mem ∧ t.ecc = s.ecc) ∧ t.ctxs = s.ctxs ∧ t.rings = s.rings ∧
      (s.flag F.queCfg_ENABLE s.telemetryQueue = false → (t.que s.telemetryQueue).pkts = (s.que s.telemetryQueue).pkts) ∧
      (s.flag F.queCfg_ENABLE s.telemetryQueue = true → (s.que s.telemetryQueue).entries < s.queCap s.telemetryQueue →
        if Config.ptrMismatch s.nfree then (t.que s.telemetryQueue).pkts = [] else
        ∃ p, (t.que s.telemetryQueue).pkts = (s.que s.telemetryQueue).pkts ++ [p] ∧ p.prio = 0 ∧ p.seq = (s.que s.telemetryQueue).seq ∧
          ∃ e, p.ents = [natLE 8 s.time ++ natLE 2 unit.toNat ++ natLE 2 k ++ e] ∧ e.length = 20))

/-! ### Reliability and field records (chapter 17) -/

/-- COOLANT_CHECK (R517, R616): the readings are kept; an inlet that has been above 40.0 °C for more than a minute
brings the cause COOLANT, and one at or below 38.0 °C for ten minutes ends it, from BRINGUP onward. CE_WINDOW_END
(R517): the window's counts are cleared; a channel over the threshold in its sixth window in a row brings the cause
CE_RATE, and 24 windows in a row with no channel over it end it. -/
def Obligations.DegradedCauses : Prop :=
  (∀ (inlet outlet : BitVec 12) (s : State), s.dev ≠ Dev.off →
     leads (.coolantCheck inlet outlet) s (fun t =>
       t.pins.coolantIn = inlet.toNat ∧ t.pins.coolantOut = outlet.toNat ∧
       t.rings = s.rings ∧ t.mbox = s.mbox ∧ t.nvmA = s.nvmA ∧
       (Dev.bringup ≤ s.dev → 400 < inlet.toNat → (∃ a, s.rel.hotSince = some a ∧ a + 60000000000 < s.ivl) →
         (t.rd F.mgtDegraded_CAUSES).testBit Cse.coolant = true) ∧
       (Dev.bringup ≤ s.dev → inlet.toNat ≤ 380 → (∃ a, s.rel.coolSince = some a ∧ a + 600000000000 ≤ s.ivl) →
         (t.rd F.mgtDegraded_CAUSES).testBit Cse.coolant = false))) ∧
  (∀ (s : State), Dev.bringup ≤ s.dev →
     leads .ceWindowEnd s (fun t =>
       (s.quietQueues → t.rel.ceWin = []) ∧ t.rings = s.rings ∧ t.nvmA = s.nvmA ∧ t.nvmB = s.nvmB ∧
       (∀ k n, (k, n) ∈ s.ceHigh → 5 ≤ lookD s.rel.ceOver k 0 → (t.rd F.mgtDegraded_CAUSES).testBit Cse.ceRate = true) ∧
       (s.ceHigh = [] → 23 ≤ s.rel.ceClean → (t.rd F.mgtDegraded_CAUSES).testBit Cse.ceRate = false)))

/-- The field records (R527, R528, R540). SHOCK_BEGIN: above 2 g an event begins, or the peak of the one under way
rises. SHOCK_END: MGT_SHOCK counts the event and keeps its peak. LIFE_SAMPLE: the temperatures and the supply
voltage are kept, and each counts in its bin. The life log and NVM (R529, R532, R600). LIFE_MIRROR: ten minutes
after the last one, with an identity, the log is mirrored under the next MIRROR_SEQ. POWER_WARNING: the warning
stands in MGT_BRACE_STATUS and at the pin. NVM_WRITE_PROTECT_CHANGE: the pin's level is kept, and asserted it
abandons the NVM write of the mailbox (NVM_FAIL). -/
def Obligations.FieldRecords : Prop :=
  ((∀ (m : BitVec 16) (axis : Fin 3) (s : State), s.dev ≠ Dev.off → 20 < m.toNat →
     leads (.shockBegin m axis) s (fun t =>
       ∃ p a at_, t = { s with rel := { s.rel with shock := some (p, a, at_) } } ∧ m.toNat ≤ p ∧
         (s.rel.shock = none → p = m.toNat ∧ a = axis.val ∧ at_ = s.ivl))) ∧
   (∀ (s : State) (peak axis at_ : Nat), s.rel.shock = some (peak, axis, at_) → peak < 65536 →
     leads .shockEnd s (fun t =>
       t.rel.shock = none ∧ t.rd F.mgtShock_LAST_PEAK = peak ∧
       t.rd F.mgtShock_MAX_PEAK = max (s.rd F.mgtShock_MAX_PEAK) peak ∧
       t.rd F.mgtShock_EVENTS = satAdd 16 (s.rd F.mgtShock_EVENTS) 1 ∧
       keepsRegs s t (Reg.mgtShock :: toldRegs))) ∧
   (∀ (a b c d e : BitVec 8) (mv : BitVec 16) (s : State), s.dev ≠ Dev.off →
     leads (.lifeSample [a, b, c, d, e] mv) s (fun t =>
       t.rd F.pwrTemp_D0 = a.toNat ∧ t.rd F.pwrTemp_D1 = b.toNat ∧ t.rd F.pwrTemp_D2 = c.toNat ∧
       t.rd F.pwrTemp_D3 = d.toNat ∧ t.rd F.pwrTemp_H = e.toNat ∧ t.pins.supplyMv = mv.toNat ∧
       t.lifeGet (0x02C0 + 4 * supplyBin mv.toNat) 4 = satAdd 32 (s.lifeGet (0x02C0 + 4 * supplyBin mv.toNat) 4) 1 ∧
       t.lifeGet (0x00C0 + 4 * tempBin a.toNat) 4 = satAdd 32 (s.lifeGet (0x00C0 + 4 * tempBin a.toNat) 4) 1 ∧
       t.mem = s.mem ∧ t.rings = s.rings ∧ keepsRegs s t [Reg.pwrTemp]))) ∧
  ((∀ (s : State), s.logReady = true → s.rel.held = [] → 600000000000 ≤ s.ivl - s.rel.mirrorAt → s.sec.xi ≠ none →
     leads .lifeMirror s (fun t =>
       t.rd F.mgtLifeStatus_MIRROR_SEQ = (s.lifeGet 8 8 + 1) % 2 ^ F.mgtLifeStatus_MIRROR_SEQ.width ∧
       t.rel.mirrorAt = s.ivl ∧ t.rings = s.rings)) ∧
   (∀ (s : State), s.dev ≠ Dev.off → s.rel.held = [] →
     leads .powerWarning s (fun t =>
       t.rd F.mgtBraceStatus_PWR_WARN = 1 ∧ t.pins.pwrWarnLow = true ∧ t.rings = s.rings)) ∧
   (∀ (asserted : Bool) (s : State),
     leads (.nvmWriteProtectChange asserted) s (fun t =>
       t.pins = { s.pins with nvmWp := asserted } ∧
       (asserted = false ∨ (∀ j, s.mbox = some j → j.writes = none) →
         t.regs = s.regs ∧ t.mem = s.mem ∧ t.nvmA = s.nvmA ∧ t.nvmB = s.nvmB ∧ t.mbox = s.mbox) ∧
       (asserted = true → ∀ j w, s.mbox = some j → j.writes = some w → t.mbox = some { j with writes := none, result := 9 }))))

/-- Tests of idle tiles (R521). TILE_IDLE_TEST: a tile that is due is under test, and its group is asked to wake.
TILE_TEST_END: a tile that passes is tested now. The scrubs (R292 to R297, R311). PATROL_SCRUB: a pattern of symbol
errors within the radius on a channel in service is corrected and counted, and written back unless a retrain is
pending; one that the code detects leaves the granule lost and logged. SRAM_SCRUB: a tile-store word that cannot be
corrected leaves its granule poisoned and is reported; a dirty granule of a shared cache is poisoned in the stack,
and a clean one is counted as corrected and fetched again. INNER_COUNT_POLL: the inner code's corrections add up. -/
def Obligations.TestsAndScrubs : Prop :=
  ((∀ (tile : Fin 48) (s : State), s.testDue tile.val = true →
     leads (.tileIdleTest tile) s (fun t =>
       t.rel.testing = s.rel.testing ++ [tile.val] ∧ t.mem = s.mem ∧ t.rings = s.rings ∧
       (s.domFitted (tileDom tile.val) = true → (look t.pwr.wake (tileDom tile.val)).isSome = true))) ∧
   (∀ (tile : Fin 48) (s : State), tile.val ∈ s.rel.testing → s.domOn (tileDom tile.val) = true →
     leads (.tileTestEnd tile 0) s (fun t =>
       t = { s with rel := { s.rel with testing := s.rel.testing.filter (· != tile.val),
                                        tested := put s.rel.tested tile.val (s.ivl + 1) } }))) ∧
  ((∀ (stack : Fin 20) (granule : BitVec 32) (symbols : BitVec 72) (s : State),
     let n := stack.val
     let o := granule.toNat * 64
     let key := s.homeKey n o
     let m := key / 2 ^ 40 % 64
     s.stackUp n = true → s.domOn (dieDom (n / 5)) = true → s.chanLost n (chanOf o) = false →
     (lookD s.ecc key {}).poison = false → symbols ≠ 0 →
     (badCount symbols ≤ s.radius n o →
       leads (.patrolScrub stack granule symbols) s (fun t =>
         t.rd F.memEccCount_CORRECTED m = satAdd 32 (s.rd F.memEccCount_CORRECTED m) 1 ∧
         t.rd F.memEccCount_UNCORRECTABLE n = s.rd F.memEccCount_UNCORRECTABLE n ∧
         (t.retrainPending m (chanOf (key % 2 ^ 40)) = false → look t.ecc key = none) ∧
         t.mem = s.mem ∧ t.host = s.host ∧ t.rings = s.rings ∧ keepsRegs s t [Reg.memEccCount])) ∧
     (s.radius n o < badCount symbols → badCount symbols ≤ 8 - s.radius n o →
       leads (.patrolScrub stack granule symbols) s (fun t =>
         t.flag F.memErrLog_VALID = true ∧ t.rings = s.rings ∧
         (s.quietQueues → t.rd F.memEccCount_UNCORRECTABLE n =
             satAdd F.memEccCount_UNCORRECTABLE.width (s.rd F.memEccCount_UNCORRECTABLE n) 1 ∧
           (lookD t.ecc key {}).bad = symbols ∧ t.mem = s.mem)))) ∧
   (∀ (tile : Fin 48) (g : BitVec 20) (s : State), g.toNat * 64 < 0x1C00000 →
     leads (.sramScrub (.tile tile g false)) s (fun t =>
       let pa := 0x080000000000 + tile.val * 0x2000000 + g.toNat * 64
       t = ((s.poisonGran pa).logLost pa 0 0 true true).tellUncorrectable pa)) ∧
   (∀ (w : SramWord) (s : State), (∃ tile g, w = .tile tile g true) ∨ (∃ stack g, w = .cache stack g true) → exec (.sramScrub w) s = .next s) ∧
   (∀ (stack : Fin 20) (g : BitVec 32) (s : State),
     let n := stack.val
     let o := g.toNat * 64
     s.stackUp n = true → s.cached n o = true →
     (s.dirtyAt n o = true →
       leads (.sramScrub (.cache stack g false)) s (fun t => t.flag F.memErrLog_VALID = true ∧ t.rings = s.rings ∧
         (s.quietQueues → (lookD t.ecc (s.homeKey n o) {}).poison = true ∧ t.cached n o = false ∧ t.mem = s.mem))) ∧
     (s.dirtyAt n o = false → s.chanLost n (chanOf o) = false → lookD s.ecc (s.homeKey n o) {} = {} →
       leads (.sramScrub (.cache stack g false)) s (fun t =>
         t.rd F.memEccCount_CORRECTED n = satAdd 32 (s.rd F.memEccCount_CORRECTED n) 1 ∧ t.cached n o = true ∧ t.dirtyAt n o = false ∧
         t.mem = s.mem ∧ t.rings = s.rings ∧ keepsRegs s t [Reg.memEccCount]))) ∧
   (∀ (stack : Fin 20) (n : BitVec 16) (s : State), s.stackUp stack.val = true →
     leads (.innerCountPoll stack n) s (fun t =>
       t.rd F.memEccCount_INNER stack.val = satAdd 16 (s.rd F.memEccCount_INNER stack.val) n.toNat ∧
       t.rd F.memEccCount_CORRECTED stack.val = s.rd F.memEccCount_CORRECTED stack.val ∧
       t.mem = s.mem ∧ t.ecc = s.ecc ∧ keepsRegs s t [Reg.memEccCount])))

/-! ### The host interface (chapters 19 and 20) -/

/-- Resets of the PCIe functions (R349, R476): each context that a reset disables is DISABLING, during an activation
pause the disable is held (R565), HUB_STATE does not change, and no byte of memory does. The registers of PF0 are
reset once the contexts are disabled. -/
def Obligations.FunctionResets : Prop :=
  (∀ (k : Fin 16) (s : State), s.dev ≠ Dev.off → s.dev ≠ Dev.paused → s.ctxState k.val ≠ Ctx.disabling →
    leads (.vfFlr k) s (fun t => t.ctxState k.val = Ctx.disabling ∧ (∀ c, c < 16 → c ≠ k.val → t.ctxState c = s.ctxState c) ∧
      t.dev = s.dev ∧ t.mem = s.mem ∧ t.host = s.host ∧ t.mbox = s.mbox ∧ keepsRegs s t [Reg.ctxState])) ∧
  (∀ (k : Fin 16) (s : State), s.dev = Dev.paused → s.ctxState k.val ≠ Ctx.disabling →
    leads (.vfFlr k) s (fun t => k.val ∈ t.sec.heldDisable ∧ t.regs = s.regs ∧ t.rings = s.rings)) ∧
  (∀ s : State, s.dev ≠ Dev.off → s.dev ≠ Dev.paused →
    leads .vfDisable s (fun t => (∀ c, c < 16 → t.ctxState c = Ctx.disabling) ∧ t.dev = s.dev ∧ t.mem = s.mem ∧ t.mbox = s.mbox ∧
      keepsRegs s t [Reg.ctxState])) ∧
  (∀ (c : Instr) (s : State), (c = .pf0Flr ∨ c = .hotReset) → Dev.rom ≤ s.dev → s.dev ≠ Dev.paused →
    leads c s (fun t => (∀ k, k < 16 → t.ctxState k = Ctx.disabling) ∧ t.pf0Reset = true ∧ t.dev = s.dev ∧ t.mem = s.mem ∧ t.host = s.host ∧
      t.mbox = s.mbox ∧ keepsRegs s t [Reg.ctxState])) ∧
  (∀ (c : Instr) (s : State), (c = .pf0Flr ∨ c = .hotReset ∨ c = .vfDisable) → s.dev = Dev.paused →
    leads c s (fun t => (∀ k, k < 16 → s.ctxState k ≠ Ctx.disabling → k ∈ t.sec.heldDisable) ∧ t.regs = s.regs ∧ t.mem = s.mem ∧ t.rings = s.rings)) ∧
  (∀ s : State, Dev.rom ≤ s.dev → s.dev ≠ Dev.paused →
    leads .perstAssert s (fun t => (∀ k, k < 16 → t.ctxState k = Ctx.disabling) ∧ t.pf0Reset = true ∧ t.dev = s.dev ∧ t.pins.perst = true ∧
      t.rd F.hubLink_GEN = 0 ∧ t.rd F.hubLink_WIDTH = 0 ∧ keepsRegs s t (Reg.ctxState :: Reg.hubLink :: toldRegs))) ∧
  (∀ s : State, exec .perstRelease s = .next { s with pins := { s.pins with perst := false } })

/-- The link and the module's pins (R568, R574, R593, R596, R601). Without the reference clock there is no link. A link
state that the link can have is shown with the errors counted. PPS edges are timed and never move device time. -/
def Obligations.LinkAndPins : Prop :=
  (∀ s : State, Dev.rom ≤ s.dev →
    leads .refclkLoss s (fun t => t.rd F.hubLink_GEN = 0 ∧ t.rd F.hubLink_WIDTH = 0 ∧ t.pins.refclk = false ∧ t.dev = s.dev ∧
      t.rings = s.rings ∧ t.conns = s.conns ∧ keepsRegs s t (Reg.hubLink :: toldRegs))) ∧
  (∀ (gen : BitVec 3) (width : BitVec 4) (corr uncorr : BitVec 16) (s : State), Dev.rom ≤ s.dev →
    linkOk gen.toNat width.toNat = true → (gen = 0 ∨ s.pins.perst = false) →
    leads (.pcieLinkStateChange gen width corr uncorr) s (fun t =>
      t.rd F.hubLink_GEN = gen.toNat ∧ t.rd F.hubLink_WIDTH = width.toNat ∧
      t.rd F.hubLink_CORRECTABLE = satAdd F.hubLink_CORRECTABLE.width (s.rd F.hubLink_CORRECTABLE) corr.toNat ∧
      t.rd F.hubLink_UNCORRECTABLE = satAdd F.hubLink_UNCORRECTABLE.width (s.rd F.hubLink_UNCORRECTABLE) uncorr.toNat ∧
      t.dev = s.dev ∧ t.rings = s.rings)) ∧
  (∀ (status hdr : BitVec 32) (fn : BitVec 16) (s : State), Dev.rom ≤ s.dev →
    leads (.pcieAerEvent status hdr fn) s (fun t =>
      t.rd F.hubLink_UNCORRECTABLE = satAdd F.hubLink_UNCORRECTABLE.width (s.rd F.hubLink_UNCORRECTABLE) 1 ∧
      t.rd F.hubLink_GEN = s.rd F.hubLink_GEN ∧ t.dev = s.dev ∧
      keepsRegs s t (Reg.hubLink :: toldRegs))) ∧
  (∀ s : State, s.dev ≠ Dev.off →
    leads .ppsEdge s (fun t => t.rd F.mgtPps_EDGE_TIME = s.time % 2 ^ F.mgtPps_EDGE_TIME.width ∧ t.pins.ppsAt = some s.ivl ∧
      t.clk = s.clk ∧ t.mem = s.mem ∧ t.rings = s.rings ∧ keepsRegs s t [Reg.mgtPps])) ∧
  (∀ (i3c : Bool) (offset : BitVec 32) (s : State) (r i : Nat), Dev.rom ≤ s.dev → s.pins.mgmtBinding.getD i3c = i3c → s.dutyHeld 0 = false →
    offset.toNat < 0x4000 → s.spotAt .pf0 offset.toNat = .reg r i →
    leads (.mctpMessage i3c offset false) s (fun t => t.out = s.out ++ [.mctp true (BitVec.ofNat 64 (s.regView r i))] ∧
      t.pins.mgmtBinding = some i3c ∧ t.mem = s.mem ∧ keepsRegs s t [r])) ∧
  (∀ (i3c : Bool) (offset : BitVec 32) (s : State), Dev.rom ≤ s.dev → s.pins.mgmtBinding.getD i3c = i3c → s.dutyHeld 0 = false →
    leads (.mctpMessage i3c offset true) s (fun t => t.out = s.out ++ [.mctp false 0] ∧ t.regs = s.regs ∧ t.mem = s.mem))

/-- The reads of registers with fields that a read clears (R12, R572): the value read is the register's, every RC field
is then zero, every other field of the register and every other register stands. A read that may not reach the
register, or whose unit is absent, gives zero and clears nothing. -/
def Obligations.CountReads : Prop :=
  ∀ (c : Instr) (s : State) (ok : Bool) (r i : Nat), countRead s c = some (ok, r, i) →
    (ok = true → s.unitGone r i = false →
      leads c s (fun t => t.rdata = s.regView r i ∧ (∀ f, f ∈ regFields r → t.rd f i = if f.acc = .rc then 0 else s.rd f i) ∧
        (∀ j, j < 1048576 → j ≠ i → t.reg r j = s.reg r j) ∧ keepsRegs s t [r] ∧ keepsMem s t ∧ t.rings = s.rings ∧ t.out = s.out)) ∧
    ((ok = false ∨ s.unitGone r i = true) → leads c s (fun t => t.rdata = 0 ∧ t.regs = s.regs ∧ keepsMem s t))

/-- REGISTER_WRITE (R12, R572) of a register without a rule of its own: an RW field takes the bits written, an RWL field
does in CFG_HOLD and BRINGUP alone, an RW1C field loses the bits that are written 1, and every other field stands. A
write of an offset that names nothing is ignored. -/
def Obligations.PlainWrites : Prop :=
  (∀ (fn : Fn) (off : BitVec 24) (v : Word) (s : State) (r i : Nat), Dev.rom ≤ s.dev → s.spotAt fn off.toNat = .reg r i →
    r ∈ [Reg.hubHealth, Reg.hubWindow, Reg.memHostBase, Reg.pwrIdle, Reg.memRegionCfg, Reg.memReserve, Reg.netPortCfg,
      Reg.netFabricCfg, Reg.kfeLiveCfg, Reg.queNotify, Reg.ctxFlags, Reg.ctxFramePool, Reg.ctxPgroup, Reg.tilSrngSeed] →
    leads (.registerWrite fn off v) s (fun t =>
      (∀ f, f ∈ regFields r → t.rd f i =
        match f.acc with
        | .rw => bitsOf v.toNat f.lo f.width
        | .rwl => if s.rwlOpen then bitsOf v.toNat f.lo f.width else s.rd f i
        | .rw1c => s.rd f i - (s.rd f i &&& bitsOf v.toNat f.lo f.width)
        | _ => s.rd f i) ∧
      (∀ j, j < 1048576 → j ≠ i → t.reg r j = s.reg r j) ∧ keepsRegs s t [r] ∧ keepsMem s t ∧ t.rings = s.rings ∧ t.out = s.out)) ∧
  (∀ (fn : Fn) (off : BitVec 24) (v : Word) (s : State), s.spotAt fn off.toNat = .empty → exec (.registerWrite fn off v) s = .next s)

/-- WINDOW_WRITE and WINDOW_READ (R575) of a tile store without a poisoned granule: a write stores exactly its bytes,
and a read gives the bytes there. The BAR4 window outside what it reaches (R575): a read gives ones, a write changes
nothing but the report of it. -/
def Obligations.WindowAccesses : Prop :=
  ((∀ (offset : BitVec 32) (bytes : List Byte) (s : State) (tile o : Nat), Dev.rom ≤ s.dev → s.windowOpen = true →
     s.tilePresent tile = true → s.windowAddr offset.toNat = 0x080000000000 + tile * 0x2000000 + o → o + bytes.length ≤ 0x1C00000 →
     (∀ k g, look s.ecc k = some g → g.poison = false) →
     leads (.windowWrite offset bytes) s (fun t => t.mem = s.mem.writeN (2 ^ 46 + tile * 2 ^ 25 + o) bytes ∧ t.host = s.host ∧
       t.regs = s.regs ∧ t.rings = s.rings ∧ t.out = s.out)) ∧
   (∀ (offset : BitVec 32) (len : Fin 4097) (s : State) (tile o : Nat), Dev.rom ≤ s.dev → s.windowOpen = true →
     s.tilePresent tile = true → s.windowAddr offset.toNat = 0x080000000000 + tile * 0x2000000 + o → o + len.val ≤ 0x1C00000 →
     (∀ k g, look s.ecc k = some g → g.poison = false) →
     leads (.windowRead offset len) s (fun t => t = { s with rdata := leNat (s.mem.readN (2 ^ 46 + tile * 2 ^ 25 + o) len.val) }))) ∧
  ((∀ (offset : BitVec 32) (len : Fin 4097) (s : State), Dev.rom ≤ s.dev →
     s.windowReach (s.windowAddr offset.toNat) len.val = false →
     leads (.windowRead offset len) s (fun t => t.rdata = 2 ^ (8 * len.val) - 1 ∧ t.rings = s.rings ∧
       (s.quietQueues → t.mem = s.mem ∧ t.ecc = s.ecc) ∧ keepsRegs s t toldRegs)) ∧
   (∀ (offset : BitVec 32) (bytes : List Byte) (s : State), Dev.rom ≤ s.dev →
     s.windowReach (s.windowAddr offset.toNat) bytes.length = false →
     leads (.windowWrite offset bytes) s (fun t => t.rdata = s.rdata ∧ t.rings = s.rings ∧
       (s.quietQueues → t.mem = s.mem ∧ t.ecc = s.ecc) ∧ keepsRegs s t toldRegs)))

/-! ### Contexts and rings (chapters 10 and 20) -/

/-- CTX_PREEMPT, CTX_EVICT and CTX_RESUME (R344, R345, R348, R353) through PF0: an IDLE or ACTIVE context is PREEMPTING,
with its mode kept, and a PREEMPTED one RESUMING, with no translation of it cached. The write of a virtual function
is ignored. -/
def Obligations.ContextControl : Prop :=
  (∀ (c : Instr) (evict : Bool) (ctx : Fin 16) (s : State),
    (c = .ctxPreempt (.fn .pf0) ctx ∧ evict = false ∨ c = .ctxEvict (.fn .pf0) ctx ∧ evict = true) →
    s.ctxState ctx.val = Ctx.idle ∨ s.ctxState ctx.val = Ctx.active →
    leads c s (fun t => t.ctxState ctx.val = Ctx.preempting ∧ (t.ctx ctx.val).evict = (evict || s.saveUnusable ctx.val) ∧
      (t.ctx ctx.val).askedAt = s.ivl ∧ (∀ d, d < 16 → d ≠ ctx.val → t.ctxState d = s.ctxState d) ∧ t.mem = s.mem ∧ t.conns = s.conns ∧
      keepsRegs s t [Reg.ctxState])) ∧
  (∀ (ctx : Fin 16) (s : State), s.ctxState ctx.val = Ctx.preempted →
    leads (.ctxResume (.fn .pf0) ctx) s (fun t => t.ctxState ctx.val = Ctx.resuming ∧ (t.ctx ctx.val).askedAt = s.ivl ∧
      (∀ d, d < 16 → d ≠ ctx.val → t.ctxState d = s.ctxState d) ∧ (∀ e, e ∈ t.tlb.leaves → e.ctx ≠ ctx.val) ∧
      t.rings = s.rings ∧ t.mem = s.mem ∧ keepsRegs s t [Reg.ctxState])) ∧
  (∀ (k ctx : Fin 16) (s : State), exec (.ctxPreempt (.fn (.vf k)) ctx) s = .next s ∧ exec (.ctxEvict (.fn (.vf k)) ctx) s = .next s ∧
    exec (.ctxResume (.fn (.vf k)) ctx) s = .next s)

/-- PREEMPT_COMPLETE (R344 to R347, R384): a context without a fetched command, or one whose save area holds 16 MiB and
whose units stand at their restart points, is PREEMPTED, and its ACTIVE beads are SUSPENDED. RESUME_COMPLETE (R348,
R384): a context that held no command is IDLE again, and its SUSPENDED beads are ACTIVE. -/
def Obligations.PreemptAndResume : Prop :=
  (∀ (ctx : Fin 16) (s : State), s.ctxState ctx.val = Ctx.preempting → s.preemptReady ctx.val = true →
     ((s.ctx ctx.val).evict = true ∧ s.ctxCmds ctx.val = [] ∨ (s.ctx ctx.val).evict = false ∧ 16 ≤ s.rd F.ctxSave_SIZE ctx.val) →
     leads (.preemptComplete ctx) s (fun t => t.ctxState ctx.val = Ctx.preempted ∧
       (∀ n, n < 65536 → s.rd F.beadAttr_OWNER n = ctx.val → s.beadState n = BeadSt.active → t.beadState n = BeadSt.suspended) ∧
       (∀ n, n < 65536 → s.rd F.beadAttr_OWNER n ≠ ctx.val → t.beadState n = s.beadState n) ∧ (∀ n, n < 65536 → t.beadValue n = s.beadValue n))) ∧
  (∀ (ctx : Fin 16) (s : State), s.ctxState ctx.val = Ctx.resuming → s.ctxCmds ctx.val = [] →
     leads (.resumeComplete ctx) s (fun t => t.ctxState ctx.val = Ctx.idle ∧
       (∀ n, n < 65536 → s.rd F.beadAttr_OWNER n = ctx.val → s.beadState n = BeadSt.suspended → t.beadState n = BeadSt.active) ∧
       (∀ n, n < 65536 → s.rd F.beadAttr_OWNER n ≠ ctx.val → t.beadState n = s.beadState n) ∧ (∀ n, n < 65536 → t.beadValue n = s.beadValue n)))

/-- CTX_INVALIDATE and INVALIDATION_COMPLETE (R334, R355): INVAL_BUSY is 1 from the write to its end, when no cache
holds a translation of the range, and a COUNT of 0 is the whole context; a write through another context's function,
or while one is in progress, has no effect. The disable of a context (R349, R354). 20 ms after it began the units
that still stall are abandoned and counted. At its end the context is IDLE, its registers are at their reset values
but for sticky fields, and its rings, groups and brace set are gone; where PF0 was reset and this was the last
context, the registers of PF0 are reset too. -/
def Obligations.InvalidateAndDisable : Prop :=
  ((∀ (fn : Fn) (ctx : Fin 16) (vpn : BitVec 36) (count : BitVec 20) (s : State),
     Fn.reaches fn ctx.val = true → s.flag F.ctxState_INVAL_BUSY ctx.val = false →
     leads (.ctxInvalidate fn ctx vpn count) s (fun t => t.rd F.ctxState_INVAL_BUSY ctx.val = 1 ∧ t.ctxState ctx.val = s.ctxState ctx.val ∧
       (t.ctx ctx.val).inval = some (vpn.toNat, count.toNat) ∧ t.tlb = s.tlb ∧
       t.mem = s.mem ∧ t.rings = s.rings ∧ keepsRegs s t [Reg.ctxState])) ∧
   (∀ (fn : Fn) (ctx : Fin 16) (vpn : BitVec 36) (count : BitVec 20) (s : State),
     Fn.reaches fn ctx.val = false ∨ s.flag F.ctxState_INVAL_BUSY ctx.val = true → exec (.ctxInvalidate fn ctx vpn count) s = .next s) ∧
   (∀ (ctx : Fin 16) (s : State), s.flag F.ctxState_INVAL_BUSY ctx.val = true →
     let r := (s.ctx ctx.val).inval.getD (0, 0)
     leads (.invalidationComplete ctx) s (fun t => t.rd F.ctxState_INVAL_BUSY ctx.val = 0 ∧ t.ctxState ctx.val = s.ctxState ctx.val ∧
       (∀ e, e ∈ t.tlb.leaves → e.ctx = ctx.val → r.2 ≠ 0 ∧ (e.base < (r.1 + r.2) * 65536 → e.base + Pte.span e.entry ≤ r.1 * 65536)) ∧
       (∀ e, e ∈ s.tlb.leaves → e.ctx ≠ ctx.val → e ∈ t.tlb.leaves) ∧
       t.mem = s.mem ∧ t.rings = s.rings ∧ keepsRegs s t [Reg.ctxState]))) ∧
  ((∀ (ctx : Fin 16) (s : State), s.ctxState ctx.val = Ctx.disabling → (s.ctx ctx.val).disabledAt + 20000000 ≤ s.ivl →
     leads (.disableUnitDeadline ctx) s (fun t => (∀ e, e ∈ t.ctxCmds ctx.val → e.2.stalls = []) ∧
       (t.ctx ctx.val).abandoned = (s.ctx ctx.val).abandoned + ((s.ctxCmds ctx.val).map (fun e => e.2.stalls.length)).sum ∧
       (t.ctxCmds ctx.val).length = (s.ctxCmds ctx.val).length ∧ t.regs = s.regs ∧ t.mem = s.mem)) ∧
   (∀ (ctx : Fin 16) (s : State), s.ctxState ctx.val = Ctx.disabling → s.ctxStalls ctx.val = [] →
     leads (.disableComplete ctx) s (fun t => t.ctxState ctx.val = Ctx.idle ∧ look t.ctxs ctx.val = none ∧
       (∀ k, k / 64 = ctx.val → look t.rings k = none) ∧ (∀ g, g ∈ t.groups → g.ctx ≠ ctx.val) ∧ look t.brace.sets ctx.val = none ∧
       t.rd F.ctxMmuRoot_TABLE ctx.val = 0 ∧ t.rd F.ctxVersion_CURRENT ctx.val = s.rd F.ctxVersion_CURRENT ctx.val ∧
       (s.pf0Reset = true → s.sec.heldDisable = [] → (∀ c, c < 16 → c ≠ ctx.val → s.ctxState c ≠ Ctx.disabling) →
         t.rd F.hubWindow_BASE = 0 ∧ t.rd F.memHostBase_BASE = 0 ∧ t.rd F.hubMboxStatus_BUSY = 0 ∧ (∀ j, t.mbox = some j → j.lost = true) ∧
         t.pf0Reset = false))))

/-- Doorbells (R580, R583). Before READY and while BRACED they are ignored, and on a ring with ENABLE = 0 they have no
effect; while PAUSED, and during the drain of a REMAP, TAIL is taken and fetch waits; after the pause the ring
fetches, once the die that holds the record is awake. Within the ring TAIL is written and nothing else but wake
requests; one that goes beyond the ring stops it with cause OVERRUN. A virtual function reaches its own context
alone. -/
def Obligations.Doorbells : Prop :=
  ∀ (fn : Fn) (ctx : Fin 16) (ring : Fin 64) (tail : BitVec 32) (s : State),
    let k := ringKey ctx.val ring.val
    let d := (tail.toNat + 2 ^ 32 - s.rd F.ctxRingStatus_HEAD k) % 2 ^ 32
    (Fn.reaches fn ctx.val = false → exec (.ringDoorbell fn ctx ring tail) s = .next s) ∧
    (s.serving = false → s.dev ≠ Dev.paused → exec (.ringDoorbell fn ctx ring tail) s = .next s) ∧
    (s.flag F.ctxRingCfg_ENABLE k = false → exec (.ringDoorbell fn ctx ring tail) s = .next s) ∧
    (Fn.reaches fn ctx.val = true → s.dev = Dev.paused ∨ s.serving = true ∧ s.remapHeld k = true → s.ctxEnabled ctx.val = true →
      s.flag F.ctxRingCfg_ENABLE k = true → s.parkedDeep = false → d ≤ 2 ^ s.rd F.ctxRingCfg_LOG2 k →
        leads (.ringDoorbell fn ctx ring tail) s (fun t => t.rd F.ctxRingStatus_TAIL k = tail.toNat ∧ t.mayFetch k = false ∧ t.rings = s.rings ∧
          (s.dev = Dev.paused → d ≠ 0 → d < 2 ^ 31 → s.ctxState ctx.val = Ctx.idle ∨ s.ctxState ctx.val = Ctx.active → s.flag F.ctxRingCtrl_STOPPED k = false →
            s.remapHeld k = false → (s.ring k).fetchFenced = false → (s.ring k).dispatchStalled = false →
            (∀ e, e ∈ t.recordDom k → t.domOn e = true) → (t.goto Dev.ready).mayFetch k = true ∧ (t.goto Dev.degraded).mayFetch k = true))) ∧
    (Fn.reaches fn ctx.val = true → s.serving = true → s.ctxEnabled ctx.val = true → s.flag F.ctxRingCfg_ENABLE k = true → s.parkedDeep = false →
      (d ≤ 2 ^ s.rd F.ctxRingCfg_LOG2 k →
        leads (.ringDoorbell fn ctx ring tail) s (fun t => t.rd F.ctxRingStatus_TAIL k = tail.toNat ∧
          t.rd F.ctxRingStatus_HEAD k = s.rd F.ctxRingStatus_HEAD k ∧ t.rings = s.rings ∧ t.mem = s.mem ∧
          keepsRegs s t [Reg.ctxRingStatus, Reg.pwrDomStatus])) ∧
      (2 ^ s.rd F.ctxRingCfg_LOG2 k < d → d < 2 ^ 31 → s.flag F.ctxRingCtrl_STOPPED k = false →
        leads (.ringDoorbell fn ctx ring tail) s (fun t => t.rd F.ctxRingCtrl_STOPPED k = 1 ∧ t.rd F.ctxRingCtrl_CAUSE k = StopCause.overrun ∧
          t.rd F.ctxRingStatus_TAIL k = s.rd F.ctxRingStatus_TAIL k ∧ t.rd F.ctxRingStatus_HEAD k = s.rd F.ctxRingStatus_HEAD k ∧
          t.rings = s.rings)))

/-- RECORD_FETCH (R581): a record read whole joins its ring, HEAD moves on by one, and the ring is not IDLE; one whose
CRC does not match stops the ring with cause CRC and is not taken. -/
def Obligations.RecordFetches : Prop :=
  ∀ (ctx : Fin 16) (ring : Fin 64) (s : State) (bytes : List Byte) (a : Acc),
    let k := ringKey ctx.val ring.val
    let head := s.rd F.ctxRingStatus_HEAD k
    s.mayFetch k = true →
    (uRead (s.recordVa k head) 64).run (s.acc ctx.val (Unit.die (s.fetchDie k)) (s.ring k).loan) = (bytes, a) →
    a.fault = none → a.lost = [] → a.s.ctxState ctx.val = Ctx.idle ∨ a.s.ctxState ctx.val = Ctx.active →
    (crc32c (bytes.take 56) = fieldAt bytes 56 0 32 → fieldAt bytes 40 0 5 = 0 →
      leads (.recordFetch ctx ring) s (fun t => t.rd F.ctxRingStatus_HEAD k = (head + 1) % 2 ^ 32 ∧ t.rd F.ctxRingCtrl_IDLE k = 0 ∧
        t.ctxState ctx.val = Ctx.active ∧ (t.ring k).cmds.length = (a.s.ring k).cmds.length + 1 ∧
        ∃ x, (t.ring k).cmds.getLast? = some x ∧ x.record = bytes ∧ x.count = head)) ∧
    (crc32c (bytes.take 56) ≠ fieldAt bytes 56 0 32 →
      leads (.recordFetch ctx ring) s (fun t => t.rd F.ctxRingCtrl_STOPPED k = 1 ∧ t.rd F.ctxRingCtrl_CAUSE k = StopCause.crc ∧
        t.rd F.ctxRingStatus_HEAD k = a.s.rd F.ctxRingStatus_HEAD k ∧ t.rings = a.s.rings))

/-- COMMAND_COMPLETE (R371, R372) of a command with no completion address: the command leaves its ring, and where it
signals a mapped bead that takes the addition, the bead's value has grown by its amount. -/
def Obligations.Completions : Prop :=
  ∀ (id : CmdId) (s : State) (x : Cmd), s.cmd id = some x → s.completes id.ctx.val = true → x.phase = .ended → x.loanOut = [] →
    (s.ring (CmdKey id)).complStall = none → x.complAddr = 0 →
    leads (.commandComplete id) s (fun t => (∀ y, y ∈ (t.ring (CmdKey id)).cmds → y.count ≠ x.count) ∧
      (x.atFetch = false → x.fmt = 4 → signals x.opcode x.status = true → x.signal / 65536 ≠ 0 →
        ∀ n, (s.vid id.ctx.val (x.signal % 65536)).1 = some n → s.addCheck n (x.signal / 65536) = .done →
          t.beadValue n = s.beadValue n + x.signal / 65536))

/-- Ring control (R579, R582): RING_ENABLE of a ring out of service puts it in service with HEAD and TAIL zero and its
tile set fixed; RING_DISABLE takes an IDLE ring out of service; RING_STOP stops fetch with cause HOST; RING_RESTART
clears the stop, and with SKIP passes over the record at HEAD. -/
def Obligations.RingControl : Prop :=
  ∀ (fn : Fn) (ctx : Fin 16) (ring : Fin 64) (s : State),
    let k := ringKey ctx.val ring.val
    (Fn.reaches fn ctx.val = false → ∀ (v : Word) (skip : Bool), exec (.ringEnable fn ctx ring v) s = .next s ∧
      exec (.ringDisable fn ctx ring) s = .next s ∧ exec (.ringStop fn ctx ring) s = .next s ∧
      exec (.ringRestart fn ctx ring skip) s = .next s) ∧
    (Fn.reaches fn ctx.val = true →
      (s.flag F.ctxRingCfg_ENABLE k = false → s.ctxEnabled ctx.val = true → ∀ v : Word,
        leads (.ringEnable fn ctx ring v) s (fun t => t.rd F.ctxRingCfg_ENABLE k = 1 ∧ t.rd F.ctxRingStatus_HEAD k = 0 ∧
          t.rd F.ctxRingStatus_TAIL k = 0 ∧ (t.ring k).eff = s.rd F.ctxRingTiles_MASK k &&& s.tilesPresent ∧
          t.rd F.ctxRingCfg_FMT k = bitsOf v.toNat 1 1 ∧
          t.rd F.ctxRingCfg_LOG2 k = (if 6 ≤ bitsOf v.toNat 2 5 ∧ bitsOf v.toNat 2 5 ≤ 16 then bitsOf v.toNat 2 5 else 6) ∧
          t.rd F.ctxRingCfg_COMPL_QUEUE k = bitsOf v.toNat 8 8 ∧ t.rd F.ctxRingCfg_VECTOR k = bitsOf v.toNat 16 6 ∧
          t.mem = s.mem ∧ keepsRegs s t [Reg.ctxRingCfg, Reg.ctxRingStatus])) ∧
      (s.flag F.ctxRingCfg_ENABLE k = true → s.flag F.ctxRingCtrl_IDLE k = true →
        leads (.ringDisable fn ctx ring) s (fun t => t.rd F.ctxRingCfg_ENABLE k = 0 ∧ t.rings = s.rings ∧ t.mem = s.mem ∧
          keepsRegs s t [Reg.ctxRingCfg])) ∧
      (s.flag F.ctxRingCtrl_STOPPED k = false →
        leads (.ringStop fn ctx ring) s (fun t => t.rd F.ctxRingCtrl_STOPPED k = 1 ∧ t.rd F.ctxRingCtrl_CAUSE k = StopCause.host ∧
          t.rd F.ctxRingStatus_HEAD k = s.rd F.ctxRingStatus_HEAD k ∧ t.rings = s.rings ∧ (s.quietQueues → t.mem = s.mem ∧ t.ecc = s.ecc))) ∧
      (s.flag F.ctxRingCtrl_STOPPED k = true → ∀ skip : Bool,
        leads (.ringRestart fn ctx ring skip) s (fun t => t.rd F.ctxRingCtrl_STOPPED k = 0 ∧ t.rd F.ctxRingCtrl_CAUSE k = 0 ∧
          t.rd F.ctxRingStatus_HEAD k = (if skip then (s.rd F.ctxRingStatus_HEAD k + 1) % 2 ^ 32 else s.rd F.ctxRingStatus_HEAD k) ∧
          t.rings = s.rings ∧ t.mem = s.mem ∧ keepsRegs s t [Reg.ctxRingCtrl, Reg.ctxRingStatus])))

/-- BEAD_WAIT_EXPIRY and PEG_WAIT_EXPIRY (R382, R383, R389): a wait that has lasted its timeout ends its command with
BEAD_TIMEOUT; for a bead the first expiry is kept in CTX_BEAD_LOG; where the context asks for it, the ring stops
with cause TIMEOUT. -/
def Obligations.WaitExpiries : Prop :=
  ∀ (c : Instr) (bead : Bool) (id : CmdId) (s : State) (x : Cmd), s.cmd id = some x →
    (bead = true ∧ c = .beadWaitExpiry id ∧ s.awaitsBead id.ctx.val x = true ∨ bead = false ∧ c = .pegWaitExpiry id ∧ s.awaitsPeg id.ctx.val x = true) →
    x.limit ≤ s.waited x → s.rd F.ctxRingCfg_LOG2 (CmdKey id) ≤ 16 →
    leads c s (fun t => (∃ y, t.cmd id = some y ∧ y.phase = .ended ∧ y.status = St.beadTimeout ∧ y.record = x.record) ∧
      t.rd F.ctxBeadLog_VALID id.ctx.val = (if bead then 1 else s.rd F.ctxBeadLog_VALID id.ctx.val) ∧
      (s.flag F.ctxBeadLog_VALID id.ctx.val = true → t.reg Reg.ctxBeadLog id.ctx.val = s.reg Reg.ctxBeadLog id.ctx.val) ∧
      (s.flag F.ctxBeadCfg_STOP_ON_TIMEOUT id.ctx.val = true → t.rd F.ctxRingCtrl_STOPPED (CmdKey id) = 1) ∧
      (s.flag F.ctxBeadCfg_STOP_ON_TIMEOUT id.ctx.val = false → t.rd F.ctxRingCtrl_STOPPED (CmdKey id) = s.rd F.ctxRingCtrl_STOPPED (CmdKey id)) ∧
      (s.quietQueues → t.mem = s.mem ∧ t.ecc = s.ecc) ∧ t.conns = s.conns)

/-! ### Beads and queues (chapters 11 and 12) -/

/-- HOST_BEAD_ADD (R364, R374): an addition that the bead takes changes that bead's value and no other register; a
refused one leaves every value; an amount of 0 has no effect. BEAD_ATTR_WRITE (R386, R390): a FREE bead takes every
attribute, and STATE ACTIVE; a bead that is not FREE keeps its attributes, and becomes FREE when it has no waiter.
BEAD_MAP_WRITE (R366, R391): PF0 writes the map of an IDLE or PREEMPTED context. -/
def Obligations.BeadsByHost : Prop :=
  (∀ (fn : Fn) (ctx : Fin 16) (vid : BitVec 14) (amount : BitVec 48) (s : State), Fn.reaches fn ctx.val = true →
     (amount = 0 → exec (.hostBeadAdd fn ctx vid amount) s = .next s) ∧
     (∀ n, amount ≠ 0 → (s.vid ctx.val vid.toNat).1 = some n →
       (s.addCheck n amount.toNat = .done →
         leads (.hostBeadAdd fn ctx vid amount) s (fun t => t.beadValue n = s.beadValue n + amount.toNat ∧
           (∀ m, m < 65536 → m ≠ n → t.beadValue m = s.beadValue m) ∧ t.mem = s.mem ∧ keepsRegs s t [Reg.beadValue])) ∧
       (s.addCheck n amount.toNat ≠ .done →
         leads (.hostBeadAdd fn ctx vid amount) s (fun t => (∀ m, m < 65536 → t.beadValue m = s.beadValue m) ∧ t.rings = s.rings)))) ∧
  ((∀ (n : BitVec 16) (v : Word) (s : State),
     leads (.beadAttrWrite n v) s (fun t =>
       (s.beadState n.toNat = BeadSt.free → bitsOf (t.reg Reg.beadAttr n.toNat).toNat 2 46 = bitsOf v.toNat 2 46 ∧
         t.beadState n.toNat = if bitsOf v.toNat 0 2 = BeadSt.active then BeadSt.active else BeadSt.free) ∧
       (s.beadState n.toNat ≠ BeadSt.free → bitsOf (t.reg Reg.beadAttr n.toNat).toNat 2 46 = bitsOf (s.reg Reg.beadAttr n.toNat).toNat 2 46 ∧
         t.beadState n.toNat = if bitsOf v.toNat 0 2 = BeadSt.free ∧ s.waiters n.toNat = 0 then BeadSt.free else s.beadState n.toNat) ∧
       (∀ m, m < 65536 → m ≠ n.toNat → t.reg Reg.beadAttr m = s.reg Reg.beadAttr m) ∧ t.mem = s.mem ∧ t.rings = s.rings ∧
       keepsRegs s t [Reg.beadAttr])) ∧
   (∀ (ctx : Fin 16) (v : Word) (s : State), s.ctxState ctx.val = Ctx.idle ∨ s.ctxState ctx.val = Ctx.preempted →
     leads (.beadMapWrite .pf0 ctx v) s (fun t => t.rd F.ctxBeadMap_VALID ctx.val = bitsOf v.toNat 0 1 ∧
       t.rd F.ctxBeadMap_ADDR ctx.val = bitsOf v.toNat 12 36 ∧ t.mem = s.mem ∧ t.rings = s.rings ∧ keepsRegs s t [Reg.ctxBeadMap])) ∧
   (∀ (k ctx : Fin 16) (v : Word) (s : State), exec (.beadMapWrite (.vf k) ctx v) s = .next s))

/-- QUEUE_FLUSH, QUEUE_SKIP and QUEUE_ENTRY_READ (R403, R409, R411): a flush empties the queue and counts nothing lost;
a skip frees the head packet; a read of word 3 gives its bytes, takes the entry, and frees the packet with its last
entry. Pointers of the queue that disagree at the update empty it instead (R407; log entry 20), after which a queue
of notices may hold the report. -/
def Obligations.QueueReads : Prop :=
  ∀ (fn : Fn) (q : Fin 256) (s : State),
    (s.queReach fn q.val = false → exec (.queueFlush fn q) s = .next s ∧ exec (.queueSkip fn q) s = .next s ∧
      exec (.queueEntryRead fn q) s = .next { s with rdata := 0 }) ∧
    (s.queReach fn q.val = true →
      leads (.queueFlush fn q) s (fun t => (t.que q.val).pkts = [] ∧ (t.que q.val).reading = none ∧ t.regs = s.regs ∧ t.mem = s.mem ∧
        (∀ p, p ≠ q.val → t.que p = s.que p)) ∧
      (∀ p, (s.que q.val).head = some p →
        leads (.queueSkip fn q) s (fun t => if Config.ptrMismatch s.nfree then 17 ≤ q.val → (t.que q.val).pkts = [] else
          (t.que q.val).pkts = (s.que q.val).pkts.filter (fun x => x.seq != p.seq) ∧ (t.que q.val).reading = none ∧ t.regs = s.regs ∧ t.mem = s.mem) ∧
        leads (.queueEntryRead fn q) s (fun t => t.rdata = leNat (slice (s.que q.val).entry 24 8) ∧
          if Config.ptrMismatch s.nfree then 17 ≤ q.val → (t.que q.val).pkts = [] else
          let n := (if (s.que q.val).reading = some p.seq then (s.que q.val).taken else 0) + 1
          t.regs = s.regs ∧ t.mem = s.mem ∧
          (p.ents.length ≤ n → (t.que q.val).pkts = (s.que q.val).pkts.filter (fun x => x.seq != p.seq) ∧ (t.que q.val).reading = none) ∧
          (n < p.ents.length → (t.que q.val).pkts = (s.que q.val).pkts ∧ (t.que q.val).reading = some p.seq ∧ (t.que q.val).taken = n))))

/-! ### The network (chapter 14) -/

/-- Ports and frames (R447 to R450). A link that is lost reads down and counts; one that comes up reads up. ARP,
neighbour and echo requests for the port's own address are answered on that port; a pause frame holds its priority
for its quanta of 512 bit times; a frame outside the subset is dropped and counted. On a port that is down nothing
happens. The time source (R451): a message of the source shows its offset and its port, begins ACQUIRING in a free-
running device, and is slewed against the offset by at most 200 ppm: device time itself never jumps. Without its
source the device is in HOLDOVER, on the reference clock alone. How far below 200 ppm the slew lies is the model's
free value (log entry 1). -/
def Obligations.PortsAndTime : Prop :=
  ((∀ (lp : Fin 24) (s : State), s.lpUp lp.val = true →
     leads (.linkLoss lp) s (fun t => t.lpUp lp.val = false ∧ (∀ l, l < 24 → l ≠ lp.val → t.lpUp l = s.lpUp l) ∧
       t.rd F.netPortStatus_DOWN_EVENTS (lp.val / 2) = satAdd F.netPortStatus_DOWN_EVENTS.width (s.rd F.netPortStatus_DOWN_EVENTS (lp.val / 2)) 1 ∧
       t.rings = s.rings ∧ keepsRegs s t (Reg.netPortStatus :: toldRegs))) ∧
   (∀ (lp : Fin 24) (s : State), s.netUp = true → s.portFitted (lp.val / 2) = true → s.lpSpeed lp.val ≠ 0 → s.lpUp lp.val = false →
     leads (.linkUp lp) s (fun t => t.lpUp lp.val = true ∧ (∀ l, l < 24 → l ≠ lp.val → t.lpUp l = s.lpUp l) ∧ t.conns = s.conns ∧
       t.rings = s.rings ∧ keepsRegs s t (Reg.netPortStatus :: toldRegs))) ∧
   (∀ (lp : Fin 24) (target senderIp : BitVec 32) (senderMac : BitVec 48) (s : State), s.lpUp lp.val = true →
     target.toNat ≠ 0 → target.toNat = s.lpIp4 lp.val →
     leads (.arpFrame lp true target senderIp senderMac) s (fun t => t.out = s.out ++ [.frame lp.val Eth.arp
       (natBE 2 1 ++ natBE 2 0x0800 ++ natBE 1 6 ++ natBE 1 4 ++ natBE 2 2 ++ natBE 6 (s.lpMac lp.val) ++ natBE 4 target.toNat ++
         natBE 6 senderMac.toNat ++ natBE 4 senderIp.toNat)] ∧ (false, senderIp.toNat, senderMac.toNat) ∈ t.net.neighbours ∧
       t.regs = s.regs ∧ t.mem = s.mem)) ∧
   (∀ (lp : Fin 24) (target senderIp : BitVec 128) (senderMac : BitVec 48) (s : State), s.lpUp lp.val = true →
     target.toNat ≠ 0 → target.toNat = s.lpIp6 lp.val →
     leads (.ndMessage lp true target senderIp senderMac) s (fun t => t.out = s.out ++ [.frame lp.val Eth.nd
       (natBE 16 target.toNat ++ natBE 6 (s.lpMac lp.val) ++ natBE 16 senderIp.toNat)] ∧
       (true, senderIp.toNat, senderMac.toNat) ∈ t.net.neighbours ∧ t.regs = s.regs ∧ t.mem = s.mem)) ∧
   (∀ (lp : Fin 24) (v6 : Bool) (dst src : BitVec 128) (payload : List Byte) (s : State), s.lpUp lp.val = true → dst.toNat ≠ 0 →
     dst.toNat = (if v6 then s.lpIp6 lp.val else s.lpIp4 lp.val) →
     leads (.icmpEcho lp v6 dst src payload) s (fun t => t.out = s.out ++ [.frame lp.val Eth.echo (natBE 16 src.toNat ++ payload)] ∧
       t.regs = s.regs ∧ t.mem = s.mem)) ∧
   (∀ (lp : Fin 24) (prio : Fin 8) (quanta : BitVec 16) (s : State), s.lpUp lp.val = true →
     (s.rd F.netPortCfg_PFC_EN (lp.val / 2)).testBit prio.val = true → s.lpSpeed lp.val ≠ 0 →
     leads (.pfcPauseFrame lp prio quanta) s (fun t =>
       look t.net.pauses (8 * lp.val + prio.val) = some (s.ivl + quanta.toNat * 512 / s.lpSpeed lp.val) ∧
       (∀ k, k ≠ 8 * lp.val + prio.val → look t.net.pauses k = look s.net.pauses k) ∧ t.regs = s.regs ∧ t.mem = s.mem ∧ t.out = s.out)) ∧
   (∀ (lp : Fin 24) (why : FrameFault) (s : State), s.lpUp lp.val = true →
     leads (.frameOutsideSubset lp why) s (fun t =>
       t.rd F.netPortStatus_DROPPED (lp.val / 2) = satAdd F.netPortStatus_DROPPED.width (s.rd F.netPortStatus_DROPPED (lp.val / 2)) 1 ∧
       (∀ l, l < 24 → t.lpUp l = s.lpUp l) ∧ t.mem = s.mem ∧ t.conns = s.conns ∧ t.out = s.out ∧ keepsRegs s t [Reg.netPortStatus])) ∧
   (∀ (lp : Fin 24) (s : State), s.lpUp lp.val = false →
     exec (.linkLoss lp) s = .next s ∧ (∀ a b m, exec (.arpFrame lp true a b m) s = .next s) ∧ (∀ a b m, exec (.ndMessage lp true a b m) s = .next s) ∧
     (∀ v a b p, exec (.icmpEcho lp v a b p) s = .next s) ∧ (∀ p q, exec (.pfcPauseFrame lp p q) s = .next s) ∧
     ∀ w, exec (.frameOutsideSubset lp w) s = .next s)) ∧
  ((∀ (lp : Fin 24) (offset : BitVec 32) (s : State), s.ptpPort lp.val = true →
     (s.rd F.netPtpStatus_STATE = Ptp.locked → s.rd F.netPtpStatus_SOURCE = lp.val) →
     leads (.ptpMessage lp offset) s (fun t => t.rd F.netPtpStatus_OFFSET_NS = offset.toNat ∧ t.rd F.netPtpStatus_SOURCE = lp.val ∧
       t.rd F.netPtpStatus_STATE = (if s.rd F.netPtpStatus_STATE = Ptp.freeRun then Ptp.acquiring else s.rd F.netPtpStatus_STATE) ∧
       { t.clk with slew := s.clk.slew } = s.clk ∧ t.clk.slew.natAbs ≤ 200000 ∧ t.clk.slew * offset.toInt ≤ 0 ∧
       t.rings = s.rings ∧ t.conns = s.conns ∧
       keepsRegs s t (Reg.netPtpStatus :: toldRegs))) ∧
   (∀ s : State, s.rd F.netPtpStatus_STATE = Ptp.acquiring ∨ s.rd F.netPtpStatus_STATE = Ptp.locked →
     leads .ptpSourceLoss s (fun t => t.rd F.netPtpStatus_STATE = Ptp.holdover ∧ t.clk.slew = 0 ∧ { t.clk with slew := s.clk.slew } = s.clk ∧
       t.rings = s.rings ∧ t.conns = s.conns ∧
       keepsRegs s t (Reg.netPtpStatus :: toldRegs))))

/-- CONN_OPEN (R453): a RoCE connection is OPEN at once; a GCT connection is OPENING, and the peer hears CAPS. A
function that may not act on the connection changes nothing. CONN_TABLE_WRITE (R452): the table is named only while
every connection is CLOSED. GCT_CAPS and OPEN_TIMEOUT (R453, R455): an opening that the peer's CAPS fits takes the
peer's epoch and hears from it; CAPS of the same epoch on an open connection is only heard; one that fits no
connection changes nothing. An opening that lasts a second fails. -/
def Obligations.ConnectionSetup : Prop :=
  ((∀ (fn : Fn) (conn : Fin 4096) (s : State), s.connReach fn conn.val = false →
     exec (.connOpen fn conn) s = .next s ∧ exec (.connClose fn conn) s = .next s) ∧
   (∀ (fn : Fn) (conn : Fin 4096) (s : State), s.connReach fn conn.val = true → s.entryHeld conn.val → s.dom 2 ≠ Dom.off → s.dev ≠ Dev.cfgHold →
     s.connState conn.val ≠ ConnSt.opening → s.connState conn.val ≠ ConnSt.opened →
     (s.connKind conn.val = Kind.roce →
       leads (.connOpen fn conn) s (fun t => t.connState conn.val = ConnSt.opened ∧ t.connKind conn.val = Kind.roce ∧ look t.conns conn.val = some {} ∧
         t.rings = s.rings ∧ t.out = s.out ∧ keepsRegs s t toldRegs)) ∧
     (s.connKind conn.val = Kind.gct → s.dutyHeld 2 = false → s.upPorts ≠ [] →
       leads (.connOpen fn conn) s (fun t => t.connState conn.val = ConnSt.opening ∧ (t.conn conn.val).openedAt = s.ivl ∧
         t.out = s.out ++ [.gct conn.val (t.capsMsg conn.val)] ∧ t.rings = s.rings ∧ keepsRegs s t toldRegs))) ∧
   (∀ (v : Word) (s : State), s.allClosed = false → exec (.connTableWrite v) s = .next s) ∧
   (∀ (v : Word) (s : State), s.allClosed = true →
     leads (.connTableWrite v) s (fun t => t.rd F.netConnTable_ADDR = bitsOf v.toNat 12 36 ∧ t.conns = [] ∧ t.rings = s.rings ∧
       keepsRegs s t (Reg.netConnTable :: toldRegs)))) ∧
  (∀ (conn : Fin 4096) (caps : Caps) (s : State), s.netUp = true →
     (s.capsFits conn.val caps = false → exec (.gctCaps conn caps) s = .next s) ∧
     (s.capsFits conn.val caps = true →
       (s.connState conn.val = ConnSt.opened → caps.epoch.toNat = (s.conn conn.val).peerEpoch →
         exec (.gctCaps conn caps) s = .next (s.setConn conn.val { s.conn conn.val with heardAt := s.ivl })) ∧
       (s.connState conn.val = ConnSt.opening → s.dutyHeld 2 = false → s.entryHeld conn.val → s.quietQueues →
         (s.agreed (caps.ranges.map (·.toNat))).headD 0 ≠ 0 →
         (∀ e x, e ∈ s.rings → x ∈ e.2.cmds → x.heldOnConn = false) →
         leads (.gctCaps conn caps) s (fun t => t.connState conn.val = ConnSt.opened ∧
           (∀ i, i < 6 → t.connVer conn.val i = (s.agreed (caps.ranges.map (·.toNat))).getD i 0) ∧
           (t.conn conn.val).peerEpoch = caps.epoch.toNat ∧ (t.conn conn.val).heardAt = s.ivl ∧
           keepsRegs s t toldRegs))) ∧
     (s.gctOpening conn.val = true → s.ivl < (s.conn conn.val).openedAt + 1000000000 → exec (.openTimeout conn) s = .next s))

/-- The end of a connection on which no command, no window and no grant stands (R453, R455, R460): its entry holds the
state that the end leaves, what the device kept of it is gone, the peer's waits with it, and every group that it
belongs to is BROKEN. -/
def Obligations.ConnectionEnds : Prop :=
  ∀ (c : Instr) (n : Fin 4096) (s : State) (st : Nat), endOf n s c = some st → s.entryHeld n.val → s.quietQueues →
    s.connCmds n.val = [] → (∀ w, w < 16 → s.rd F.netLoanWin_CONN w ≠ n.val) → (∀ g, g ∈ s.grants → g.conn ≠ n.val) →
    leads c s (fun t => t.connState n.val = st ∧ look t.conns n.val = none ∧ (∀ m, m ≠ n.val → look t.conns m = look s.conns m) ∧
      t.rwaits = s.rwaits.filter (fun w => w.conn != n.val) ∧
      t.groups = s.groups.map (fun g => if g.conns.contains n.val then { g with phase := 2 } else g) ∧
      t.rings = s.rings ∧ t.grants = s.grants ∧ keepsRegs s t toldRegs)

/-- The timers of a connection and its acknowledgements (R450, R453 to R456). CAPS goes out while the connection opens,
a keepalive where nothing was sent for 1 ms; an acknowledged packet is retired; a packet that is not acknowledged is
sent again and its interval doubles; the rate is cut by half the marked fraction, or recovers by 1 %; HOLD extends
the loss clocks. -/
def Obligations.ConnectionTimers : Prop :=
  (∀ (conn : Fin 4096) (s : State), s.netUp = true → (s.conn conn.val).sentAt + 1000000 ≤ s.ivl → s.upPorts ≠ [] →
    (s.gctOpening conn.val = true → s.dutyHeld 2 = false →
      leads (.capsTimer conn) s (fun t => t.out = s.out ++ [.gct conn.val (s.capsMsg conn.val)] ∧ t.conn conn.val = { s.conn conn.val with sentAt := s.ivl } ∧
        t.regs = s.regs ∧ t.mem = s.mem ∧ t.rings = s.rings)) ∧
    (s.gctOpen conn.val = true →
      leads (.keepaliveTimer conn) s (fun t => t.out = s.out ++ [.gct conn.val .keepalive] ∧ t.conn conn.val = { s.conn conn.val with sentAt := s.ivl } ∧
        t.regs = s.regs ∧ t.mem = s.mem ∧ t.rings = s.rings))) ∧
  (∀ (conn : Fin 4096) (upto : BitVec 32) (sel : List (BitVec 32)) (ce : Bool) (s : State), s.netUp = true → s.gctOpen conn.val = true →
    leads (.gctAck conn upto sel ce) s (fun t =>
      (t.conn conn.val).unacked = (s.conn conn.val).unacked.filter (fun u => seqBefore upto.toNat u.seq && !(sel.map (·.toNat)).contains u.seq) ∧
      (t.conn conn.val).heardAt = s.ivl ∧ (t.conn conn.val).nextSeq = (s.conn conn.val).nextSeq ∧ t.regs = s.regs ∧ t.mem = s.mem ∧
      t.rings = s.rings ∧ t.out = s.out)) ∧
  (∀ (conn : Fin 4096) (seq : BitVec 32) (s : State) (u : Unacked), s.netUp = true → s.gctOpen conn.val = true →
    u ∈ (s.conn conn.val).unacked → u.seq = seq.toNat → u.sentAt + u.interval ≤ s.ivl →
    (∀ w, w ∈ (s.conn conn.val).unacked → w.seq = seq.toNat → w = u) →
    leads (.gctResendTimer conn seq) s (fun t => (t.conn conn.val).unacked.map (fun w => (w.seq, w.msg)) = (s.conn conn.val).unacked.map (fun w => (w.seq, w.msg)) ∧
      (∃ w, w ∈ (t.conn conn.val).unacked ∧ w.seq = seq.toNat ∧ w.interval = 2 * u.interval ∧ w.sentAt = s.ivl ∧ w.firstAt = u.firstAt) ∧
      (s.portFor conn.val (seq.toNat + 1) ≠ none → t.out = s.out ++ [.gct conn.val u.msg]) ∧ t.regs = s.regs ∧ t.mem = s.mem ∧ t.rings = s.rings)) ∧
  (∀ (conn : Fin 4096) (s : State), s.netUp = true → s.gctOpen conn.val = true →
    leads (.ecnRecoveryTimer conn) s (fun t => (t.conn conn.val).rate =
        (if (s.conn conn.val).marked = 0 then min 1000000 ((s.conn conn.val).rate + 10000)
         else (s.conn conn.val).rate - (s.conn conn.val).rate * (s.conn conn.val).marked / (2 * (s.conn conn.val).acked)) ∧
      (t.conn conn.val).marked = 0 ∧ (t.conn conn.val).acked = 0 ∧ t.regs = s.regs ∧ t.mem = s.mem ∧ t.rings = s.rings)) ∧
  (∀ (hdr : GctHdr) (ns : Word) (s r : State), s.netUp = true → s.receive hdr false = some r → 2 ≤ s.connVer hdr.conn.val 0 →
    leads (.gctHold hdr ns) s (fun t => t.conn hdr.conn.val = { r.conn hdr.conn.val with hold := ns.toNat, holdEnd := s.ivl + ns.toNat } ∧
      t.out = r.out ∧ t.regs = s.regs ∧ t.mem = s.mem ∧ t.rings = s.rings))

/-- A packet is applied once (R454, R458): when a packet has been taken, the same header is not taken again, in the
state that taking it left; and a packet that carries an epoch other than the connection's is not taken. -/
def Obligations.PacketOnce : Prop :=
  (∀ (h : GctHdr) (o o' : Bool) (s r : State), s.receive h o = some r → r.receive h o' = none) ∧
  (∀ (h : GctHdr) (o : Bool) (s : State), (h.dstEpoch.toNat ≠ s.connEpoch h.conn.val ∨ h.srcEpoch.toNat ≠ (s.conn h.conn.val).peerEpoch) →
    s.receive h o = none)

/-- RoCE requests (R450, R452): atomics are answered invalid; an access with another rkey, or outside the window, is
answered an access error and does nothing; one that its window takes is answered with its bytes. -/
def Obligations.RoceRequests : Prop :=
  ∀ (conn : Fin 4096) (s : State), s.netServes = true → s.roceOpen conn.val = true →
    exec (.roceAtomic conn) s = .next (s.emit (.roce conn.val Roce.invalidNak [])) ∧
    (∀ (rkey : BitVec 32) (va : Word) (bytes : List Byte),
      (rkey.toNat ≠ s.connRkey conn.val ∨ s.inWindow conn.val 1 va.toNat bytes.length = false →
        exec (.roceRdmaWrite conn rkey va bytes) s = .next (s.emit (.roce conn.val Roce.accessNak []))) ∧
      (rkey.toNat = s.connRkey conn.val → s.inWindow conn.val 1 va.toNat bytes.length = true → ∀ b r,
        State.winAccess (s.connCtx conn.val) va.toNat bytes.length (some bytes) (winFuel bytes.length) s [] [] = (.done b, r) →
        leads (.roceRdmaWrite conn rkey va bytes) s (fun t => t.out = r.out ++ [.roce conn.val Roce.ack b] ∧ t.mem = r.mem ∧ t.regs = r.regs))) ∧
    (∀ (rkey len : BitVec 32) (va : Word),
      (rkey.toNat ≠ s.connRkey conn.val ∨ s.inWindow conn.val 2 va.toNat len.toNat = false →
        exec (.roceRdmaRead conn rkey va len) s = .next (s.emit (.roce conn.val Roce.accessNak []))) ∧
      (rkey.toNat = s.connRkey conn.val → s.inWindow conn.val 2 va.toNat len.toNat = true → ∀ b r,
        State.winAccess (s.connCtx conn.val) va.toNat len.toNat none (winFuel len.toNat) s [] [] = (.done b, r) →
        leads (.roceRdmaRead conn rkey va len) s (fun t => t.out = r.out ++ [.roce conn.val Roce.response b] ∧ t.mem = r.mem ∧ t.regs = r.regs))) ∧
    (∀ bytes : List Byte,
      (s.connMay conn.val 3 = false ∨ s.connBytes conn.val < bytes.length →
        exec (.roceSend conn bytes) s = .next (s.emit (.roce conn.val Roce.accessNak []))) ∧
      (s.connMay conn.val 3 = true → bytes.length ≤ s.connBytes conn.val → ∀ b1 b2 r1 r2,
        let off := (s.conn conn.val).rxOff
        let first := min bytes.length (s.connBytes conn.val - off)
        State.winAccess (s.connCtx conn.val) (s.connBase conn.val + off) first (some (bytes.take first)) (winFuel first) s [] [] = (.done b1, r1) →
        State.winAccess (s.connCtx conn.val) (r1.connBase conn.val) (bytes.length - first) (some (bytes.drop first)) (winFuel bytes.length) r1 [] [] = (.done b2, r2) →
        leads (.roceSend conn bytes) s (fun t => t.out.getLast? = some (.roce conn.val Roce.ack []) ∧
          (r2.connRxQueue conn.val < 17 → t.out = r2.out ++ [.roce conn.val Roce.ack []] ∧ t.regs = r2.regs ∧ t.mem = r2.mem))))

/-- REMOTE_BEAD_REQUEST (R379): the packet is applied once it has been received; without the right the answer is a
refusal and no bead changes; an addition that the bead takes changes that bead alone and is answered; READ is
answered with the value; a WAIT_GE that is not met is accepted and kept. -/
def Obligations.PeerBeadRequests : Prop :=
  ∀ (hdr : GctHdr) (req : BitVec 32) (op : BitVec 2) (vid : BitVec 16) (v : Word) (s r : State), s.netServes = true →
    s.receive hdr true = some r →
    let c := hdr.conn.val
    let p := r.vid (r.connCtx c) vid.toNat
    let may := r.connMay c 4 && (if op.toNat = 0 then p.2.testBit 17 else op.toNat < 3 && p.2.testBit 18)
    (p.1 = none ∨ may = false → exec (.remoteBeadRequest hdr req op vid v) s = .next (r.sendGct c (.beadReply req.toNat .refused 0))) ∧
    (∀ n, p.1 = some n → may = true →
      let u := r.keepVid (r.connCtx c) vid.toNat
      (r.beadDead n = true → exec (.remoteBeadRequest hdr req op vid v) s = .next (u.sendGct c (.beadReply req.toNat .broken 0))) ∧
      (op = 0 → r.addCheck n v.toNat = .done →
        leads (.remoteBeadRequest hdr req op vid v) s (fun t => t.beadValue n = r.beadValue n + v.toNat ∧
          (∀ m, m < 65536 → m ≠ n → t.beadValue m = r.beadValue m) ∧ t.mem = r.mem ∧ keepsRegs r t [Reg.beadValue])) ∧
      (op = 2 → r.beadDead n = false →
        exec (.remoteBeadRequest hdr req op vid v) s = .next (u.sendGct c (.beadReply req.toNat .value (r.beadValue n)))) ∧
      (op = 1 → r.beadDead n = false →
        (v.toNat ≤ r.beadValue n → exec (.remoteBeadRequest hdr req op vid v) s = .next (u.sendGct c (.beadReply req.toNat .met (r.beadValue n)))) ∧
        (r.beadValue n < v.toNat → leads (.remoteBeadRequest hdr req op vid v) s (fun t => t.regs = r.regs ∧ t.mem = r.mem ∧
          t.rwaits.map (fun w => (w.conn, w.req, w.phys, w.target)) =
            r.rwaits.map (fun w => (w.conn, w.req, w.phys, w.target)) ++ [(c, req.toNat, n, v.toNat)]))))

/-- The replies that a REMOTE_BEAD waits for (R379, R380), a doorbell of a job controller (R580), and the wait for a
connection (R620). An addition that is done ends its command OK, a refusal ends it with the refusal's status; the
suspension of the remote bead is kept with the command; a controller without the right rings nothing. A transfer of
a peer (R454, R467): outside the window, or without the right to the bead, it is refused and changes nothing but the
connection's own record; a transfer that its window takes is answered, and one that carries an addition which the
bead takes adds it. -/
def Obligations.PeerRepliesAndTransfers : Prop :=
  ((∀ (hdr : GctHdr) (req : BitVec 32) (kind : BeadReply) (value : Word) (s r : State) (k : Nat) (x : Cmd), s.netUp = true →
     s.receive hdr true = some r → r.waiterOf hdr.conn.val req.toNat = some (k, x) → x.opcode = 0x0071 → r.cmdAt k x.count = some x →
     x.lost = [] → x.dataLoss = false → x.seeds = [] → x.fatal = none →
     (kind = .done → fieldAt x.desc 0 0 2 = 0 →
       leads (.remoteBeadReply hdr req kind value) s (fun t => (∃ y, t.cmdAt k x.count = some y ∧ y.phase = .ended ∧ y.status = St.ok ∧ y.record = x.record) ∧
         t.regs = r.regs ∧ t.mem = r.mem)) ∧
     (∀ st, replyFailure kind = some st →
       leads (.remoteBeadReply hdr req kind value) s (fun t => (∃ y, t.cmdAt k x.count = some y ∧ y.phase = .ended ∧ y.status = st ∧ y.record = x.record) ∧
         t.regs = r.regs ∧ t.mem = r.mem))) ∧
   (∀ (hdr : GctHdr) (req : BitVec 32) (starts : Bool) (value : Word) (s r : State) (k : Nat) (x : Cmd), s.netUp = true →
     s.receive hdr true = some r → r.waiterOf hdr.conn.val req.toNat = some (k, x) → x.opcode = 0x0071 → r.cmdAt k x.count = some x →
     leads (.remoteSuspendMessage hdr req starts value) s (fun t =>
       (∃ y, t.cmdAt k x.count = some y ∧ y.aux = [x.aux.getD 0 0, x.aux.getD 1 0, value.toNat, b2n starts] ∧ y.phase = x.phase ∧ (y.armed = true → y.since ≠ none → starts = false)) ∧
       t.regs = r.regs ∧ t.mem = r.mem)) ∧
   (∀ (hdr : GctHdr) (ctx : Fin 16) (ring : Fin 64) (tail : BitVec 32) (s r : State) (n : Nat), s.fromController hdr = some (n, r) →
     let k := ringKey ctx.val ring.val
     ((r.ctrlRights n).testBit ctx.val = false → exec (.gctDoorbell hdr ctx ring tail) s = .next r) ∧
     ((r.ctrlRights n).testBit ctx.val = true → r.serving = true → r.ctxEnabled ctx.val = true → r.flag F.ctxRingCfg_ENABLE k = true →
       r.parkedDeep = false → (tail.toNat + 2 ^ 32 - r.rd F.ctxRingStatus_HEAD k) % 2 ^ 32 ≤ 2 ^ r.rd F.ctxRingCfg_LOG2 k →
       leads (.gctDoorbell hdr ctx ring tail) s (fun t => t.rd F.ctxRingStatus_TAIL k = tail.toNat ∧
         t.rd F.ctxRingStatus_HEAD k = r.rd F.ctxRingStatus_HEAD k ∧ t.rings = r.rings ∧ t.mem = r.mem ∧
         keepsRegs r t [Reg.ctxRingStatus, Reg.pwrDomStatus]))) ∧
   (∀ (id : CmdId) (s : State) (x : Cmd), s.cmd id = some x → x.heldOnConn = true →
     (s.timedOut x = false → exec (.connWaitTimeout id) s = .next s) ∧
     (s.timedOut x = true → x.opcode ≠ 0x0072 → x.lost = [] → x.seeds = [] →
       leads (.connWaitTimeout id) s (fun t => (∃ y, t.cmd id = some y ∧ y.phase = .ended ∧ y.status = x.fatal.getD St.peerLost ∧ y.record = x.record) ∧
         t.regs = s.regs ∧ t.mem = s.mem)))) ∧
  (∀ (hdr : GctHdr) (req : BitVec 32) (addr : Word) (vid add : BitVec 16) (bytes : List Byte) (s r : State), s.netServes = true →
     s.receive hdr (add != 0) = some r →
     let c := hdr.conn.val
     let p := r.vid (r.connCtx c) vid.toNat
     (r.inWindow c 0 addr.toNat bytes.length = false →
       exec (.gctTransferData hdr req addr vid add bytes) s = .next (r.sendGct c (.beadReply req.toNat .refused 0))) ∧
     (add ≠ 0 → (p.1 = none ∨ p.2.testBit 17 = false) →
       exec (.gctTransferData hdr req addr vid add bytes) s = .next (r.sendGct c (.beadReply req.toNat .refused 0))) ∧
     (add = 0 → r.inWindow c 0 addr.toNat bytes.length = true → ∀ b q,
       State.winAccess (r.connCtx c) addr.toNat bytes.length (some bytes) (winFuel bytes.length) r [] [] = (.done b, q) →
       exec (.gctTransferData hdr req addr vid add bytes) s = .next (q.sendGct c (.beadReply req.toNat .done 0))) ∧
     (∀ n, add ≠ 0 → p.1 = some n → p.2.testBit 17 = true → r.addCheck n add.toNat = .done → r.inWindow c 0 addr.toNat bytes.length = true → ∀ b q,
       State.winAccess (r.connCtx c) addr.toNat bytes.length (some bytes) (winFuel bytes.length) r [] [] = (.done b, q) → q.addCheck n add.toNat = .done →
       leads (.gctTransferData hdr req addr vid add bytes) s (fun t => t.beadValue n = q.beadValue n + add.toNat ∧ t.mem = q.mem ∧ keepsRegs q t [Reg.beadValue])))

/-- What a group hears from its members (R460, R463, R465, R466). A JOIN for a group that does not form here is kept;
the LEAVE of a member breaks the group; a signature and a member's data are appended to those of the group, in the
order of arrival, for the collective that takes them; a collective that has run out of time breaks its group, and a
TRANSFER ends PEER_LOST. -/
def Obligations.GroupMessages : Prop :=
  (∀ (hdr : GctHdr) (group n index : BitVec 16) (max : BitVec 4) (s r : State), s.netUp = true → s.receive hdr true = some r →
    (∀ g, r.group (r.connCtx hdr.conn.val) group.toNat = some g → g.phase ≠ 0) →
    leads (.gctJoin hdr group n index max) s (fun t => t.net.joins = r.net.joins ++ [(hdr.conn.val, group.toNat, n.toNat, index.toNat, max.toNat)] ∧
      t.groups = r.groups ∧ t.regs = r.regs ∧ t.rings = r.rings ∧ t.mem = r.mem)) ∧
  (∀ (hdr : GctHdr) (group : BitVec 16) (s r : State) (g : Group), s.netUp = true → s.receive hdr true = some r →
    r.group (r.connCtx hdr.conn.val) group.toNat = some g → hdr.conn.val ∈ g.conns → r.groupCmds g.ctx g.id = [] →
    leads (.gctLeave hdr group) s (fun t => (∃ h, t.group g.ctx g.id = some h ∧ h.phase = 2 ∧ h.conns = g.conns ∧ h.sigs = [] ∧ h.parts = []) ∧
      (∀ h, h ∈ r.groups → ¬(h.ctx = g.ctx ∧ h.id = g.id) → h ∈ t.groups) ∧ t.regs = r.regs ∧ t.rings = r.rings ∧ t.mem = r.mem)) ∧
  (∀ (hdr : GctHdr) (group : BitVec 16) (seq : BitVec 32) (s r : State) (g : Group) (j : Nat), s.netUp = true → s.receive hdr true = some r →
    r.memberOf hdr.conn.val group.toNat = some (g, j) → r.collCmd g.ctx g.id seq.toNat = none →
    (∀ sig, leads (.gctCollSignature hdr group seq sig) s (fun t =>
      t.group g.ctx g.id = some { g with sigs := g.sigs ++ [(seq.toNat, j, sig)] } ∧ t.regs = r.regs ∧ t.rings = r.rings ∧ t.mem = r.mem)) ∧
    (∀ bytes lost flags, leads (.gctCollectiveData hdr group seq bytes lost flags) s (fun t =>
      t.group g.ctx g.id = some { g with parts := g.parts ++ [{ seq := seq.toNat, member := j, bytes := bytes, lost := lost, flags := flags.toNat }] } ∧
      t.regs = r.regs ∧ t.rings = r.rings ∧ t.mem = r.mem))) ∧
  (∀ (id : CmdId) (s : State) (x : Cmd) (g : Group), s.cmd id = some x → x.opcode = 0x0070 → fieldAt x.desc 1 0 4 ≠ 5 →
    (x.phase = .waiting ∨ x.phase = .stalled) → x.aux ≠ [] → s.timedOut x = true → s.group id.ctx.val x.collGroup = some g →
    leads (.collectiveTimeout id) s (fun t => ∃ h, t.group id.ctx.val x.collGroup = some h ∧ h.phase = 2 ∧ h.conns = g.conns)) ∧
  (∀ (id : CmdId) (s : State) (x : Cmd), s.cmd id = some x → x.opcode = 0x0070 → fieldAt x.desc 1 0 4 = 5 →
    (x.phase = .waiting ∨ x.phase = .stalled) → x.aux ≠ [] → s.timedOut x = true → x.lost = [] → x.seeds = [] →
    leads (.collectiveTimeout id) s (fun t => (∃ y, t.cmd id = some y ∧ y.phase = .ended ∧ y.status = x.fatal.getD St.peerLost) ∧
      t.groups = s.groups ∧ t.regs = s.regs ∧ t.mem = s.mem)) ∧
  (∀ (id : CmdId) (s : State) (x : Cmd), s.cmd id = some x → s.timedOut x = false → exec (.collectiveTimeout id) s = .next s)

/-- The messages of step commit (R269, R270, R273). A query of the current round or of an earlier one is answered with
the round of the record, this member's decision and READY bits, one of a later round with neither. A first proposal
is kept as the decision, and a second does not replace it; a proposal or a READY of a later round makes that round
current. A READY that the record holds already adds nothing; a READY of an earlier round is counted late; in doubt,
a READY for a later round decides the round in doubt. A reply is kept with the command that asked. A message that
meets a held record is not acknowledged (log entry 130). The clocks of STEP_COMMIT (R270, R271): when the wait for
READY has run out the member asks; when a query or a proposal ends without a decision, and without a quorum that
holds one, the member is IN_DOUBT of its round and its command completes PEER_LOST. -/
def Obligations.StepCommitProtocol : Prop :=
  (∀ (hdr : GctHdr) (m : StepMsg) (s r : State) (c j : Nat) (g : Group), s.stepServes = true →
     s.receive hdr true = some r → s.stepFrom hdr.conn.val m = some (c, g, j) →
     let n := hdr.conn.val
     let t := msgRound m
     (∀ i, i = .gctQuery hdr m ∨ i = .gctReady hdr m ∨ i = .gctPropose hdr m ∨ i = .gctCommitReply hdr m →
       (s.recHeld c).1 = true → exec i s = .next (s.recHeld c).2) ∧
     ((s.recHeld c).1 = false → ∀ rec q, r.stepRec c = (some rec, q) →
       let now := recRound rec
       let later := laterRound t now
       (later = false → exec (.gctQuery hdr m) s = .next (q.sendGct n (.step Step.reply (stepMsg g now (recDecision rec) (recReady rec))))) ∧
       (later = true → exec (.gctQuery hdr m) s = .next (q.sendGct n (.step Step.reply (stepMsg g t 0 0)))) ∧
       (m.decision = 1 ∨ m.decision = 2 →
         (t = now → recDecision rec = 0 → exec (.gctPropose hdr m) s = .next ((q.putDecision c m.decision.toNat false).stepReply c n g t)) ∧
         (t = now → recDecision rec ≠ 0 → exec (.gctPropose hdr m) s = .next (q.stepReply c n g t)) ∧
         (later = true → exec (.gctPropose hdr m) s = .next (((q.newRound c t).putDecision c m.decision.toNat false).stepReply c n g t))) ∧
       (m.decision = 0 ∨ m.decision = 3 → exec (.gctPropose hdr m) s = .next r) ∧
       ((r.ctx c).doubt = none →
         (t = now → (recReady rec).testBit j = true → exec (.gctReady hdr m) s = .next (q.stepGo c)) ∧
         (later = true → ∀ rec2 q2, (q.newRound c t).stepRec c = (some rec2, q2) →
           exec (.gctReady hdr m) s = .next ((q2.takeReady c j rec2).stepGo c)) ∧
         (t ≠ now → later = false →
           leads (.gctReady hdr m) s (fun u => (u.ctx c).late = (q.ctx c).late + 1 ∧ (∀ d, d ≠ c → u.ctx d = q.ctx d) ∧ u.rings = q.rings ∧
             keepsRegs q u toldRegs)))) ∧
     ((s.recHeld c).1 = false → ∀ old, (r.ctx c).doubt = some old → r.inDoubt c = true → laterRound t old = true →
       r.stepCmd c (fun x => x.stepStage == 0) = none →
       leads (.gctReady hdr m) s (fun u => Config.crossFails r.nfree = false → u.rd F.ctxVersion_CURRENT c =
         (if t.1 = old.1 then r.rd F.ctxVersion_CURRENT c else old.1 % 2 ^ F.ctxVersion_CURRENT.width) ∧ u.rd F.ctxStepState_STATE c = 0)) ∧
     ((s.recHeld c).1 = false → ∀ k x, r.stepCmd c (fun x => (x.stepStage == 1 || (x.stepStage == 2 && m.decision != 0)) && stepRound x == msgRound m) = some (k, x) →
       r.cmdAt k x.count = some x → r.ctxHeld c = true →
       leads (.gctCommitReply hdr m) s (fun u =>
         u.cmdAt k x.count = some { x with parts := put x.parts (2000 * x.stepStage + j) [m.decision.toNat, m.ready.toNat] } ∧ u.regs = r.regs ∧ u.mem = r.mem))) ∧
  ((∀ (ctx : Fin 16) (s : State) (k : Nat) (x : Cmd) (g : Group), s.stepCmd ctx.val (fun x => x.stepStage == 0 && s.timedOut x) = some (k, x) →
     s.stepGroup ctx.val = some g → s.ctxHeld ctx.val = false → s.cmdAt k x.count = some x →
     (stepReplies x 1 g.conns.length).length + 1 < g.conns.length → k / 64 = ctx.val →
     leads (.commitReadyTimeout ctx) s (fun t => t.rd F.ctxStepState_STATE ctx.val = 2 ∧
       t.cmdAt k x.count = some { x with phase := .waiting, aux := stepAux 1 s.ivl } ∧ t.mem = s.mem ∧ keepsRegs s t [Reg.ctxStepState])) ∧
   (∀ (ctx : Fin 16) (s q : State) (k : Nat) (x : Cmd) (g : Group) (rec : List Byte),
     s.stepCmd ctx.val (fun x => x.stepStage != 0 && decide (s.ivl - x.aux.getD 2 0 ≥ stepWindow)) = some (k, x) →
     s.stepGroup ctx.val = some g → s.ctxHeld ctx.val = false → k / 64 = ctx.val → (s.recHeld ctx.val).1 = false →
     s.stepRec ctx.val = (some rec, q) → q.cmdAt k x.count = some x →
     recRound rec = stepRound x → recApplied rec = false → x.lost = [] → x.seeds = [] →
     (x.stepStage = 1 ∧ stepWant rec g (stepReplies x 1 g.conns.length) = Dec.none ∨
       x.stepStage ≠ 1 ∧ stepHeld rec g (stepReplies x 2 g.conns.length) = none) →
     leads (.commitQueryTimeout ctx) s (fun t => t.rd F.ctxStepState_STATE ctx.val = 3 ∧ (t.ctx ctx.val).doubt = some (stepRound x) ∧
       (∃ y, t.cmdAt k x.count = some y ∧ y.phase = .ended ∧ y.status = x.fatal.getD St.peerLost) ∧
       keepsRegs q t (Reg.ctxStepState :: toldRegs))))

/-! ### Loans (chapters 7 and 14) -/

/-- Loan windows at the borrower (R469, R470). BIND of an UNBOUND window whose connection is open asks the lender for
its grant and is BINDING; a window that is not UNBOUND ignores it. UNBIND leaves it UNBOUND and releases the grant;
a grant makes a BINDING window BOUND, a refusal UNBOUND. No command stands on the window where it is taken away.
Grants at the lender (R468, R469). A request that fits and overlaps no grant is granted: GRANTS counts it, and every
byte of it reads zero; another is refused with its cause, and nothing is granted. A release takes the borrower's
grant away. -/
def Obligations.LoanWindowsAndGrants : Prop :=
  ((∀ (w : Fin 16) (s : State), s.rd F.netLoanWin_STATE w.val ≠ 0 → exec (.loanBind w) s = .next s) ∧
   (∀ (w : Fin 16) (s : State), s.rd F.netLoanWin_STATE w.val = 0 →
     let c := s.rd F.netLoanWin_CONN w.val
     (s.gctOpen c = true → s.connVer c 3 ≠ 0 →
       leads (.loanBind w) s (fun t => t.rd F.netLoanWin_STATE w.val = 1 ∧
         (t.conn c).unacked.map (·.msg) = (s.conn c).unacked.map (·.msg) ++
           [.loan 0 [w.val, s.rd F.netLoanWin_OFFSET_GIB w.val, s.rd F.netLoanWin_SIZE_GIB w.val] []] ∧
         t.rings = s.rings ∧ t.mem = s.mem ∧ keepsRegs s t [Reg.netLoanWin])) ∧
     (s.gctOpen c = false → leads (.loanBind w) s (fun t => t.rd F.netLoanWin_STATE w.val = 0 ∧ t.rings = s.rings ∧ t.conns = s.conns ∧
       keepsRegs s t toldRegs))) ∧
   (∀ (w : Fin 16) (s : State), s.rd F.netLoanWin_STATE w.val = 0 → exec (.loanUnbind w) s = .next s) ∧
   (∀ (w : Fin 16) (s : State), s.noLoanUse →
     leads (.loanUnbind w) s (fun t => t.rd F.netLoanWin_STATE w.val = 0 ∧ (∀ v, v < 16 → v ≠ w.val → t.reg Reg.netLoanWin v = s.reg Reg.netLoanWin v) ∧
       ((s.rd F.netLoanWin_STATE w.val = 1 ∨ s.rd F.netLoanWin_STATE w.val = 2) → s.gctOpen (s.rd F.netLoanWin_CONN w.val) = true →
         (t.conn (s.rd F.netLoanWin_CONN w.val)).unacked.map (·.msg) =
           (s.conn (s.rd F.netLoanWin_CONN w.val)).unacked.map (·.msg) ++ [.loan 2 [s.rd F.netLoanWin_OFFSET_GIB w.val] []]) ∧
       t.rings = s.rings ∧ t.mem = s.mem ∧ keepsRegs s t [Reg.netLoanWin])) ∧
   (∀ (hdr : GctHdr) (w : Fin 16) (cause : BitVec 2) (s r : State), s.netUp = true → s.receive hdr true = some r →
     ((r.rd F.netLoanWin_STATE w.val ≠ 1 ∨ r.rd F.netLoanWin_CONN w.val ≠ hdr.conn.val) →
       ∀ granted, exec (.loanGrantReply hdr w granted cause) s = .next r) ∧
     (r.rd F.netLoanWin_STATE w.val = 1 → r.rd F.netLoanWin_CONN w.val = hdr.conn.val →
       leads (.loanGrantReply hdr w true cause) s (fun t => t.rd F.netLoanWin_STATE w.val = 2 ∧ t.rings = r.rings ∧ t.mem = r.mem ∧
         keepsRegs r t [Reg.netLoanWin]) ∧
       (r.noLoanUse → leads (.loanGrantReply hdr w false cause) s (fun t => t.rd F.netLoanWin_STATE w.val = 0 ∧ t.rings = r.rings ∧
         keepsRegs r t (Reg.netLoanWin :: toldRegs)))))) ∧
  ((∀ (hdr : GctHdr) (off size : BitVec 16) (s r : State), s.netServes = true → s.receive hdr true = some r →
     (∀ cause, r.grantCause hdr.conn.val off.toNat size.toNat = some cause →
       exec (.loanGrantRequest hdr off size) s = .next (r.sendGct hdr.conn.val (.loan 1 [off.toNat, 0, cause] []))) ∧
     (r.grantCause hdr.conn.val off.toNat size.toNat = none →
       leads (.loanGrantRequest hdr off size) s (fun t =>
         t.grants = r.grants ++ [{ conn := hdr.conn.val, base := off.toNat, size := size.toNat }] ∧
         t.rd F.netLendCfg_GRANTS = (r.grants.length + 1) % 2 ^ F.netLendCfg_GRANTS.width ∧
         (∀ a, r.lendAddr (off.toNat * 2 ^ 30) ≤ a → a < r.lendAddr ((off.toNat + size.toNat) * 2 ^ 30) → a < r.stackTop →
           r.regionOf a = r.regionOf (r.lendAddr (off.toNat * 2 ^ 30)) →
           (∀ n, r.regionOf a = some n → r.rd F.memRegionCfg_STACK_BASE n + r.rd F.memRegionCfg_SHARE n ≤ 384) →
           (∀ e, e ∈ r.rel.slots → e.2 < 64) → (∀ e, e ∈ r.rel.copies → e.2.slot < 64) → t.peek a = 0) ∧
         t.rings = r.rings ∧ t.host = r.host ∧ keepsRegs r t [Reg.netLendCfg]))) ∧
   (∀ (hdr : GctHdr) (off : BitVec 16) (s r : State), s.netServes = true → s.receive hdr true = some r →
     leads (.loanGrantRelease hdr off) s (fun t =>
       t.grants = r.grants.filter (fun g => !(g.conn == hdr.conn.val && g.base == off.toNat)) ∧
       t.rd F.netLendCfg_GRANTS = t.grants.length % 2 ^ F.netLendCfg_GRANTS.width ∧ t.rings = r.rings ∧ t.mem = r.mem ∧
       keepsRegs r t [Reg.netLendCfg])))

/-- Accesses to a loan (R469). The lender answers an access outside the borrower's grants as lost, and one within them
with the bytes of the granule, or with whether the write was made. At the borrower an acknowledgement takes the
write out of every command that waits for it; data reaches the reads that wait; an offset in no bound window is not
used. LOAN_STEP at the lender and the borrower (R248 to R250). A request for no grant is answered FAULT_TRANSLATION;
COMMIT of a group whose record the lender does not hold begins it, COMMIT of the version held is answered OK, COMMIT
of the pending version makes it the version held; a request that does not follow the version held changes nothing; a
record that is lost serves nothing. A reply is kept for its group. A LOAN_STEP whose time has run out completes
LOAN_LOST. -/
def Obligations.LoanTraffic : Prop :=
  ((∀ (hdr : GctHdr) (off : Word) (s r : State), s.netServes = true → s.receive hdr false = some r →
     let c := hdr.conn.val
     (r.grantOf c off.toNat 64 = none → exec (.loanAccessRequest hdr off none) s = .next (r.sendGct c (.loan 3 [off.toNat, 1] []))) ∧
     (r.grantOf c off.toNat 64 ≠ none → ∀ bs q, r.readPhys (r.lendAddr off.toNat) 64 = (bs, [], q) →
       exec (.loanAccessRequest hdr off none) s = .next (q.sendGct c (.loan 3 [off.toNat, 0] bs))) ∧
     (∀ b : List Byte,
       (r.grantOf c off.toNat b.length = none → exec (.loanAccessRequest hdr off (some b)) s = .next (r.sendGct c (.loan 4 [off.toNat, 1] []))) ∧
       (r.grantOf c off.toNat b.length ≠ none →
         exec (.loanAccessRequest hdr off (some b)) s = .next ((r.writePhys (r.lendAddr off.toNat) b).2.sendGct c
           (.loan 4 [off.toNat, b2n (!(r.writePhys (r.lendAddr off.toNat) b).1)] []))))) ∧
   (∀ (hdr : GctHdr) (off : Word) (data : Option (List Byte)) (s r : State), s.netUp = true → s.receive hdr true = some r →
     (r.loanAddr hdr.conn.val off.toNat = none → exec (.loanAccessReply hdr off data) s = .next r) ∧
     (∀ pa, r.loanAddr hdr.conn.val off.toNat = some pa →
       (data = some [] → leads (.loanAccessReply hdr off data) s (fun t => t.regs = r.regs ∧ t.mem = r.mem ∧
         ∀ k, (t.ring k).cmds.map (·.loanOut) = (r.ring k).cmds.map (fun x => x.loanOut.erase pa))) ∧
       (∀ b, data = some b → b ≠ [] → exec (.loanAccessReply hdr off data) s = .next (r.loanArrived pa (some b))) ∧
       (data = none → exec (.loanAccessReply hdr off data) s = .next ((r.loanWritten pa true).loanArrived pa none))))) ∧
  ((∀ (hdr : GctHdr) (m : LoanStepMsg) (s r : State), s.netServes = true → s.receive hdr true = some r →
     let c := hdr.conn.val
     (r.lentAt c m = none → exec (.lenderLoanStep hdr m) s = .next (r.loanReply c m St.faultTranslation [] [])) ∧
     (∀ pa, r.lentAt c m = some pa →
       let rec_ := (loanEntry m).recordAt pa
       (∀ q, r.checkGran rec_ = (true, q) → exec (.lenderLoanStep hdr m) s = .next ((q.lendLoss [rec_]).loanReply c m St.dataLoss [] [])) ∧
       (∀ q, r.checkGran rec_ = (false, q) →
         (m.op = 1 → q.getRec rec_ = none →
           exec (.lenderLoanStep hdr m) s = .next ((q.setRec rec_ (m.target.toNat, false)).loanReply c m St.ok [] [])) ∧
         (∀ l p, q.getRec rec_ = some (l, p) →
           (m.op = 1 → m.target.toNat = l → exec (.lenderLoanStep hdr m) s = .next (q.loanReply c m St.ok [] [])) ∧
           (m.op = 1 → m.target.toNat = l + 1 → p = true →
             exec (.lenderLoanStep hdr m) s = .next ((q.setRec rec_ (l + 1, false)).loanReply c m St.ok [] [])) ∧
           ((m.op = 0 ∧ m.target.toNat ≠ l + 1 ∧ ¬(m.target.toNat = l + 2 ∧ p = true)) ∨ (m.op = 2 ∧ m.target.toNat ≠ l) →
             leads (.lenderLoanStep hdr m) s (fun t => t.grants = q.grants ∧ t.rings = q.rings ∧ keepsRegs q t toldRegs ∧
               (q.quietQueues → t.mem = q.mem))))))) ∧
   (∀ (hdr : GctHdr) (m : LoanReplyMsg) (s r : State), s.netUp = true → s.receive hdr true = some r →
     (r.loanCmd hdr.conn.val m = none → exec (.loanReply hdr m) s = .next r) ∧
     (∀ k x i, r.loanCmd hdr.conn.val m = some (k, x, i) →
       exec (.loanReply hdr m) s = .next ((r.updCmd k x.count (fun y => { y with
         parts := put y.parts i (replyPart m), counts := y.counts + 1,
         flags := if m.op = 0 then y.flags ||| (replyPart m).getD 7 0 else y.flags })).settle k x.count (loanPlan k x)))) ∧
   (∀ (id : CmdId) (s : State) (x : Cmd), s.cmd id = some x →
     (s.timedOut x = false → exec (.loanStepTimeout id) s = .next s) ∧
     (x.opcode = 0x0072 → (x.phase = .waiting ∨ x.phase = .stalled) → x.aux ≠ [] → x.unanswered ≠ [] → s.timedOut x = true →
       x.lost = [] → x.seeds = [] →
       leads (.loanStepTimeout id) s (fun t => (∃ y, t.cmd id = some y ∧ y.phase = .ended ∧ y.status = x.fatal.getD St.loanLost ∧ y.record = x.record) ∧
         t.grants = s.grants ∧ t.conns = s.conns ∧ keepsRegs s t toldRegs))))

/-! ### Media and the resolution of faults (chapters 10, 13 and 14) -/

/-- Live reception (R439, R440, R442, R471). Where the network does not serve, or the port is down, and for a datagram
that is no live message, nothing changes; a message of a stream that is not enabled is counted in its OVERRUN; the
first part of a frame begins it; a frame still incomplete 10 ms after its first datagram is dropped and counted.
Front ends (R432, R441, R444). A front end that its watchdog resets is out of service, without its table, and
counted; its reset ends with UP. A slot of a live batch that has waited long enough goes on without a frame, and a
sample that has taken too long is made corrupt with reason TIMEOUT; before their times neither event has an effect. -/
def Obligations.LiveAndFrontEnds : Prop :=
  ((∀ (lp : Fin 24) (b : List Byte) (s : State), s.netServes = false ∨ s.lpUp lp.val = false ∨ b.length < 32 ∨ fieldAt b 0 0 32 ≠ 0x4C584247 ∨
     fieldAt b 7 0 8 ≠ 0 ∨ fieldAt b 28 0 32 ≠ 0 → exec (.liveDatagram lp b) s = .next s) ∧
   (∀ (lp : Fin 24) (b : List Byte) (s : State) (n : Nat), s.netServes = true → s.lpUp lp.val = true → 32 ≤ b.length → fieldAt b 0 0 32 = 0x4C584247 →
     fieldAt b 7 0 8 = 0 → fieldAt b 28 0 32 = 0 → (∃ k, k < 4 ∧ s.kfeFitted k = true) → s.liveStream (fieldAt b 4 0 16) = some n →
     let total := fieldAt b 24 0 32
     let off := fieldAt b 12 0 32
     let len := b.length - 32
     let slot := fieldAt b 8 0 32 % s.rd F.kfeLiveCfg_FRAME_SLOTS n
     (s.flag F.kfeLiveCfg_ENABLE n = false → leads (.liveDatagram lp b) s (fun t =>
       t.rd F.kfeLiveCount_OVERRUN n = satAdd F.kfeLiveCount_OVERRUN.width (s.rd F.kfeLiveCount_OVERRUN n) 1 ∧ t.kfe = s.kfe ∧ t.rings = s.rings ∧
       keepsRegs s t (Reg.kfeLiveCount :: toldRegs))) ∧
     (s.flag F.kfeLiveCfg_ENABLE n = true → total ≤ s.rd F.kfeLiveCfg_FRAME_MAX_KIB n * 1024 → s.rd F.kfeLiveCfg_FRAME_SLOTS n ≠ 0 →
       (∀ f, f ∈ s.kfe.frames → f.stream = n → f.frame ≠ fieldAt b 8 0 32 ∧ (f.slot ≠ slot ∨ f.dead = true)) → s.slotPinned n slot = false →
       0 < len → off + len ≤ total → (off ≠ 0 ∨ len < total) →
       leads (.liveDatagram lp b) s (fun t => (∃ f, f ∈ t.kfe.frames ∧ f.stream = n ∧ f.frame = fieldAt b 8 0 32 ∧ f.slot = slot ∧ f.total = total ∧
         f.got = [(off, off + len)] ∧ f.firstAt = s.ivl ∧ f.dead = false) ∧ t.kfe.tables = s.kfe.tables ∧ t.rings = s.rings ∧
         keepsRegs s t toldRegs))) ∧
   (∀ (stream : Fin 64) (frame : BitVec 32) (s : State) (f : LiveFrame),
     s.kfe.frames.find? (fun f => f.stream == stream.val && f.frame == frame.toNat) = some f →
     (s.ivl < f.firstAt + 10000000 → exec (.liveFrameTimeout stream frame) s = .next s) ∧
     (f.firstAt + 10000000 ≤ s.ivl → leads (.liveFrameTimeout stream frame) s (fun t => t.kfe.frames = s.kfe.frames.filter (fun g => g != f) ∧
       t.rd F.kfeLiveCount_OVERRUN stream.val =
         (if f.dead then s.rd F.kfeLiveCount_OVERRUN stream.val else satAdd F.kfeLiveCount_OVERRUN.width (s.rd F.kfeLiveCount_OVERRUN stream.val) 1) ∧
       t.mem = s.mem ∧ t.rings = s.rings ∧ keepsRegs s t [Reg.kfeLiveCount])))) ∧
  ((∀ (k : Fin 4) (s : State), s.kfeFitted k.val = true → s.flag F.kfeStatus_UP k.val = true → s.samplesOn k.val = [] →
     leads (.kfeWatchdog k) s (fun t => t.rd F.kfeStatus_UP k.val = 0 ∧ t.rd F.kfeStatus_TABLE_VALID k.val = 0 ∧
       t.rd F.kfeStatus_RESETS k.val = satAdd F.kfeStatus_RESETS.width (s.rd F.kfeStatus_RESETS k.val) 1 ∧
       look t.kfe.tables k.val = none ∧ k.val ∈ t.kfe.resetting ∧ (∀ j, j < 4 → j ≠ k.val → t.reg Reg.kfeStatus j = s.reg Reg.kfeStatus j) ∧
       t.rings = s.rings ∧ keepsRegs s t (Reg.kfeStatus :: toldRegs))) ∧
   (∀ (k : Fin 4) (s : State), k.val ∈ s.kfe.resetting →
     leads (.kfeResetDone k) s (fun t => t.rd F.kfeStatus_UP k.val = 1 ∧ k.val ∉ t.kfe.resetting ∧ t.kfe.tables = s.kfe.tables ∧ t.mem = s.mem ∧
       t.rings = s.rings ∧ keepsRegs s t [Reg.kfeStatus])) ∧
   (∀ (id : CmdId) (s : State) (x : Cmd), s.cmd id = some x →
     (s.ivl - x.aux.getD 1 0 < x.media.liveWait * 1000 → exec (.liveWaitExpiry id) s = .next s) ∧
     (x.opcode = 0x0080 → x.phase = .waiting → x.media.live = true → s.ctxHeld id.ctx.val = false → x.aux.getD 1 0 + x.media.liveWait * 1000 ≤ s.ivl →
       x.aux.getD 0 0 + 1 < x.media.slots → 0 < x.media.liveWait → (s.que x.media.queue).head = none →
       leads (.liveWaitExpiry id) s (fun t => (∃ y, t.cmd id = some y ∧ y.phase = .waiting ∧ look y.parts (Key.live + x.aux.getD 0 0) = some [0] ∧
         y.aux.getD 0 0 = x.aux.getD 0 0 + 1 ∧ y.record = x.record ∧ y.desc = x.desc) ∧ t.regs = s.regs ∧ t.mem = s.mem)) ∧
     (∀ slot : BitVec 16,
       (s.ivl - x.issuedAt < s.limits.ns → exec (.sampleTimeout id slot) s = .next s) ∧
       (x.opcode = 0x0080 → x.phase = .stalled → slot.toNat < x.media.slots → s.ctxHeld id.ctx.val = false →
         (∃ st, st ∈ x.stalls ∧ st.unit = slot.toNat ∧ st.dispatch = false) → x.issuedAt + s.limits.ns ≤ s.ivl →
         exec (.sampleTimeout id slot) s = .next (s.forceTimeout (CmdKey id) x.count slot.toNat)))))

/-- Resolvable faults (R183, R194, R337 to R339, R342). A copy-on-write fault without a frame pool fails NO_FRAME, and
one that is resolved lets its access go on; a migration is taken up again once its entry is valid, which is counted,
and fails once MIGRATE_WAIT is spent; a loan fault goes on with its bound window and fails without it. An access of
the dispatcher that goes on is no longer stalled. KV copy-on-write and walk restarts (R183, R194): a fault that the
owner's die bar resolves with no loss replays its unit; a walk that has waited out its delay begins again, and
before that nothing changes. -/
def Obligations.FaultResolutions : Prop :=
  (∀ (id : CmdId) (unit : BitVec 32) (s : State) (a : StallAt), s.stallAt id unit.toNat = some a → s.resolves id.ctx.val = true →
     let c := id.ctx.val
     let k := CmdKey id
     (a.stall.kind = .cow →
       (s.rd F.ctxFramePool_ADDR c = 0 → exec (.cowResolve id unit) s = .next (s.failAt k a Cause.noFrame)) ∧
       (∀ q, s.resolveCow c a.stall = (.replay, q) → exec (.cowResolve id unit) s = .next (q.unstall k a))) ∧
     (a.stall.kind = .migrate →
       (∀ gone q, s.checkGran a.stall.pte = (gone, q) →
         ((gone = true ∨ Pte.valid (q.peek64 a.stall.pte) = false) → exec (.migratePoll id unit) s = .next q) ∧
         (gone = false → Pte.valid (q.peek64 a.stall.pte) = true →
           exec (.migratePoll id unit) s = .next ((q.count F.ctxFaultCounts_MIGRATE c 1).unstall k a))) ∧
       (s.migrateSpent a.stall < s.rd F.ctxFaultCfg_MIGRATE_WAIT c * 1000000 → exec (.migrateTimeout id unit) s = .next s) ∧
       (s.rd F.ctxFaultCfg_MIGRATE_WAIT c * 1000000 ≤ s.migrateSpent a.stall → exec (.migrateTimeout id unit) s = .next (s.failAt k a Cause.migrateTimeout))) ∧
     (a.stall.kind = .loan →
       let st := s.rd F.netLoanWin_STATE ((s.stallWindow a.stall).getD 16)
       (st = 2 → exec (.loanResolve id unit true) s = .next ((s.resolveLoan c a.stall).unstall k a)) ∧
       (st = 0 ∨ st = 3 → exec (.loanResolve id unit false) s = .next (s.failAt k a Cause.loanLost)) ∧
       (st = 1 → ∀ g, exec (.loanResolve id unit g) s = .next s)) ∧
     (∀ q x st, (a = .compl x st → ((q : State).unstall k a).regs = q.regs ∧ (q.unstall k a).mem = q.mem ∧
         ((q.unstall k a).ring k).complStall = none ∧ ((q.unstall k a).ring k).cmds = (q.ring k).cmds) ∧
       (a = .fetch st → (q.unstall k a).regs = q.regs ∧ (q.unstall k a).mem = q.mem ∧ ((q.unstall k a).ring k).fetchStall = none ∧
         ((q.unstall k a).ring k).cmds = (q.ring k).cmds))) ∧
  ((∀ (id : CmdId) (unit : BitVec 32) (s q : State) (x : Cmd) (st : Stall) (a : Acc), s.stallAt id unit.toNat = some (.unit x st) → st.kind = .kvCow →
     s.resolves id.ctx.val = true →
     State.ownerCow id.ctx.val x.kvPool.1 (((x.kvPool.2[st.va / 2 ^ 32]?).map (·.pt)).getD 0) st.pte st.entry 8 s = (some (.replay, a), q) →
     a.fault = none → exec (.kvCowResolve id unit) s = .next ((q.updCmd (CmdKey id) x.count (fun y => { y with
       lossUnit := if y.lost = [] ∧ a.lost ≠ [] then st.src else y.lossUnit, lost := joinLost y.lost a.lost })).replay (CmdKey id) x.count st)) ∧
   (∀ (id : CmdId) (seq : BitVec 16) (s : State) (x : Cmd), s.cmd id = some x → s.resolves id.ctx.val = true →
     let due := x.stalls.filter (fun st => st.kind == .kvWalk && st.va == seq.toNat && decide (s.ivl - st.since ≥ st.entry))
     (due = [] → exec (.kvWalkRestart id seq) s = .next s) ∧
     (∀ st, due = [st] → exec (.kvWalkRestart id seq) s = .next (s.replay (CmdKey id) x.count st))))

/-- The end of a REMAP's drain (R261): while another command of an affected ring is left nothing changes; then every
binding has its ring's MASK and effective set, a new view its root, and a REMAP that moves nothing ends OK. -/
def Obligations.RemapEnds : Prop :=
  ∀ (id : CmdId) (s : State) (x : Cmd), s.cmd id = some x → x.opcode = 0x00A1 → x.phase = .waiting →
    let k := CmdKey id
    (s.remapDrained k x = false → exec (.remapDrainEnd id) s = .next s) ∧
    (s.remapDrained k x = true → s.ctxState id.ctx.val = Ctx.active → fieldAt x.desc 3 0 8 = 0 → x.untouched →
      ((remapBinds x.desc).map (·.1)).Nodup →
      leads (.remapDrainEnd id) s (fun t => (∃ y, t.cmd id = some y ∧ y.phase = .ended ∧ y.status = St.ok ∧ y.record = x.record) ∧
        (∀ b, b ∈ remapBinds x.desc → t.rd F.ctxRingTiles_MASK (ringKey id.ctx.val b.1) = b.2 ∧
          (t.ring (ringKey id.ctx.val b.1)).eff = b.2 &&& s.tilesPresent) ∧
        t.reg Reg.ctxMmuRoot id.ctx.val = (if fieldAt x.desc 1 0 1 = 1 then BitVec.ofNat 64 (fieldAt x.desc 8 0 64) else s.reg Reg.ctxMmuRoot id.ctx.val) ∧
        t.mem = s.mem ∧ keepsRegs s t [Reg.ctxRingTiles, Reg.ctxMmuRoot, Reg.pwrDomStatus]))

/-! ### The mailbox and activation (chapters 15, 18 and 20) -/

/-- The commands of the mailbox (R576): before ROM there is none; a command written while one is in progress leaves only
its arguments; else the mailbox is BUSY with it, and it begins at once unless core 0's duties pause: what it comes
to is kept until MAILBOX_DONE. -/
def Obligations.MailboxCommands : Prop :=
  ∀ (c : Instr) (s : State) (cmd : Nat) (args : List (Nat × Nat)), mboxRow c = some (cmd, args) →
    (s.dev < Dev.rom → exec c s = .next s) ∧
    (Dev.rom ≤ s.dev → s.mbox ≠ none → exec c s = .next (s.mboxArgs cmd args)) ∧
    (Dev.rom ≤ s.dev → s.mbox = none →
      let v := s.mboxTaken cmd args
      let r := v.mboxRun cmd ((List.range 8).map (fun i => (s.mboxArgs cmd args).rd F.hubMboxArg_VALUE i))
      v.rd F.hubMboxStatus_BUSY = 1 ∧ keepsRegs s v [Reg.hubMboxArg, Reg.hubMboxCmd, Reg.hubMboxStatus] ∧ v.mem = s.mem ∧
      (s.dutyHeld 0 = true → exec c s = .next v) ∧
      (s.dutyHeld 0 = false → exec c s = .next { r.s with mbox := r.s.mbox.map (fun j =>
        { j with begun := true, result := r.result, detail := r.detail, writes := r.writes }) }))

/-- What commands of the mailbox come to (R492, R493, R499, R531, R536, R577). CFG_LOAD stages a blob that has no
finding; CFG_COMMIT without a staged blob comes to NOT_LOADED; LIFE_READ puts the bytes of the life log into host
memory; DIAG_FINDINGS gives the findings; RESUME of a braced device whose pin is released ends the brace. A transfer
that fails comes to HOST_READ_FAIL and leaves host memory as it is; whether one fails is free (log entry 132).
MAILBOX_DONE (R576, R578): the result and the detail of the command are shown with DONE, and the mailbox is free.
Without a command, or while core 0's duties pause, nothing changes. -/
def Obligations.MailboxResults : Prop :=
  (∀ s : State, Dev.rom ≤ s.dev → s.mbox = none → s.dutyHeld 0 = false →
     (∀ addr len : Word, (s.serving = true ∨ s.dev = Dev.cfgHold) → len.toNat ≤ blobMax →
       let v := s.mboxTaken 1 [(0, addr.toNat), (1, len.toNat)]
       let fs := v.transferFails.2.hostFindings (s.host.readN addr.toNat len.toNat)
       leads (.cfgLoad addr len) s (fun t => t.host = s.host ∧ t.mem = s.mem ∧
         (v.transferFails.1 = true → t.mbox.map (·.result) = some Res.hostReadFail ∧ t.start = s.start ∧
           t.rd F.hubState_STAGED = s.rd F.hubState_STAGED) ∧
         (v.transferFails.1 = false →
           t.mbox.map (fun j => (j.result, j.detail)) = some (if fs = [] then (Res.done, 0) else (Res.invalid, fs.length)) ∧
           t.rd F.hubState_STAGED = (if fs = [] then 1 else s.rd F.hubState_STAGED) ∧
           t.start.staged = (if fs = [] then some (s.host.readN addr.toNat len.toNat) else s.start.staged)))) ∧
     (s.dev = Dev.cfgHold → s.start.staged = none →
       ∀ w, leads (.cfgCommit w) s (fun t => t.mbox.map (·.result) = some Res.notLoaded ∧ t.dev = s.dev ∧ t.start = s.start)) ∧
     (∀ (off len : BitVec 32) (addr : Word), s.serving = true → off.toNat + len.toNat ≤ 24576 →
       let v := s.mboxTaken 5 [(0, 0), (1, off.toNat + len.toNat * 2 ^ 32), (2, addr.toNat)]
       leads (.lifeRead false off len addr) s (fun t => t.life = s.life ∧ t.mem = s.mem ∧
         (v.transferFails.1 = true → t.mbox.map (·.result) = some Res.hostReadFail ∧ t.host = s.host) ∧
         (v.transferFails.1 = false → t.mbox.map (fun j => (j.result, j.detail)) = some (Res.done, len.toNat) ∧
           (∀ i, i < len.toNat → t.host.read (addr.toNat + i) = s.life.read (off.toNat + i)) ∧
           (∀ a, a < addr.toNat ∨ addr.toNat + len.toNat ≤ a → t.host.read a = s.host.read a)))) ∧
     (∀ addr : Word, s.dev ≠ Dev.paused →
       let v := s.mboxTaken 7 [(0, 1), (1, addr.toNat)]
       leads (.diagFindings addr) s (fun t => t.start = s.start ∧ t.mem = s.mem ∧
         (v.transferFails.1 = true → t.mbox.map (·.result) = some Res.hostReadFail ∧ t.host = s.host) ∧
         (v.transferFails.1 = false → t.mbox.map (fun j => (j.result, j.detail)) = some (Res.done, s.start.findings.length) ∧
           t.host = s.host.writeN addr.toNat (s.start.findings.flatMap Finding.bytes)))) ∧
     (s.dev ≠ Dev.braced → leads .mboxResume s (fun t => t.mbox.map (·.result) = some Res.wrongState ∧ t.dev = s.dev ∧ t.mem = s.mem)) ∧
     (s.dev = Dev.braced → s.pins.braceLow = true → leads .mboxResume s (fun t => t.mbox.map (·.result) = some Res.pinAsserted ∧ t.dev = s.dev ∧ t.mem = s.mem)) ∧
     (s.dev = Dev.braced → s.pins.braceLow = false → s.start.held = none → s.rd F.mgtBraceStatus_PHASE = 6 → s.brace.ctxs = [] →
       leads .mboxResume s (fun t => t.mbox.map (·.result) = some Res.done ∧ t.serving = true ∧ t.rd F.mgtBraceStatus_PHASE = 0))) ∧
  ((∀ s : State, s.mbox = none ∨ s.dutyHeld 0 = true → exec .mailboxDone s = .next s) ∧
   (∀ (s : State) (j : MboxJob), s.mbox = some j → j.begun = true → j.writes = none → s.dutyHeld 0 = false →
     (j.lost = true → leads .mailboxDone s (fun t => t.mbox = none ∧ t.regs = s.regs ∧ t.mem = s.mem ∧ t.out = s.out)) ∧
     (j.lost = false → leads .mailboxDone s (fun t => t.mbox = none ∧ t.rd F.hubMboxStatus_BUSY = 0 ∧ t.rd F.hubMboxStatus_DONE = 1 ∧
       t.rd F.hubMboxStatus_RESULT = j.result % 2 ^ F.hubMboxStatus_RESULT.width ∧ t.rd F.hubMboxStatus_DETAIL = j.detail % 2 ^ F.hubMboxStatus_DETAIL.width ∧
       t.mem = s.mem ∧ t.rings = s.rings ∧ keepsRegs s t [Reg.hubMboxStatus]))))

/-- Requests of job controllers, and attestation (R484, R551, R557). A controller without the right changes nothing;
with it the request comes to what the mailbox's would, and is answered on its connection. PF0 is answered with the
report of its nonce or the code of why there is none. -/
def Obligations.ControllerRequests : Prop :=
  (∀ (hdr : GctHdr) (s r : State) (k : Nat), s.fromController hdr = some (k, r) →
    ((r.ctrlRights k).testBit 18 = false → exec (.activateNow (.controller hdr)) s = .next r ∧ exec (.activateCancel (.controller hdr)) s = .next r ∧
      (∀ a b, exec (.activateStage (.controller hdr) a b) s = .next r) ∧
      ∀ t w c f, exec (.activateSchedule (.controller hdr) t w c f) s = .next r) ∧
    ((r.ctrlRights k).testBit 18 = true →
      (let q := r.runActivate 3 0 0; exec (.activateNow (.controller hdr)) s = .next (q.s.sendGct (4080 + k) (.answer q.result q.detail))) ∧
      (let q := r.runActivate 4 0 0; exec (.activateCancel (.controller hdr)) s = .next (q.s.sendGct (4080 + k) (.answer q.result q.detail))) ∧
      (∀ (addr len : Word), let q := r.ctrlStage k addr.toNat len.toNat
        exec (.activateStage (.controller hdr) addr len) s = .next (q.s.sendGct (4080 + k) (.answer q.result q.detail))) ∧
      (∀ (time : Word) (w : BitVec 16) (ctx : Fin 16) (fb : Bool),
        let q := r.runActivate 2 time.toNat (w.toNat + ctx.val * 2 ^ 16 + b2n fb * 2 ^ 20)
        exec (.activateSchedule (.controller hdr) time w ctx fb) s = .next (q.s.sendGct (4080 + k) (.answer q.result q.detail)))) ∧
    (∀ nonce, exec (.gctAttest hdr nonce) s = .next (r.sendGct hdr.conn.val (.report (attestAnswer (r.attest nonce)))))) ∧
  (∀ (nonce : List Byte) (s : State),
    (s.dev < Dev.rom ∨ s.pins.perst = true → exec (.doeAttestRequest nonce) s = .next s) ∧
    (Dev.rom ≤ s.dev → s.pins.perst = false → exec (.doeAttestRequest nonce) s = .next (s.emit (.doe (attestAnswer (s.attest nonce)))) ∧
      ((s.dev = Dev.rom ∨ s.dev = Dev.halted ∨ s.dev = Dev.paused) → attestAnswer (s.attest nonce) = [BitVec.ofNat 8 Res.wrongState]) ∧
      ((s.serving = true ∨ s.dev = Dev.cfgHold ∨ s.dev = Dev.bringup ∨ s.dev = Dev.braced) → s.sec.xi = none →
        attestAnswer (s.attest nonce) = [BitVec.ofNat 8 Res.noIdentity])))

/-- The requests of activation (R557, R559, R560). SCHEDULE in a serving device with a staged image that may be
activated in place prepares it for its time; CANCEL returns to no activation, with result 5. The course of an
activation (R560 to R562, R565): prepared parts wait for their time, and then for the boundary; at the boundary the
device pauses; in the pause a good swap makes the staged release the running one, and a failed one keeps the old; a
pause that its units hold up is abandoned; a window that ends without a boundary misses the activation, or with
FALLBACK pauses. -/
def Obligations.Activation : Prop :=
  (∀ s : State, s.serving = true → s.mbox = none → s.dutyHeld 0 = false →
     (∀ (time : Word) (w : BitVec 16) (ctx : Fin 16) (fb : Bool), s.liveMethod = true → s.rd F.secActStatus_STATE = 0 → s.flag F.secFwStaged_VALID = true →
       s.liveOk = true → s.time ≤ time.toNat → w ≠ 0 →
       leads (.activateSchedule .mailbox time w ctx fb) s (fun t => t.mbox.map (·.result) = some Res.done ∧ t.rd F.secActStatus_STATE = 1 ∧
         t.rd F.secActTime_TIME = time.toNat ∧ t.rd F.secActStatus_CTX = ctx.val ∧ t.rd F.secActStatus_FALLBACK = b2n fb ∧
         t.rd F.secActStatus_WINDOW_MS = w.toNat ∧ t.dev = s.dev ∧ t.rings = s.rings)) ∧
     (s.rd F.secActStatus_STATE ≠ 0 → leads (.activateCancel .mailbox) s (fun t => t.mbox.map (·.result) = some Res.done ∧ t.rd F.secActStatus_STATE = 0 ∧
       t.rd F.secActStatus_LAST_RESULT = 5 ∧ t.dev = s.dev ∧ t.rings = s.rings)) ∧
     (s.liveMethod = true → s.flag F.secFwStaged_VALID = true → s.liveOk = true →
       leads (.activateNow .mailbox) s (fun t => t.mbox.map (·.result) = some Res.done ∧ t.dev = Dev.paused ∧ t.rd F.secActStatus_STATE = 4 ∧
         t.sec.pausedFrom = s.dev ∧ t.sec.pausedAt = s.ivl))) ∧
  ((∀ (ok : Bool) (s : State),
     (s.rd F.secActStatus_STATE = 1 → ok = true → s.rel.halted = [] →
       leads (.activationPrepared ok) s (fun t => t.rd F.secActStatus_STATE = 2 ∧ t.dev = s.dev ∧ t.mem = s.mem ∧ t.sec = s.sec ∧ keepsRegs s t [Reg.secActStatus])) ∧
     (s.rd F.secActStatus_STATE ≠ 1 ∨ ok = false ∨ s.rel.halted ≠ [] → exec (.activationPrepared ok) s = .next s)) ∧
   (∀ s : State,
     (s.rd F.secActStatus_STATE = 2 → s.rd F.secActTime_TIME ≤ s.time →
       leads .activationTime s (fun t => t.rd F.secActStatus_STATE = 3 ∧ t.dev = s.dev ∧ t.mem = s.mem ∧ t.sec = s.sec ∧ keepsRegs s t [Reg.secActStatus])) ∧
     (s.rd F.secActStatus_STATE ≠ 2 ∨ s.time < s.rd F.secActTime_TIME → exec .activationTime s = .next s)) ∧
   (∀ (r : SwapReport) (s : State),
     (s.serving = true → s.rd F.secActStatus_STATE = 3 → s.sec.boundary = true →
       leads (.activationPause r) s (fun t => t.dev = Dev.paused ∧ t.rd F.secActStatus_STATE = 4 ∧ t.sec.pausedFrom = s.dev ∧ t.sec.pausedAt = s.ivl ∧
         t.mem = s.mem ∧ keepsRegs s t [Reg.hubState, Reg.secActStatus])) ∧
     (s.dev = Dev.paused → s.sec.heldDisable = [] → s.sec.braceWaiting = false →
       (s.rel.halted = [] → r.failing = none →
         leads (.activationPause r) s (fun t => t.rd F.secFwRunning_RELEASE = s.rd F.secFwStaged_RELEASE ∧
           t.rd F.secFwRunning_SECURITY_VERSION = s.rd F.secFwStaged_SECURITY_VERSION ∧ t.rd F.secFwRunning_LIVE = 1 ∧
           t.rd F.secActStatus_STATE = 0 ∧ t.rd F.secActStatus_LAST_RESULT = 1 ∧ t.sec.parts = s.sec.stagedParts ∧ t.dev ≠ Dev.paused)) ∧
       (s.rel.halted = [] → (∃ p, r.failing = some p) → r.rollbackFails = false →
         leads (.activationPause r) s (fun t => t.rd F.secFwRunning_RELEASE = s.rd F.secFwRunning_RELEASE ∧ t.rd F.secActStatus_STATE = 0 ∧
           t.rd F.secActStatus_LAST_RESULT = 4 ∧ t.sec.parts = s.sec.parts ∧ t.dev ≠ Dev.paused)))) ∧
   (∀ (units : BitVec 32) (s : State),
     (s.dev ≠ Dev.paused ∨ s.ivl - s.sec.pausedAt < s.sec.drainLimit → exec (.activationDrainTimeout units) s = .next s) ∧
     (s.dev = Dev.paused → s.sec.pausedAt + s.sec.drainLimit ≤ s.ivl → s.sec.heldDisable = [] → s.sec.braceWaiting = false →
       leads (.activationDrainTimeout units) s (fun t => t.rd F.secActStatus_STATE = 0 ∧ t.rd F.secActStatus_LAST_RESULT = 3 ∧ t.dev ≠ Dev.paused ∧
         t.rd F.secFwRunning_RELEASE = s.rd F.secFwRunning_RELEASE))) ∧
   (∀ s : State, 1 ≤ s.rd F.secActStatus_STATE → s.rd F.secActStatus_STATE ≤ 3 → s.sec.boundary = false →
     (s.time < s.rd F.secActTime_TIME + s.rd F.secActStatus_WINDOW_MS * 1000000 → exec .activationWindowExpiry s = .next s) ∧
     (s.rd F.secActTime_TIME + s.rd F.secActStatus_WINDOW_MS * 1000000 ≤ s.time →
       (s.flag F.secActStatus_FALLBACK = false →
         leads .activationWindowExpiry s (fun t => t.rd F.secActStatus_STATE = 0 ∧ t.rd F.secActStatus_LAST_RESULT = 2 ∧ t.dev = s.dev ∧ t.rings = s.rings)) ∧
       (s.flag F.secActStatus_FALLBACK = true → s.rd F.secActStatus_STATE ≠ 1 → s.serving = true →
         leads .activationWindowExpiry s (fun t => t.dev = Dev.paused ∧ t.rd F.secActStatus_STATE = 4 ∧ t.sec.pausedFrom = s.dev)))))

/-! ### The commands of rings (chapters 3 to 13) -/

/-- Commands issue (R104 to R109, R256, R581): when a command may issue, the dispatcher hands it to its engine with the
descriptor and the tables that it has read, START is the device time, and the engine does its work. A command of
another row, one that may not issue yet, and one that the scoreboard, the filler rule or the turn of another ring
holds, is left as it is; one whose check fails or whose units are absent ends with its status. -/
def Obligations.CommandsIssue : Prop :=
  ∀ (c : Instr) (s : State) (id : CmdId) (op : Nat) (row : Bool), ringRow s c = some (id, op, row) →
    (∀ x e d tabs a, row = true → s.issues id op x e d tabs a →
      exec c s = .next (a.s.launch (CmdKey id) e (e.judged s (CmdKey id) x d tabs))) ∧
    (s.cmd id = none → exec c s = .next s) ∧
    (∀ x, s.cmd id = some x → x.opcode ≠ op ∨ s.issuable (CmdKey id) x = false → exec c s = .next s) ∧
    (∀ x e st a, row = true → s.cmd id = some x → x.opcode = op → engineOf op = some e → s.issuable (CmdKey id) x = true →
      (e.tiled = true → s.asleep (CmdKey id) = []) → s.prepRun (CmdKey id) x e = (.error st, a) → a.fault = none → a.lost = [] →
      exec c s = .next (a.s.rejectCmd (CmdKey id) x.count st)) ∧
    (∀ x e d tabs a, row = true → s.cmd id = some x → x.opcode = op → engineOf op = some e → s.issuable (CmdKey id) x = true →
      (e.tiled = true → s.asleep (CmdKey id) = []) → s.prepRun (CmdKey id) x e = (.ok (d, tabs), a) → a.fault = none → a.lost = [] →
      let y := e.judged s (CmdKey id) x d tabs
      ((s.admits (CmdKey id) y engineOf = false ∨ s.itsTurn (CmdKey id) y engineOf = false) → exec c s = .next s) ∧
      (s.admits (CmdKey id) y engineOf = true → s.itsTurn (CmdKey id) y engineOf = true → e.gone s (CmdKey id) y = true →
        exec c s = .next (a.s.rejectCmd (CmdKey id) x.count St.unitAbsent)))

/-- What commands of the dispatcher come to once they issue (R113, R373, R388, R537, R588). NOP changes nothing and ends
OK; an addition that the bead takes grows its value; SET and CLEAR leave the peg so and no other peg changed; BRANCH
moves HEAD to its target when its comparison is true, else past itself; BRACE_SET replaces its context's brace set.
Every other register and the memory stand. -/
def Obligations.DispatcherCommands : Prop :=
  ∀ (id : CmdId) (s : State) (x : Cmd) (e : Engine) (d : List Byte) (tabs : List (List Byte)) (a : Acc), x.untouched →
    let c := id.ctx.val
    let k := CmdKey id
    let ended (t : State) : Prop := ∃ y, t.cmd id = some y ∧ y.phase = .ended ∧ y.status = St.ok ∧ y.record = x.record ∧ y.start = a.s.time
    (s.issues id 0x0001 x e d tabs a → leads (.nop id) s (fun t => ended t ∧ t.regs = s.regs ∧ t.mem = s.mem ∧ t.brace = s.brace)) ∧
    (s.issues id 0x0090 x e d tabs a → s.isRow id 0 0 2 [0, 1, 2] 0 = true → fieldAt d 0 0 2 = 0 →
      ∀ n, (a.s.vid c (fieldAt d 2 0 16)).1 = some n → a.s.addCheck n (fieldAt d 8 0 64) = .done →
      leads (.beadOpAdd id) s (fun t => ended t ∧ t.beadValue n = a.s.beadValue n + fieldAt d 8 0 64 ∧
        (∀ m, m < 65536 → m ≠ n → t.beadValue m = a.s.beadValue m) ∧ t.mem = a.s.mem ∧ keepsRegs a.s t [Reg.beadValue])) ∧
    (s.issues id 0x0091 x e d tabs a → ∀ v : Bool, s.isRow id 0 0 2 [0, 1, 2, 3] (if v then 0 else 1) = true → fieldAt d 0 0 2 = (if v then 0 else 1) →
      leads (if v then .pegSet id else .pegClear id) s (fun t => ended t ∧ t.peg c (fieldAt d 2 0 12) = v ∧
        (∀ b p, b < 16 → p < 4096 → ¬(b = c ∧ p = fieldAt d 2 0 12) → t.peg b p = a.s.peg b p) ∧ t.mem = a.s.mem ∧ keepsRegs a.s t [Reg.ctxPeg])) ∧
    (s.issues id 0x00A0 x e d tabs a → a.s.tilePresent (fieldAt d 1 0 8) = true →
      leads (.branch id) s (fun t => ended t ∧ t.mem = a.s.mem ∧ keepsRegs a.s t [Reg.ctxRingStatus, Reg.pwrDomStatus] ∧
        t.rd F.ctxRingStatus_HEAD k = (x.count + (if branchTaken (fieldAt d 2 0 3) (x36Of (a.s.slot c (fieldAt d 1 0 8) (fieldAt d 0 0 6)))
          (x36Of (fieldAt d 8 0 36)) then fieldAt d 4 0 32 else 1)) % 2 ^ 32)) ∧
    (s.issues id 0x00C0 x e d tabs a →
      leads (.braceSet id) s (fun t => ended t ∧ t.brace.sets = (if braceEntries d = [] then del a.s.brace.sets c else put a.s.brace.sets c (braceEntries d)) ∧
        t.mem = a.s.mem ∧ t.regs = a.s.regs))

/-! ### Completion of every row -/

/-- Every row completes by its own effect. A command of a ring that may issue (R104 to R109, R581) is handed to its
engine: the rows whose opcode is theirs alone, those that an OP field of the descriptor tells apart, and MEDIA_BATCH
with its front ends awake. A reset of a PCIe function disables (R349); units that hold up a disable are abandoned
(R350); a warm restart enters ROM (R477); a core restarts (R524); a training that finds every lane sound ends
(R299); a wait that has run out ends BEAD_TIMEOUT (R385); a connection whose loss is due is LOST (R455); a read of a
count gives it and clears what a read clears (R12); a mailbox command begins (R576). No row is refused or faults in
any state. -/
def Obligations.EveryRowCompletes : Prop :=
  (∀ (c : Instr) (s : State), ∃ t, exec c s = .next t) ∧
  (∀ (id : CmdId) (s : State) (x : Cmd) (e : Engine) (d : List Byte) (tabs : List (List Byte)) (a : Acc),
    let goes (op : Nat) (c : Instr) : Prop := s.issues id op x e d tabs a →
      exec c s = .next (a.s.launch (CmdKey id) e (e.judged s (CmdKey id) x d tabs))
    goes 0x0010 (.dmaCopy id) ∧ goes 0x0011 (.dmaScatter id) ∧ goes 0x0012 (.dmaGather id) ∧ goes 0x0020 (.gemm id) ∧
    goes 0x0021 (.gemmGrouped id) ∧ goes 0x0030 (.conv id) ∧ goes 0x0031 (.pool id) ∧ goes 0x0040 (.vec id) ∧
    goes 0x0041 (.scan id) ∧ goes 0x0042 (.reduce id) ∧ goes 0x0048 (.convert id) ∧ goes 0x0050 (.attnFwd id) ∧
    goes 0x0051 (.attnBwd id) ∧ goes 0x0052 (.kvAppendScatter id) ∧ goes 0x0060 (.optStep id) ∧ goes 0x0062 (.digest id) ∧
    goes 0x0063 (.stateExport id) ∧ goes 0x00a0 (.branch id) ∧ goes 0x00a1 (.remap id) ∧ goes 0x00b0 (.queuePut id) ∧
    goes 0x00c0 (.braceSet id) ∧ goes 0x0001 (.nop id) ∧
    (∀ v, s.isRow id 0 0 8 [1, 2, 3, 4, 5, 6] v = true →
      (v = 1 → goes 0x0053 (.kvAlloc id)) ∧ (v = 2 → goes 0x0053 (.kvRelease id)) ∧ (v = 3 → goes 0x0053 (.kvShare id)) ∧
      (v = 4 → goes 0x0053 (.kvTreeLookup id)) ∧ (v = 5 → goes 0x0053 (.kvTreeInsert id)) ∧
      (v = 6 → goes 0x0053 (.kvTreeRemove id))) ∧
    (∀ v, s.isRow id 1 0 2 [0, 1, 2] v = true →
      (v = 0 → goes 0x0072 (.loanStepStep id)) ∧ (v = 1 → goes 0x0072 (.loanStepCommit id)) ∧
      (v = 2 → goes 0x0072 (.loanStepFetch id))) ∧
    (∀ v, s.isRow id 1 0 2 [0, 1, 2, 3] v = true →
      (v = 0 → goes 0x0061 (.stepCommit id)) ∧ (v = 1 → goes 0x0061 (.stepCommitResolve id)) ∧
      (v = 2 → goes 0x0061 (.stepCommitForce id)) ∧ (v = 3 → goes 0x0061 (.stepCommitAbstain id))) ∧
    (∀ v, s.isRow id 1 0 4 [0, 1, 2, 3, 4, 5, 8, 9] v = true →
      (v = 0 → goes 0x0070 (.collectiveAllReduce id)) ∧ (v = 1 → goes 0x0070 (.collectiveReduceScatter id)) ∧
      (v = 2 → goes 0x0070 (.collectiveAllGather id)) ∧ (v = 3 → goes 0x0070 (.collectiveAllToAll id)) ∧
      (v = 4 → goes 0x0070 (.collectiveBroadcast id)) ∧ (v = 5 → goes 0x0070 (.collectiveTransfer id)) ∧
      (v = 8 → goes 0x0070 (.collectiveForm id)) ∧ (v = 9 → goes 0x0070 (.collectiveDissolve id))) ∧
    (∀ v, s.isRow id 0 0 2 [0, 1, 2] v = true →
      (v = 0 → goes 0x0071 (.remoteBeadAdd id)) ∧ (v = 1 → goes 0x0071 (.remoteBeadWaitGe id)) ∧
      (v = 2 → goes 0x0071 (.remoteBeadRead id))) ∧
    (∀ v, s.isRow id 0 0 2 [0, 1, 2] v = true →
      (v = 0 → goes 0x0090 (.beadOpAdd id)) ∧ (v = 1 → goes 0x0090 (.beadOpWaitGe id)) ∧
      (v = 2 → goes 0x0090 (.beadOpRead id))) ∧
    (∀ v, s.isRow id 0 0 2 [0, 1, 2, 3] v = true →
      (v = 0 → goes 0x0091 (.pegSet id)) ∧ (v = 1 → goes 0x0091 (.pegClear id)) ∧ (v = 2 → goes 0x0091 (.pegWaitSet id)) ∧
      (v = 3 → goes 0x0091 (.pegWaitClear id))) ∧
    (s.kfeAsleep (CmdKey id) x = [] →
      (s.isRow id 1 2 1 [0, 1] 0 = true → goes 0x0080 (.mediaBatch id)) ∧ (s.isRow id 1 2 1 [0, 1] 1 = true → goes 0x0080 (.mediaBatchLive id)))) ∧
  (∀ s : State, Dev.rom ≤ s.dev → s.dev ≠ Dev.paused →
    let disables (c : Instr) : Prop := leads c s (fun t => (∀ k, k < 16 → t.ctxState k = Ctx.disabling) ∧ t.dev = s.dev)
    disables .perstAssert ∧ disables .hotReset ∧ disables .pf0Flr ∧ disables .vfDisable ∧
    (∀ k : Fin 16, s.ctxState k.val ≠ Ctx.disabling → leads (.vfFlr k) s (fun t => t.ctxState k.val = Ctx.disabling)) ∧
    (∀ k : Fin 16, s.ctxState k.val = Ctx.disabling → (s.ctx k.val).disabledAt + 20000000 ≤ s.ivl →
      leads (.disableUnitDeadline k) s (fun t => ∀ e, e ∈ t.ctxCmds k.val → e.2.stalls = []))) ∧
  (∀ s : State, s.mayRestart = true → (∀ j, s.mbox = some j → j.writes = none) →
    leads .pd01Loss s (fun t => t.dev = Dev.rom) ∧ ∀ w, leads (.watchdogRestart w) s (fun t => t.dev = Dev.rom)) ∧
  (∀ (core : Fin 4) (s : State), s.coreRuns core.val = true → s.rel.held = [] →
    leads (.coreHeartbeatLapse core) s (fun t => t.rd F.mgtCores_LAST_CORE = core.val ∧ t.rd F.mgtCores_LAST_CAUSE = 1) ∧
    leads (.coreMemoryError core) s (fun t => t.rd F.mgtCores_LAST_CORE = core.val ∧ t.rd F.mgtCores_LAST_CAUSE = 2)) ∧
  (∀ (stack : Fin 20) (group : Fin 4) (s : State), s.stackUp stack.val = true →
    let sound : State := { s with rel := { s.rel with retrain := s.rel.retrain.filter (fun g => g != 4 * stack.val + group.val) } }
    exec (.periodicRetrain stack group []) s = .next sound ∧ exec (.earlyRetrain stack group []) s = .next sound) ∧
  (∀ (id : CmdId) (s : State) (x : Cmd), s.cmd id = some x → x.limit ≤ s.waited x → s.rd F.ctxRingCfg_LOG2 (CmdKey id) ≤ 16 →
    let ends (c : Instr) : Prop := leads c s (fun t => ∃ y, t.cmd id = some y ∧ y.phase = .ended ∧ y.status = St.beadTimeout)
    (s.awaitsBead id.ctx.val x = true → ends (.beadWaitExpiry id)) ∧ (s.awaitsPeg id.ctx.val x = true → ends (.pegWaitExpiry id))) ∧
  (∀ (n : Fin 4096) (s : State), s.netUp = true → s.entryHeld n.val → s.quietQueues → s.connCmds n.val = [] →
    (∀ w, w < 16 → s.rd F.netLoanWin_CONN w ≠ n.val) → (∀ g, g ∈ s.grants → g.conn ≠ n.val) →
    let lost (c : Instr) : Prop := leads c s (fun t => t.connState n.val = ConnSt.lost ∧ look t.conns n.val = none)
    (s.roceOpen n.val = true → lost (.roceRetryExhausted n)) ∧
    (s.gctOpen n.val = true → s.lossDue (s.conn n.val) (s.conn n.val).heardAt = true → lost (.connectionLossTimeout n)) ∧
    (s.gctOpen n.val = true → ∀ e : Option (BitVec 32), (e.map (·.toNat)) ≠ some (s.conn n.val).peerEpoch → lost (.gctClose n e))) ∧
  (∀ s : State,
    let reads (c : Instr) (r i : Nat) : Prop := s.unitGone r i = false →
      leads c s (fun t => t.rdata = s.regView r i ∧ ∀ f, f ∈ regFields r → t.rd f i = if f.acc = .rc then 0 else s.rd f i)
    (∀ (fn : Fn) (c : Fin 16), Fn.reaches fn c.val = true → reads (.ctxKvCountsRead fn c) Reg.ctxKvCounts c.val ∧
      reads (.ctxTrainCountsRead fn c) Reg.ctxTrainCounts c.val ∧ reads (.ctxFaultCountsRead fn c) Reg.ctxFaultCounts c.val) ∧
    (∀ n, reads (.memEccCountRead n) Reg.memEccCount n.val) ∧ (∀ fn q, s.queReach fn q.val = true → reads (.queLostRead fn q) Reg.queLost q.val) ∧
    (∀ k, reads (.kfeCountsRead k) Reg.kfeCounts k.val) ∧ (∀ n, reads (.kfeLiveCountRead n) Reg.kfeLiveCount n.val) ∧
    (∀ p, reads (.netPortStatusRead p) Reg.netPortStatus p.val) ∧ (∀ d, reads (.pwrDomStatusRead d) Reg.pwrDomStatus d.val) ∧
    reads .pwrTempRead Reg.pwrTemp 0 ∧ reads .mgtCoresRead Reg.mgtCores 0 ∧ reads .mgtShockRead Reg.mgtShock 0 ∧ reads .hubLinkRead Reg.hubLink 0) ∧
  (∀ s : State, Dev.rom ≤ s.dev → s.mbox = none → s.dutyHeld 0 = false →
    let begins (c : Instr) (cmd : Nat) (args : List (Nat × Nat)) : Prop :=
      let r := (s.mboxTaken cmd args).mboxRun cmd ((List.range 8).map (fun i => (s.mboxArgs cmd args).rd F.hubMboxArg_VALUE i))
      exec c s = .next { r.s with mbox := r.s.mbox.map (fun j =>
        { j with begun := true, result := r.result, detail := r.detail, writes := r.writes }) }
    (∀ addr nonce, begins (.mboxAttest addr nonce) 6 ((0, addr.toNat) :: (List.range 4).map (fun i => (4 + i, leNat (slice nonce (8 * i) 8))))) ∧
    begins .diagRestart 7 [(0, 2)] ∧ ∀ addr, begins (.diagNotices addr) 7 [(0, 3), (1, addr.toNat)])
end

