-- ==== Sys2Proof/Laws/State.lean ====
section
/-!
SUPPORT. What each update of the state leaves in each field: true by `rfl`, for the simplifier.
-/
namespace Sys2Proof.Machine

@[simp] theorem State.setReg_variant (s : State) (r i : Nat) (w : Word) : (s.setReg r i w).variant = s.variant := rfl
@[simp] theorem State.setReg_mem (s : State) (r i : Nat) (w : Word) : (s.setReg r i w).mem = s.mem := rfl
@[simp] theorem State.setReg_ecc (s : State) (r i : Nat) (w : Word) : (s.setReg r i w).ecc = s.ecc := rfl
@[simp] theorem State.setReg_cache (s : State) (r i : Nat) (w : Word) : (s.setReg r i w).cache = s.cache := rfl
@[simp] theorem State.setReg_tlb (s : State) (r i : Nat) (w : Word) : (s.setReg r i w).tlb = s.tlb := rfl
@[simp] theorem State.setReg_beadMap (s : State) (r i : Nat) (w : Word) : (s.setReg r i w).beadMap = s.beadMap := rfl
@[simp] theorem State.setReg_host (s : State) (r i : Nat) (w : Word) : (s.setReg r i w).host = s.host := rfl
@[simp] theorem State.setReg_nvmA (s : State) (r i : Nat) (w : Word) : (s.setReg r i w).nvmA = s.nvmA := rfl
@[simp] theorem State.setReg_nvmB (s : State) (r i : Nat) (w : Word) : (s.setReg r i w).nvmB = s.nvmB := rfl
@[simp] theorem State.setReg_life (s : State) (r i : Nat) (w : Word) : (s.setReg r i w).life = s.life := rfl
@[simp] theorem State.setReg_clk (s : State) (r i : Nat) (w : Word) : (s.setReg r i w).clk = s.clk := rfl
@[simp] theorem State.setReg_pins (s : State) (r i : Nat) (w : Word) : (s.setReg r i w).pins = s.pins := rfl
@[simp] theorem State.setReg_start (s : State) (r i : Nat) (w : Word) : (s.setReg r i w).start = s.start := rfl
@[simp] theorem State.setReg_mbox (s : State) (r i : Nat) (w : Word) : (s.setReg r i w).mbox = s.mbox := rfl
@[simp] theorem State.setReg_sec (s : State) (r i : Nat) (w : Word) : (s.setReg r i w).sec = s.sec := rfl
@[simp] theorem State.setReg_ctxs (s : State) (r i : Nat) (w : Word) : (s.setReg r i w).ctxs = s.ctxs := rfl
@[simp] theorem State.setReg_rings (s : State) (r i : Nat) (w : Word) : (s.setReg r i w).rings = s.rings := rfl
@[simp] theorem State.setReg_served (s : State) (r i : Nat) (w : Word) : (s.setReg r i w).served = s.served := rfl
@[simp] theorem State.setReg_seedGens (s : State) (r i : Nat) (w : Word) : (s.setReg r i w).seedGens = s.seedGens := rfl
@[simp] theorem State.setReg_pf0Reset (s : State) (r i : Nat) (w : Word) : (s.setReg r i w).pf0Reset = s.pf0Reset := rfl
@[simp] theorem State.setReg_slots (s : State) (r i : Nat) (w : Word) : (s.setReg r i w).slots = s.slots := rfl
@[simp] theorem State.setReg_queues (s : State) (r i : Nat) (w : Word) : (s.setReg r i w).queues = s.queues := rfl
@[simp] theorem State.setReg_conns (s : State) (r i : Nat) (w : Word) : (s.setReg r i w).conns = s.conns := rfl
@[simp] theorem State.setReg_net (s : State) (r i : Nat) (w : Word) : (s.setReg r i w).net = s.net := rfl
@[simp] theorem State.setReg_groups (s : State) (r i : Nat) (w : Word) : (s.setReg r i w).groups = s.groups := rfl
@[simp] theorem State.setReg_grants (s : State) (r i : Nat) (w : Word) : (s.setReg r i w).grants = s.grants := rfl
@[simp] theorem State.setReg_rwaits (s : State) (r i : Nat) (w : Word) : (s.setReg r i w).rwaits = s.rwaits := rfl
@[simp] theorem State.setReg_brace (s : State) (r i : Nat) (w : Word) : (s.setReg r i w).brace = s.brace := rfl
@[simp] theorem State.setReg_pwr (s : State) (r i : Nat) (w : Word) : (s.setReg r i w).pwr = s.pwr := rfl
@[simp] theorem State.setReg_rel (s : State) (r i : Nat) (w : Word) : (s.setReg r i w).rel = s.rel := rfl
@[simp] theorem State.setReg_kfe (s : State) (r i : Nat) (w : Word) : (s.setReg r i w).kfe = s.kfe := rfl
@[simp] theorem State.setReg_msix (s : State) (r i : Nat) (w : Word) : (s.setReg r i w).msix = s.msix := rfl
@[simp] theorem State.setReg_rate (s : State) (r i : Nat) (w : Word) : (s.setReg r i w).rate = s.rate := rfl
@[simp] theorem State.setReg_out (s : State) (r i : Nat) (w : Word) : (s.setReg r i w).out = s.out := rfl
@[simp] theorem State.setReg_rdata (s : State) (r i : Nat) (w : Word) : (s.setReg r i w).rdata = s.rdata := rfl
@[simp] theorem State.setReg_nfree (s : State) (r i : Nat) (w : Word) : (s.setReg r i w).nfree = s.nfree := rfl
@[simp] theorem State.setReg_pending (s : State) (r i : Nat) (w : Word) : (s.setReg r i w).pending = s.pending := rfl

@[simp] theorem State.wr_variant (s : State) (f : Fld) (i v : Nat) : (s.wr f i v).variant = s.variant := rfl
@[simp] theorem State.wr_mem (s : State) (f : Fld) (i v : Nat) : (s.wr f i v).mem = s.mem := rfl
@[simp] theorem State.wr_ecc (s : State) (f : Fld) (i v : Nat) : (s.wr f i v).ecc = s.ecc := rfl
@[simp] theorem State.wr_cache (s : State) (f : Fld) (i v : Nat) : (s.wr f i v).cache = s.cache := rfl
@[simp] theorem State.wr_tlb (s : State) (f : Fld) (i v : Nat) : (s.wr f i v).tlb = s.tlb := rfl
@[simp] theorem State.wr_beadMap (s : State) (f : Fld) (i v : Nat) : (s.wr f i v).beadMap = s.beadMap := rfl
@[simp] theorem State.wr_host (s : State) (f : Fld) (i v : Nat) : (s.wr f i v).host = s.host := rfl
@[simp] theorem State.wr_nvmA (s : State) (f : Fld) (i v : Nat) : (s.wr f i v).nvmA = s.nvmA := rfl
@[simp] theorem State.wr_nvmB (s : State) (f : Fld) (i v : Nat) : (s.wr f i v).nvmB = s.nvmB := rfl
@[simp] theorem State.wr_life (s : State) (f : Fld) (i v : Nat) : (s.wr f i v).life = s.life := rfl
@[simp] theorem State.wr_clk (s : State) (f : Fld) (i v : Nat) : (s.wr f i v).clk = s.clk := rfl
@[simp] theorem State.wr_pins (s : State) (f : Fld) (i v : Nat) : (s.wr f i v).pins = s.pins := rfl
@[simp] theorem State.wr_start (s : State) (f : Fld) (i v : Nat) : (s.wr f i v).start = s.start := rfl
@[simp] theorem State.wr_mbox (s : State) (f : Fld) (i v : Nat) : (s.wr f i v).mbox = s.mbox := rfl
@[simp] theorem State.wr_sec (s : State) (f : Fld) (i v : Nat) : (s.wr f i v).sec = s.sec := rfl
@[simp] theorem State.wr_ctxs (s : State) (f : Fld) (i v : Nat) : (s.wr f i v).ctxs = s.ctxs := rfl
@[simp] theorem State.wr_rings (s : State) (f : Fld) (i v : Nat) : (s.wr f i v).rings = s.rings := rfl
@[simp] theorem State.wr_served (s : State) (f : Fld) (i v : Nat) : (s.wr f i v).served = s.served := rfl
@[simp] theorem State.wr_seedGens (s : State) (f : Fld) (i v : Nat) : (s.wr f i v).seedGens = s.seedGens := rfl
@[simp] theorem State.wr_pf0Reset (s : State) (f : Fld) (i v : Nat) : (s.wr f i v).pf0Reset = s.pf0Reset := rfl
@[simp] theorem State.wr_slots (s : State) (f : Fld) (i v : Nat) : (s.wr f i v).slots = s.slots := rfl
@[simp] theorem State.wr_queues (s : State) (f : Fld) (i v : Nat) : (s.wr f i v).queues = s.queues := rfl
@[simp] theorem State.wr_conns (s : State) (f : Fld) (i v : Nat) : (s.wr f i v).conns = s.conns := rfl
@[simp] theorem State.wr_net (s : State) (f : Fld) (i v : Nat) : (s.wr f i v).net = s.net := rfl
@[simp] theorem State.wr_groups (s : State) (f : Fld) (i v : Nat) : (s.wr f i v).groups = s.groups := rfl
@[simp] theorem State.wr_grants (s : State) (f : Fld) (i v : Nat) : (s.wr f i v).grants = s.grants := rfl
@[simp] theorem State.wr_rwaits (s : State) (f : Fld) (i v : Nat) : (s.wr f i v).rwaits = s.rwaits := rfl
@[simp] theorem State.wr_brace (s : State) (f : Fld) (i v : Nat) : (s.wr f i v).brace = s.brace := rfl
@[simp] theorem State.wr_pwr (s : State) (f : Fld) (i v : Nat) : (s.wr f i v).pwr = s.pwr := rfl
@[simp] theorem State.wr_rel (s : State) (f : Fld) (i v : Nat) : (s.wr f i v).rel = s.rel := rfl
@[simp] theorem State.wr_kfe (s : State) (f : Fld) (i v : Nat) : (s.wr f i v).kfe = s.kfe := rfl
@[simp] theorem State.wr_msix (s : State) (f : Fld) (i v : Nat) : (s.wr f i v).msix = s.msix := rfl
@[simp] theorem State.wr_rate (s : State) (f : Fld) (i v : Nat) : (s.wr f i v).rate = s.rate := rfl
@[simp] theorem State.wr_out (s : State) (f : Fld) (i v : Nat) : (s.wr f i v).out = s.out := rfl
@[simp] theorem State.wr_rdata (s : State) (f : Fld) (i v : Nat) : (s.wr f i v).rdata = s.rdata := rfl
@[simp] theorem State.wr_nfree (s : State) (f : Fld) (i v : Nat) : (s.wr f i v).nfree = s.nfree := rfl
@[simp] theorem State.wr_pending (s : State) (f : Fld) (i v : Nat) : (s.wr f i v).pending = s.pending := rfl

@[simp] theorem State.count_variant (s : State) (f : Fld) (i n : Nat) : (s.count f i n).variant = s.variant := rfl
@[simp] theorem State.count_mem (s : State) (f : Fld) (i n : Nat) : (s.count f i n).mem = s.mem := rfl
@[simp] theorem State.count_ecc (s : State) (f : Fld) (i n : Nat) : (s.count f i n).ecc = s.ecc := rfl
@[simp] theorem State.count_cache (s : State) (f : Fld) (i n : Nat) : (s.count f i n).cache = s.cache := rfl
@[simp] theorem State.count_tlb (s : State) (f : Fld) (i n : Nat) : (s.count f i n).tlb = s.tlb := rfl
@[simp] theorem State.count_beadMap (s : State) (f : Fld) (i n : Nat) : (s.count f i n).beadMap = s.beadMap := rfl
@[simp] theorem State.count_host (s : State) (f : Fld) (i n : Nat) : (s.count f i n).host = s.host := rfl
@[simp] theorem State.count_nvmA (s : State) (f : Fld) (i n : Nat) : (s.count f i n).nvmA = s.nvmA := rfl
@[simp] theorem State.count_nvmB (s : State) (f : Fld) (i n : Nat) : (s.count f i n).nvmB = s.nvmB := rfl
@[simp] theorem State.count_life (s : State) (f : Fld) (i n : Nat) : (s.count f i n).life = s.life := rfl
@[simp] theorem State.count_clk (s : State) (f : Fld) (i n : Nat) : (s.count f i n).clk = s.clk := rfl
@[simp] theorem State.count_pins (s : State) (f : Fld) (i n : Nat) : (s.count f i n).pins = s.pins := rfl
@[simp] theorem State.count_start (s : State) (f : Fld) (i n : Nat) : (s.count f i n).start = s.start := rfl
@[simp] theorem State.count_mbox (s : State) (f : Fld) (i n : Nat) : (s.count f i n).mbox = s.mbox := rfl
@[simp] theorem State.count_sec (s : State) (f : Fld) (i n : Nat) : (s.count f i n).sec = s.sec := rfl
@[simp] theorem State.count_ctxs (s : State) (f : Fld) (i n : Nat) : (s.count f i n).ctxs = s.ctxs := rfl
@[simp] theorem State.count_rings (s : State) (f : Fld) (i n : Nat) : (s.count f i n).rings = s.rings := rfl
@[simp] theorem State.count_served (s : State) (f : Fld) (i n : Nat) : (s.count f i n).served = s.served := rfl
@[simp] theorem State.count_seedGens (s : State) (f : Fld) (i n : Nat) : (s.count f i n).seedGens = s.seedGens := rfl
@[simp] theorem State.count_pf0Reset (s : State) (f : Fld) (i n : Nat) : (s.count f i n).pf0Reset = s.pf0Reset := rfl
@[simp] theorem State.count_slots (s : State) (f : Fld) (i n : Nat) : (s.count f i n).slots = s.slots := rfl
@[simp] theorem State.count_queues (s : State) (f : Fld) (i n : Nat) : (s.count f i n).queues = s.queues := rfl
@[simp] theorem State.count_conns (s : State) (f : Fld) (i n : Nat) : (s.count f i n).conns = s.conns := rfl
@[simp] theorem State.count_net (s : State) (f : Fld) (i n : Nat) : (s.count f i n).net = s.net := rfl
@[simp] theorem State.count_groups (s : State) (f : Fld) (i n : Nat) : (s.count f i n).groups = s.groups := rfl
@[simp] theorem State.count_grants (s : State) (f : Fld) (i n : Nat) : (s.count f i n).grants = s.grants := rfl
@[simp] theorem State.count_rwaits (s : State) (f : Fld) (i n : Nat) : (s.count f i n).rwaits = s.rwaits := rfl
@[simp] theorem State.count_brace (s : State) (f : Fld) (i n : Nat) : (s.count f i n).brace = s.brace := rfl
@[simp] theorem State.count_pwr (s : State) (f : Fld) (i n : Nat) : (s.count f i n).pwr = s.pwr := rfl
@[simp] theorem State.count_rel (s : State) (f : Fld) (i n : Nat) : (s.count f i n).rel = s.rel := rfl
@[simp] theorem State.count_kfe (s : State) (f : Fld) (i n : Nat) : (s.count f i n).kfe = s.kfe := rfl
@[simp] theorem State.count_msix (s : State) (f : Fld) (i n : Nat) : (s.count f i n).msix = s.msix := rfl
@[simp] theorem State.count_rate (s : State) (f : Fld) (i n : Nat) : (s.count f i n).rate = s.rate := rfl
@[simp] theorem State.count_out (s : State) (f : Fld) (i n : Nat) : (s.count f i n).out = s.out := rfl
@[simp] theorem State.count_rdata (s : State) (f : Fld) (i n : Nat) : (s.count f i n).rdata = s.rdata := rfl
@[simp] theorem State.count_nfree (s : State) (f : Fld) (i n : Nat) : (s.count f i n).nfree = s.nfree := rfl
@[simp] theorem State.count_pending (s : State) (f : Fld) (i n : Nat) : (s.count f i n).pending = s.pending := rfl

@[simp] theorem State.setDom_variant (s : State) (d v : Nat) : (s.setDom d v).variant = s.variant := rfl
@[simp] theorem State.setDom_mem (s : State) (d v : Nat) : (s.setDom d v).mem = s.mem := rfl
@[simp] theorem State.setDom_ecc (s : State) (d v : Nat) : (s.setDom d v).ecc = s.ecc := rfl
@[simp] theorem State.setDom_cache (s : State) (d v : Nat) : (s.setDom d v).cache = s.cache := rfl
@[simp] theorem State.setDom_tlb (s : State) (d v : Nat) : (s.setDom d v).tlb = s.tlb := rfl
@[simp] theorem State.setDom_beadMap (s : State) (d v : Nat) : (s.setDom d v).beadMap = s.beadMap := rfl
@[simp] theorem State.setDom_host (s : State) (d v : Nat) : (s.setDom d v).host = s.host := rfl
@[simp] theorem State.setDom_nvmA (s : State) (d v : Nat) : (s.setDom d v).nvmA = s.nvmA := rfl
@[simp] theorem State.setDom_nvmB (s : State) (d v : Nat) : (s.setDom d v).nvmB = s.nvmB := rfl
@[simp] theorem State.setDom_life (s : State) (d v : Nat) : (s.setDom d v).life = s.life := rfl
@[simp] theorem State.setDom_clk (s : State) (d v : Nat) : (s.setDom d v).clk = s.clk := rfl
@[simp] theorem State.setDom_pins (s : State) (d v : Nat) : (s.setDom d v).pins = s.pins := rfl
@[simp] theorem State.setDom_start (s : State) (d v : Nat) : (s.setDom d v).start = s.start := rfl
@[simp] theorem State.setDom_mbox (s : State) (d v : Nat) : (s.setDom d v).mbox = s.mbox := rfl
@[simp] theorem State.setDom_sec (s : State) (d v : Nat) : (s.setDom d v).sec = s.sec := rfl
@[simp] theorem State.setDom_ctxs (s : State) (d v : Nat) : (s.setDom d v).ctxs = s.ctxs := rfl
@[simp] theorem State.setDom_rings (s : State) (d v : Nat) : (s.setDom d v).rings = s.rings := rfl
@[simp] theorem State.setDom_served (s : State) (d v : Nat) : (s.setDom d v).served = s.served := rfl
@[simp] theorem State.setDom_seedGens (s : State) (d v : Nat) : (s.setDom d v).seedGens = s.seedGens := rfl
@[simp] theorem State.setDom_pf0Reset (s : State) (d v : Nat) : (s.setDom d v).pf0Reset = s.pf0Reset := rfl
@[simp] theorem State.setDom_slots (s : State) (d v : Nat) : (s.setDom d v).slots = s.slots := rfl
@[simp] theorem State.setDom_queues (s : State) (d v : Nat) : (s.setDom d v).queues = s.queues := rfl
@[simp] theorem State.setDom_conns (s : State) (d v : Nat) : (s.setDom d v).conns = s.conns := rfl
@[simp] theorem State.setDom_net (s : State) (d v : Nat) : (s.setDom d v).net = s.net := rfl
@[simp] theorem State.setDom_groups (s : State) (d v : Nat) : (s.setDom d v).groups = s.groups := rfl
@[simp] theorem State.setDom_grants (s : State) (d v : Nat) : (s.setDom d v).grants = s.grants := rfl
@[simp] theorem State.setDom_rwaits (s : State) (d v : Nat) : (s.setDom d v).rwaits = s.rwaits := rfl
@[simp] theorem State.setDom_brace (s : State) (d v : Nat) : (s.setDom d v).brace = s.brace := rfl
@[simp] theorem State.setDom_pwr (s : State) (d v : Nat) : (s.setDom d v).pwr = s.pwr := rfl
@[simp] theorem State.setDom_rel (s : State) (d v : Nat) : (s.setDom d v).rel = s.rel := rfl
@[simp] theorem State.setDom_kfe (s : State) (d v : Nat) : (s.setDom d v).kfe = s.kfe := rfl
@[simp] theorem State.setDom_msix (s : State) (d v : Nat) : (s.setDom d v).msix = s.msix := rfl
@[simp] theorem State.setDom_rate (s : State) (d v : Nat) : (s.setDom d v).rate = s.rate := rfl
@[simp] theorem State.setDom_out (s : State) (d v : Nat) : (s.setDom d v).out = s.out := rfl
@[simp] theorem State.setDom_rdata (s : State) (d v : Nat) : (s.setDom d v).rdata = s.rdata := rfl
@[simp] theorem State.setDom_nfree (s : State) (d v : Nat) : (s.setDom d v).nfree = s.nfree := rfl
@[simp] theorem State.setDom_pending (s : State) (d v : Nat) : (s.setDom d v).pending = s.pending := rfl

@[simp] theorem State.goto_variant (s : State) (d : Nat) : (s.goto d).variant = s.variant := rfl
@[simp] theorem State.goto_mem (s : State) (d : Nat) : (s.goto d).mem = s.mem := rfl
@[simp] theorem State.goto_ecc (s : State) (d : Nat) : (s.goto d).ecc = s.ecc := rfl
@[simp] theorem State.goto_cache (s : State) (d : Nat) : (s.goto d).cache = s.cache := rfl
@[simp] theorem State.goto_tlb (s : State) (d : Nat) : (s.goto d).tlb = s.tlb := rfl
@[simp] theorem State.goto_beadMap (s : State) (d : Nat) : (s.goto d).beadMap = s.beadMap := rfl
@[simp] theorem State.goto_host (s : State) (d : Nat) : (s.goto d).host = s.host := rfl
@[simp] theorem State.goto_nvmA (s : State) (d : Nat) : (s.goto d).nvmA = s.nvmA := rfl
@[simp] theorem State.goto_nvmB (s : State) (d : Nat) : (s.goto d).nvmB = s.nvmB := rfl
@[simp] theorem State.goto_life (s : State) (d : Nat) : (s.goto d).life = s.life := rfl
@[simp] theorem State.goto_clk (s : State) (d : Nat) : (s.goto d).clk = s.clk := rfl
@[simp] theorem State.goto_pins (s : State) (d : Nat) : (s.goto d).pins = s.pins := rfl
@[simp] theorem State.goto_start (s : State) (d : Nat) : (s.goto d).start = s.start := rfl
@[simp] theorem State.goto_mbox (s : State) (d : Nat) : (s.goto d).mbox = s.mbox := rfl
@[simp] theorem State.goto_sec (s : State) (d : Nat) : (s.goto d).sec = s.sec := rfl
@[simp] theorem State.goto_ctxs (s : State) (d : Nat) : (s.goto d).ctxs = s.ctxs := rfl
@[simp] theorem State.goto_rings (s : State) (d : Nat) : (s.goto d).rings = s.rings := rfl
@[simp] theorem State.goto_served (s : State) (d : Nat) : (s.goto d).served = s.served := rfl
@[simp] theorem State.goto_seedGens (s : State) (d : Nat) : (s.goto d).seedGens = s.seedGens := rfl
@[simp] theorem State.goto_pf0Reset (s : State) (d : Nat) : (s.goto d).pf0Reset = s.pf0Reset := rfl
@[simp] theorem State.goto_slots (s : State) (d : Nat) : (s.goto d).slots = s.slots := rfl
@[simp] theorem State.goto_queues (s : State) (d : Nat) : (s.goto d).queues = s.queues := rfl
@[simp] theorem State.goto_conns (s : State) (d : Nat) : (s.goto d).conns = s.conns := rfl
@[simp] theorem State.goto_net (s : State) (d : Nat) : (s.goto d).net = s.net := rfl
@[simp] theorem State.goto_groups (s : State) (d : Nat) : (s.goto d).groups = s.groups := rfl
@[simp] theorem State.goto_grants (s : State) (d : Nat) : (s.goto d).grants = s.grants := rfl
@[simp] theorem State.goto_rwaits (s : State) (d : Nat) : (s.goto d).rwaits = s.rwaits := rfl
@[simp] theorem State.goto_brace (s : State) (d : Nat) : (s.goto d).brace = s.brace := rfl
@[simp] theorem State.goto_pwr (s : State) (d : Nat) : (s.goto d).pwr = s.pwr := rfl
@[simp] theorem State.goto_rel (s : State) (d : Nat) : (s.goto d).rel = s.rel := rfl
@[simp] theorem State.goto_kfe (s : State) (d : Nat) : (s.goto d).kfe = s.kfe := rfl
@[simp] theorem State.goto_msix (s : State) (d : Nat) : (s.goto d).msix = s.msix := rfl
@[simp] theorem State.goto_rate (s : State) (d : Nat) : (s.goto d).rate = s.rate := rfl
@[simp] theorem State.goto_out (s : State) (d : Nat) : (s.goto d).out = s.out := rfl
@[simp] theorem State.goto_rdata (s : State) (d : Nat) : (s.goto d).rdata = s.rdata := rfl
@[simp] theorem State.goto_nfree (s : State) (d : Nat) : (s.goto d).nfree = s.nfree := rfl
@[simp] theorem State.goto_pending (s : State) (d : Nat) : (s.goto d).pending = s.pending := rfl

@[simp] theorem State.halt_variant (s : State) (c : Nat) : (s.halt c).variant = s.variant := rfl
@[simp] theorem State.halt_mem (s : State) (c : Nat) : (s.halt c).mem = s.mem := rfl
@[simp] theorem State.halt_ecc (s : State) (c : Nat) : (s.halt c).ecc = s.ecc := rfl
@[simp] theorem State.halt_cache (s : State) (c : Nat) : (s.halt c).cache = s.cache := rfl
@[simp] theorem State.halt_tlb (s : State) (c : Nat) : (s.halt c).tlb = s.tlb := rfl
@[simp] theorem State.halt_beadMap (s : State) (c : Nat) : (s.halt c).beadMap = s.beadMap := rfl
@[simp] theorem State.halt_host (s : State) (c : Nat) : (s.halt c).host = s.host := rfl
@[simp] theorem State.halt_nvmA (s : State) (c : Nat) : (s.halt c).nvmA = s.nvmA := rfl
@[simp] theorem State.halt_nvmB (s : State) (c : Nat) : (s.halt c).nvmB = s.nvmB := rfl
@[simp] theorem State.halt_life (s : State) (c : Nat) : (s.halt c).life = s.life := rfl
@[simp] theorem State.halt_clk (s : State) (c : Nat) : (s.halt c).clk = s.clk := rfl
@[simp] theorem State.halt_pins (s : State) (c : Nat) : (s.halt c).pins = s.pins := rfl
@[simp] theorem State.halt_start (s : State) (c : Nat) : (s.halt c).start = s.start := rfl
@[simp] theorem State.halt_mbox (s : State) (c : Nat) : (s.halt c).mbox = s.mbox := rfl
@[simp] theorem State.halt_sec (s : State) (c : Nat) : (s.halt c).sec = s.sec := rfl
@[simp] theorem State.halt_ctxs (s : State) (c : Nat) : (s.halt c).ctxs = s.ctxs := rfl
@[simp] theorem State.halt_rings (s : State) (c : Nat) : (s.halt c).rings = s.rings := rfl
@[simp] theorem State.halt_served (s : State) (c : Nat) : (s.halt c).served = s.served := rfl
@[simp] theorem State.halt_seedGens (s : State) (c : Nat) : (s.halt c).seedGens = s.seedGens := rfl
@[simp] theorem State.halt_pf0Reset (s : State) (c : Nat) : (s.halt c).pf0Reset = s.pf0Reset := rfl
@[simp] theorem State.halt_slots (s : State) (c : Nat) : (s.halt c).slots = s.slots := rfl
@[simp] theorem State.halt_queues (s : State) (c : Nat) : (s.halt c).queues = s.queues := rfl
@[simp] theorem State.halt_conns (s : State) (c : Nat) : (s.halt c).conns = s.conns := rfl
@[simp] theorem State.halt_net (s : State) (c : Nat) : (s.halt c).net = s.net := rfl
@[simp] theorem State.halt_groups (s : State) (c : Nat) : (s.halt c).groups = s.groups := rfl
@[simp] theorem State.halt_grants (s : State) (c : Nat) : (s.halt c).grants = s.grants := rfl
@[simp] theorem State.halt_rwaits (s : State) (c : Nat) : (s.halt c).rwaits = s.rwaits := rfl
@[simp] theorem State.halt_brace (s : State) (c : Nat) : (s.halt c).brace = s.brace := rfl
@[simp] theorem State.halt_pwr (s : State) (c : Nat) : (s.halt c).pwr = s.pwr := rfl
@[simp] theorem State.halt_rel (s : State) (c : Nat) : (s.halt c).rel = s.rel := rfl
@[simp] theorem State.halt_kfe (s : State) (c : Nat) : (s.halt c).kfe = s.kfe := rfl
@[simp] theorem State.halt_msix (s : State) (c : Nat) : (s.halt c).msix = s.msix := rfl
@[simp] theorem State.halt_rate (s : State) (c : Nat) : (s.halt c).rate = s.rate := rfl
@[simp] theorem State.halt_out (s : State) (c : Nat) : (s.halt c).out = s.out := rfl
@[simp] theorem State.halt_rdata (s : State) (c : Nat) : (s.halt c).rdata = s.rdata := rfl
@[simp] theorem State.halt_nfree (s : State) (c : Nat) : (s.halt c).nfree = s.nfree := rfl
@[simp] theorem State.halt_pending (s : State) (c : Nat) : (s.halt c).pending = s.pending := rfl

@[simp] theorem State.setRing_variant (s : State) (k : Nat) (r : Ring) : (s.setRing k r).variant = s.variant := rfl
@[simp] theorem State.setRing_regs (s : State) (k : Nat) (r : Ring) : (s.setRing k r).regs = s.regs := rfl
@[simp] theorem State.setRing_mem (s : State) (k : Nat) (r : Ring) : (s.setRing k r).mem = s.mem := rfl
@[simp] theorem State.setRing_ecc (s : State) (k : Nat) (r : Ring) : (s.setRing k r).ecc = s.ecc := rfl
@[simp] theorem State.setRing_cache (s : State) (k : Nat) (r : Ring) : (s.setRing k r).cache = s.cache := rfl
@[simp] theorem State.setRing_tlb (s : State) (k : Nat) (r : Ring) : (s.setRing k r).tlb = s.tlb := rfl
@[simp] theorem State.setRing_beadMap (s : State) (k : Nat) (r : Ring) : (s.setRing k r).beadMap = s.beadMap := rfl
@[simp] theorem State.setRing_host (s : State) (k : Nat) (r : Ring) : (s.setRing k r).host = s.host := rfl
@[simp] theorem State.setRing_nvmA (s : State) (k : Nat) (r : Ring) : (s.setRing k r).nvmA = s.nvmA := rfl
@[simp] theorem State.setRing_nvmB (s : State) (k : Nat) (r : Ring) : (s.setRing k r).nvmB = s.nvmB := rfl
@[simp] theorem State.setRing_life (s : State) (k : Nat) (r : Ring) : (s.setRing k r).life = s.life := rfl
@[simp] theorem State.setRing_clk (s : State) (k : Nat) (r : Ring) : (s.setRing k r).clk = s.clk := rfl
@[simp] theorem State.setRing_pins (s : State) (k : Nat) (r : Ring) : (s.setRing k r).pins = s.pins := rfl
@[simp] theorem State.setRing_start (s : State) (k : Nat) (r : Ring) : (s.setRing k r).start = s.start := rfl
@[simp] theorem State.setRing_mbox (s : State) (k : Nat) (r : Ring) : (s.setRing k r).mbox = s.mbox := rfl
@[simp] theorem State.setRing_sec (s : State) (k : Nat) (r : Ring) : (s.setRing k r).sec = s.sec := rfl
@[simp] theorem State.setRing_ctxs (s : State) (k : Nat) (r : Ring) : (s.setRing k r).ctxs = s.ctxs := rfl
@[simp] theorem State.setRing_served (s : State) (k : Nat) (r : Ring) : (s.setRing k r).served = s.served := rfl
@[simp] theorem State.setRing_seedGens (s : State) (k : Nat) (r : Ring) : (s.setRing k r).seedGens = s.seedGens := rfl
@[simp] theorem State.setRing_pf0Reset (s : State) (k : Nat) (r : Ring) : (s.setRing k r).pf0Reset = s.pf0Reset := rfl
@[simp] theorem State.setRing_slots (s : State) (k : Nat) (r : Ring) : (s.setRing k r).slots = s.slots := rfl
@[simp] theorem State.setRing_queues (s : State) (k : Nat) (r : Ring) : (s.setRing k r).queues = s.queues := rfl
@[simp] theorem State.setRing_conns (s : State) (k : Nat) (r : Ring) : (s.setRing k r).conns = s.conns := rfl
@[simp] theorem State.setRing_net (s : State) (k : Nat) (r : Ring) : (s.setRing k r).net = s.net := rfl
@[simp] theorem State.setRing_groups (s : State) (k : Nat) (r : Ring) : (s.setRing k r).groups = s.groups := rfl
@[simp] theorem State.setRing_grants (s : State) (k : Nat) (r : Ring) : (s.setRing k r).grants = s.grants := rfl
@[simp] theorem State.setRing_rwaits (s : State) (k : Nat) (r : Ring) : (s.setRing k r).rwaits = s.rwaits := rfl
@[simp] theorem State.setRing_brace (s : State) (k : Nat) (r : Ring) : (s.setRing k r).brace = s.brace := rfl
@[simp] theorem State.setRing_pwr (s : State) (k : Nat) (r : Ring) : (s.setRing k r).pwr = s.pwr := rfl
@[simp] theorem State.setRing_rel (s : State) (k : Nat) (r : Ring) : (s.setRing k r).rel = s.rel := rfl
@[simp] theorem State.setRing_kfe (s : State) (k : Nat) (r : Ring) : (s.setRing k r).kfe = s.kfe := rfl
@[simp] theorem State.setRing_msix (s : State) (k : Nat) (r : Ring) : (s.setRing k r).msix = s.msix := rfl
@[simp] theorem State.setRing_rate (s : State) (k : Nat) (r : Ring) : (s.setRing k r).rate = s.rate := rfl
@[simp] theorem State.setRing_out (s : State) (k : Nat) (r : Ring) : (s.setRing k r).out = s.out := rfl
@[simp] theorem State.setRing_rdata (s : State) (k : Nat) (r : Ring) : (s.setRing k r).rdata = s.rdata := rfl
@[simp] theorem State.setRing_nfree (s : State) (k : Nat) (r : Ring) : (s.setRing k r).nfree = s.nfree := rfl
@[simp] theorem State.setRing_pending (s : State) (k : Nat) (r : Ring) : (s.setRing k r).pending = s.pending := rfl

@[simp] theorem State.setCtx_variant (s : State) (c : Nat) (x : CtxRt) : (s.setCtx c x).variant = s.variant := rfl
@[simp] theorem State.setCtx_regs (s : State) (c : Nat) (x : CtxRt) : (s.setCtx c x).regs = s.regs := rfl
@[simp] theorem State.setCtx_mem (s : State) (c : Nat) (x : CtxRt) : (s.setCtx c x).mem = s.mem := rfl
@[simp] theorem State.setCtx_ecc (s : State) (c : Nat) (x : CtxRt) : (s.setCtx c x).ecc = s.ecc := rfl
@[simp] theorem State.setCtx_cache (s : State) (c : Nat) (x : CtxRt) : (s.setCtx c x).cache = s.cache := rfl
@[simp] theorem State.setCtx_tlb (s : State) (c : Nat) (x : CtxRt) : (s.setCtx c x).tlb = s.tlb := rfl
@[simp] theorem State.setCtx_beadMap (s : State) (c : Nat) (x : CtxRt) : (s.setCtx c x).beadMap = s.beadMap := rfl
@[simp] theorem State.setCtx_host (s : State) (c : Nat) (x : CtxRt) : (s.setCtx c x).host = s.host := rfl
@[simp] theorem State.setCtx_nvmA (s : State) (c : Nat) (x : CtxRt) : (s.setCtx c x).nvmA = s.nvmA := rfl
@[simp] theorem State.setCtx_nvmB (s : State) (c : Nat) (x : CtxRt) : (s.setCtx c x).nvmB = s.nvmB := rfl
@[simp] theorem State.setCtx_life (s : State) (c : Nat) (x : CtxRt) : (s.setCtx c x).life = s.life := rfl
@[simp] theorem State.setCtx_clk (s : State) (c : Nat) (x : CtxRt) : (s.setCtx c x).clk = s.clk := rfl
@[simp] theorem State.setCtx_pins (s : State) (c : Nat) (x : CtxRt) : (s.setCtx c x).pins = s.pins := rfl
@[simp] theorem State.setCtx_start (s : State) (c : Nat) (x : CtxRt) : (s.setCtx c x).start = s.start := rfl
@[simp] theorem State.setCtx_mbox (s : State) (c : Nat) (x : CtxRt) : (s.setCtx c x).mbox = s.mbox := rfl
@[simp] theorem State.setCtx_sec (s : State) (c : Nat) (x : CtxRt) : (s.setCtx c x).sec = s.sec := rfl
@[simp] theorem State.setCtx_rings (s : State) (c : Nat) (x : CtxRt) : (s.setCtx c x).rings = s.rings := rfl
@[simp] theorem State.setCtx_served (s : State) (c : Nat) (x : CtxRt) : (s.setCtx c x).served = s.served := rfl
@[simp] theorem State.setCtx_seedGens (s : State) (c : Nat) (x : CtxRt) : (s.setCtx c x).seedGens = s.seedGens := rfl
@[simp] theorem State.setCtx_pf0Reset (s : State) (c : Nat) (x : CtxRt) : (s.setCtx c x).pf0Reset = s.pf0Reset := rfl
@[simp] theorem State.setCtx_slots (s : State) (c : Nat) (x : CtxRt) : (s.setCtx c x).slots = s.slots := rfl
@[simp] theorem State.setCtx_queues (s : State) (c : Nat) (x : CtxRt) : (s.setCtx c x).queues = s.queues := rfl
@[simp] theorem State.setCtx_conns (s : State) (c : Nat) (x : CtxRt) : (s.setCtx c x).conns = s.conns := rfl
@[simp] theorem State.setCtx_net (s : State) (c : Nat) (x : CtxRt) : (s.setCtx c x).net = s.net := rfl
@[simp] theorem State.setCtx_groups (s : State) (c : Nat) (x : CtxRt) : (s.setCtx c x).groups = s.groups := rfl
@[simp] theorem State.setCtx_grants (s : State) (c : Nat) (x : CtxRt) : (s.setCtx c x).grants = s.grants := rfl
@[simp] theorem State.setCtx_rwaits (s : State) (c : Nat) (x : CtxRt) : (s.setCtx c x).rwaits = s.rwaits := rfl
@[simp] theorem State.setCtx_brace (s : State) (c : Nat) (x : CtxRt) : (s.setCtx c x).brace = s.brace := rfl
@[simp] theorem State.setCtx_pwr (s : State) (c : Nat) (x : CtxRt) : (s.setCtx c x).pwr = s.pwr := rfl
@[simp] theorem State.setCtx_rel (s : State) (c : Nat) (x : CtxRt) : (s.setCtx c x).rel = s.rel := rfl
@[simp] theorem State.setCtx_kfe (s : State) (c : Nat) (x : CtxRt) : (s.setCtx c x).kfe = s.kfe := rfl
@[simp] theorem State.setCtx_msix (s : State) (c : Nat) (x : CtxRt) : (s.setCtx c x).msix = s.msix := rfl
@[simp] theorem State.setCtx_rate (s : State) (c : Nat) (x : CtxRt) : (s.setCtx c x).rate = s.rate := rfl
@[simp] theorem State.setCtx_out (s : State) (c : Nat) (x : CtxRt) : (s.setCtx c x).out = s.out := rfl
@[simp] theorem State.setCtx_rdata (s : State) (c : Nat) (x : CtxRt) : (s.setCtx c x).rdata = s.rdata := rfl
@[simp] theorem State.setCtx_nfree (s : State) (c : Nat) (x : CtxRt) : (s.setCtx c x).nfree = s.nfree := rfl
@[simp] theorem State.setCtx_pending (s : State) (c : Nat) (x : CtxRt) : (s.setCtx c x).pending = s.pending := rfl

@[simp] theorem State.setQue_variant (s : State) (q : Nat) (x : Que) : (s.setQue q x).variant = s.variant := rfl
@[simp] theorem State.setQue_regs (s : State) (q : Nat) (x : Que) : (s.setQue q x).regs = s.regs := rfl
@[simp] theorem State.setQue_mem (s : State) (q : Nat) (x : Que) : (s.setQue q x).mem = s.mem := rfl
@[simp] theorem State.setQue_ecc (s : State) (q : Nat) (x : Que) : (s.setQue q x).ecc = s.ecc := rfl
@[simp] theorem State.setQue_cache (s : State) (q : Nat) (x : Que) : (s.setQue q x).cache = s.cache := rfl
@[simp] theorem State.setQue_tlb (s : State) (q : Nat) (x : Que) : (s.setQue q x).tlb = s.tlb := rfl
@[simp] theorem State.setQue_beadMap (s : State) (q : Nat) (x : Que) : (s.setQue q x).beadMap = s.beadMap := rfl
@[simp] theorem State.setQue_host (s : State) (q : Nat) (x : Que) : (s.setQue q x).host = s.host := rfl
@[simp] theorem State.setQue_nvmA (s : State) (q : Nat) (x : Que) : (s.setQue q x).nvmA = s.nvmA := rfl
@[simp] theorem State.setQue_nvmB (s : State) (q : Nat) (x : Que) : (s.setQue q x).nvmB = s.nvmB := rfl
@[simp] theorem State.setQue_life (s : State) (q : Nat) (x : Que) : (s.setQue q x).life = s.life := rfl
@[simp] theorem State.setQue_clk (s : State) (q : Nat) (x : Que) : (s.setQue q x).clk = s.clk := rfl
@[simp] theorem State.setQue_pins (s : State) (q : Nat) (x : Que) : (s.setQue q x).pins = s.pins := rfl
@[simp] theorem State.setQue_start (s : State) (q : Nat) (x : Que) : (s.setQue q x).start = s.start := rfl
@[simp] theorem State.setQue_mbox (s : State) (q : Nat) (x : Que) : (s.setQue q x).mbox = s.mbox := rfl
@[simp] theorem State.setQue_sec (s : State) (q : Nat) (x : Que) : (s.setQue q x).sec = s.sec := rfl
@[simp] theorem State.setQue_ctxs (s : State) (q : Nat) (x : Que) : (s.setQue q x).ctxs = s.ctxs := rfl
@[simp] theorem State.setQue_rings (s : State) (q : Nat) (x : Que) : (s.setQue q x).rings = s.rings := rfl
@[simp] theorem State.setQue_served (s : State) (q : Nat) (x : Que) : (s.setQue q x).served = s.served := rfl
@[simp] theorem State.setQue_seedGens (s : State) (q : Nat) (x : Que) : (s.setQue q x).seedGens = s.seedGens := rfl
@[simp] theorem State.setQue_pf0Reset (s : State) (q : Nat) (x : Que) : (s.setQue q x).pf0Reset = s.pf0Reset := rfl
@[simp] theorem State.setQue_slots (s : State) (q : Nat) (x : Que) : (s.setQue q x).slots = s.slots := rfl
@[simp] theorem State.setQue_conns (s : State) (q : Nat) (x : Que) : (s.setQue q x).conns = s.conns := rfl
@[simp] theorem State.setQue_net (s : State) (q : Nat) (x : Que) : (s.setQue q x).net = s.net := rfl
@[simp] theorem State.setQue_groups (s : State) (q : Nat) (x : Que) : (s.setQue q x).groups = s.groups := rfl
@[simp] theorem State.setQue_grants (s : State) (q : Nat) (x : Que) : (s.setQue q x).grants = s.grants := rfl
@[simp] theorem State.setQue_rwaits (s : State) (q : Nat) (x : Que) : (s.setQue q x).rwaits = s.rwaits := rfl
@[simp] theorem State.setQue_brace (s : State) (q : Nat) (x : Que) : (s.setQue q x).brace = s.brace := rfl
@[simp] theorem State.setQue_pwr (s : State) (q : Nat) (x : Que) : (s.setQue q x).pwr = s.pwr := rfl
@[simp] theorem State.setQue_rel (s : State) (q : Nat) (x : Que) : (s.setQue q x).rel = s.rel := rfl
@[simp] theorem State.setQue_kfe (s : State) (q : Nat) (x : Que) : (s.setQue q x).kfe = s.kfe := rfl
@[simp] theorem State.setQue_msix (s : State) (q : Nat) (x : Que) : (s.setQue q x).msix = s.msix := rfl
@[simp] theorem State.setQue_rate (s : State) (q : Nat) (x : Que) : (s.setQue q x).rate = s.rate := rfl
@[simp] theorem State.setQue_out (s : State) (q : Nat) (x : Que) : (s.setQue q x).out = s.out := rfl
@[simp] theorem State.setQue_rdata (s : State) (q : Nat) (x : Que) : (s.setQue q x).rdata = s.rdata := rfl
@[simp] theorem State.setQue_nfree (s : State) (q : Nat) (x : Que) : (s.setQue q x).nfree = s.nfree := rfl
@[simp] theorem State.setQue_pending (s : State) (q : Nat) (x : Que) : (s.setQue q x).pending = s.pending := rfl

@[simp] theorem State.setConn_variant (s : State) (c : Nat) (x : Conn) : (s.setConn c x).variant = s.variant := rfl
@[simp] theorem State.setConn_regs (s : State) (c : Nat) (x : Conn) : (s.setConn c x).regs = s.regs := rfl
@[simp] theorem State.setConn_mem (s : State) (c : Nat) (x : Conn) : (s.setConn c x).mem = s.mem := rfl
@[simp] theorem State.setConn_ecc (s : State) (c : Nat) (x : Conn) : (s.setConn c x).ecc = s.ecc := rfl
@[simp] theorem State.setConn_cache (s : State) (c : Nat) (x : Conn) : (s.setConn c x).cache = s.cache := rfl
@[simp] theorem State.setConn_tlb (s : State) (c : Nat) (x : Conn) : (s.setConn c x).tlb = s.tlb := rfl
@[simp] theorem State.setConn_beadMap (s : State) (c : Nat) (x : Conn) : (s.setConn c x).beadMap = s.beadMap := rfl
@[simp] theorem State.setConn_host (s : State) (c : Nat) (x : Conn) : (s.setConn c x).host = s.host := rfl
@[simp] theorem State.setConn_nvmA (s : State) (c : Nat) (x : Conn) : (s.setConn c x).nvmA = s.nvmA := rfl
@[simp] theorem State.setConn_nvmB (s : State) (c : Nat) (x : Conn) : (s.setConn c x).nvmB = s.nvmB := rfl
@[simp] theorem State.setConn_life (s : State) (c : Nat) (x : Conn) : (s.setConn c x).life = s.life := rfl
@[simp] theorem State.setConn_clk (s : State) (c : Nat) (x : Conn) : (s.setConn c x).clk = s.clk := rfl
@[simp] theorem State.setConn_pins (s : State) (c : Nat) (x : Conn) : (s.setConn c x).pins = s.pins := rfl
@[simp] theorem State.setConn_start (s : State) (c : Nat) (x : Conn) : (s.setConn c x).start = s.start := rfl
@[simp] theorem State.setConn_mbox (s : State) (c : Nat) (x : Conn) : (s.setConn c x).mbox = s.mbox := rfl
@[simp] theorem State.setConn_sec (s : State) (c : Nat) (x : Conn) : (s.setConn c x).sec = s.sec := rfl
@[simp] theorem State.setConn_ctxs (s : State) (c : Nat) (x : Conn) : (s.setConn c x).ctxs = s.ctxs := rfl
@[simp] theorem State.setConn_rings (s : State) (c : Nat) (x : Conn) : (s.setConn c x).rings = s.rings := rfl
@[simp] theorem State.setConn_served (s : State) (c : Nat) (x : Conn) : (s.setConn c x).served = s.served := rfl
@[simp] theorem State.setConn_seedGens (s : State) (c : Nat) (x : Conn) : (s.setConn c x).seedGens = s.seedGens := rfl
@[simp] theorem State.setConn_pf0Reset (s : State) (c : Nat) (x : Conn) : (s.setConn c x).pf0Reset = s.pf0Reset := rfl
@[simp] theorem State.setConn_slots (s : State) (c : Nat) (x : Conn) : (s.setConn c x).slots = s.slots := rfl
@[simp] theorem State.setConn_queues (s : State) (c : Nat) (x : Conn) : (s.setConn c x).queues = s.queues := rfl
@[simp] theorem State.setConn_net (s : State) (c : Nat) (x : Conn) : (s.setConn c x).net = s.net := rfl
@[simp] theorem State.setConn_groups (s : State) (c : Nat) (x : Conn) : (s.setConn c x).groups = s.groups := rfl
@[simp] theorem State.setConn_grants (s : State) (c : Nat) (x : Conn) : (s.setConn c x).grants = s.grants := rfl
@[simp] theorem State.setConn_rwaits (s : State) (c : Nat) (x : Conn) : (s.setConn c x).rwaits = s.rwaits := rfl
@[simp] theorem State.setConn_brace (s : State) (c : Nat) (x : Conn) : (s.setConn c x).brace = s.brace := rfl
@[simp] theorem State.setConn_pwr (s : State) (c : Nat) (x : Conn) : (s.setConn c x).pwr = s.pwr := rfl
@[simp] theorem State.setConn_rel (s : State) (c : Nat) (x : Conn) : (s.setConn c x).rel = s.rel := rfl
@[simp] theorem State.setConn_kfe (s : State) (c : Nat) (x : Conn) : (s.setConn c x).kfe = s.kfe := rfl
@[simp] theorem State.setConn_msix (s : State) (c : Nat) (x : Conn) : (s.setConn c x).msix = s.msix := rfl
@[simp] theorem State.setConn_rate (s : State) (c : Nat) (x : Conn) : (s.setConn c x).rate = s.rate := rfl
@[simp] theorem State.setConn_out (s : State) (c : Nat) (x : Conn) : (s.setConn c x).out = s.out := rfl
@[simp] theorem State.setConn_rdata (s : State) (c : Nat) (x : Conn) : (s.setConn c x).rdata = s.rdata := rfl
@[simp] theorem State.setConn_nfree (s : State) (c : Nat) (x : Conn) : (s.setConn c x).nfree = s.nfree := rfl
@[simp] theorem State.setConn_pending (s : State) (c : Nat) (x : Conn) : (s.setConn c x).pending = s.pending := rfl

@[simp] theorem State.setSlot_variant (s : State) (c t i v : Nat) : (s.setSlot c t i v).variant = s.variant := rfl
@[simp] theorem State.setSlot_regs (s : State) (c t i v : Nat) : (s.setSlot c t i v).regs = s.regs := rfl
@[simp] theorem State.setSlot_mem (s : State) (c t i v : Nat) : (s.setSlot c t i v).mem = s.mem := rfl
@[simp] theorem State.setSlot_ecc (s : State) (c t i v : Nat) : (s.setSlot c t i v).ecc = s.ecc := rfl
@[simp] theorem State.setSlot_cache (s : State) (c t i v : Nat) : (s.setSlot c t i v).cache = s.cache := rfl
@[simp] theorem State.setSlot_tlb (s : State) (c t i v : Nat) : (s.setSlot c t i v).tlb = s.tlb := rfl
@[simp] theorem State.setSlot_beadMap (s : State) (c t i v : Nat) : (s.setSlot c t i v).beadMap = s.beadMap := rfl
@[simp] theorem State.setSlot_host (s : State) (c t i v : Nat) : (s.setSlot c t i v).host = s.host := rfl
@[simp] theorem State.setSlot_nvmA (s : State) (c t i v : Nat) : (s.setSlot c t i v).nvmA = s.nvmA := rfl
@[simp] theorem State.setSlot_nvmB (s : State) (c t i v : Nat) : (s.setSlot c t i v).nvmB = s.nvmB := rfl
@[simp] theorem State.setSlot_life (s : State) (c t i v : Nat) : (s.setSlot c t i v).life = s.life := rfl
@[simp] theorem State.setSlot_clk (s : State) (c t i v : Nat) : (s.setSlot c t i v).clk = s.clk := rfl
@[simp] theorem State.setSlot_pins (s : State) (c t i v : Nat) : (s.setSlot c t i v).pins = s.pins := rfl
@[simp] theorem State.setSlot_start (s : State) (c t i v : Nat) : (s.setSlot c t i v).start = s.start := rfl
@[simp] theorem State.setSlot_mbox (s : State) (c t i v : Nat) : (s.setSlot c t i v).mbox = s.mbox := rfl
@[simp] theorem State.setSlot_sec (s : State) (c t i v : Nat) : (s.setSlot c t i v).sec = s.sec := rfl
@[simp] theorem State.setSlot_ctxs (s : State) (c t i v : Nat) : (s.setSlot c t i v).ctxs = s.ctxs := rfl
@[simp] theorem State.setSlot_rings (s : State) (c t i v : Nat) : (s.setSlot c t i v).rings = s.rings := rfl
@[simp] theorem State.setSlot_served (s : State) (c t i v : Nat) : (s.setSlot c t i v).served = s.served := rfl
@[simp] theorem State.setSlot_seedGens (s : State) (c t i v : Nat) : (s.setSlot c t i v).seedGens = s.seedGens := rfl
@[simp] theorem State.setSlot_pf0Reset (s : State) (c t i v : Nat) : (s.setSlot c t i v).pf0Reset = s.pf0Reset := rfl
@[simp] theorem State.setSlot_queues (s : State) (c t i v : Nat) : (s.setSlot c t i v).queues = s.queues := rfl
@[simp] theorem State.setSlot_conns (s : State) (c t i v : Nat) : (s.setSlot c t i v).conns = s.conns := rfl
@[simp] theorem State.setSlot_net (s : State) (c t i v : Nat) : (s.setSlot c t i v).net = s.net := rfl
@[simp] theorem State.setSlot_groups (s : State) (c t i v : Nat) : (s.setSlot c t i v).groups = s.groups := rfl
@[simp] theorem State.setSlot_grants (s : State) (c t i v : Nat) : (s.setSlot c t i v).grants = s.grants := rfl
@[simp] theorem State.setSlot_rwaits (s : State) (c t i v : Nat) : (s.setSlot c t i v).rwaits = s.rwaits := rfl
@[simp] theorem State.setSlot_brace (s : State) (c t i v : Nat) : (s.setSlot c t i v).brace = s.brace := rfl
@[simp] theorem State.setSlot_pwr (s : State) (c t i v : Nat) : (s.setSlot c t i v).pwr = s.pwr := rfl
@[simp] theorem State.setSlot_rel (s : State) (c t i v : Nat) : (s.setSlot c t i v).rel = s.rel := rfl
@[simp] theorem State.setSlot_kfe (s : State) (c t i v : Nat) : (s.setSlot c t i v).kfe = s.kfe := rfl
@[simp] theorem State.setSlot_msix (s : State) (c t i v : Nat) : (s.setSlot c t i v).msix = s.msix := rfl
@[simp] theorem State.setSlot_rate (s : State) (c t i v : Nat) : (s.setSlot c t i v).rate = s.rate := rfl
@[simp] theorem State.setSlot_out (s : State) (c t i v : Nat) : (s.setSlot c t i v).out = s.out := rfl
@[simp] theorem State.setSlot_rdata (s : State) (c t i v : Nat) : (s.setSlot c t i v).rdata = s.rdata := rfl
@[simp] theorem State.setSlot_nfree (s : State) (c t i v : Nat) : (s.setSlot c t i v).nfree = s.nfree := rfl
@[simp] theorem State.setSlot_pending (s : State) (c t i v : Nat) : (s.setSlot c t i v).pending = s.pending := rfl

@[simp] theorem State.msixSet_variant (s : State) (v w x : Nat) : (s.msixSet v w x).variant = s.variant := rfl
@[simp] theorem State.msixSet_regs (s : State) (v w x : Nat) : (s.msixSet v w x).regs = s.regs := rfl
@[simp] theorem State.msixSet_mem (s : State) (v w x : Nat) : (s.msixSet v w x).mem = s.mem := rfl
@[simp] theorem State.msixSet_ecc (s : State) (v w x : Nat) : (s.msixSet v w x).ecc = s.ecc := rfl
@[simp] theorem State.msixSet_cache (s : State) (v w x : Nat) : (s.msixSet v w x).cache = s.cache := rfl
@[simp] theorem State.msixSet_tlb (s : State) (v w x : Nat) : (s.msixSet v w x).tlb = s.tlb := rfl
@[simp] theorem State.msixSet_beadMap (s : State) (v w x : Nat) : (s.msixSet v w x).beadMap = s.beadMap := rfl
@[simp] theorem State.msixSet_host (s : State) (v w x : Nat) : (s.msixSet v w x).host = s.host := rfl
@[simp] theorem State.msixSet_nvmA (s : State) (v w x : Nat) : (s.msixSet v w x).nvmA = s.nvmA := rfl
@[simp] theorem State.msixSet_nvmB (s : State) (v w x : Nat) : (s.msixSet v w x).nvmB = s.nvmB := rfl
@[simp] theorem State.msixSet_life (s : State) (v w x : Nat) : (s.msixSet v w x).life = s.life := rfl
@[simp] theorem State.msixSet_clk (s : State) (v w x : Nat) : (s.msixSet v w x).clk = s.clk := rfl
@[simp] theorem State.msixSet_pins (s : State) (v w x : Nat) : (s.msixSet v w x).pins = s.pins := rfl
@[simp] theorem State.msixSet_start (s : State) (v w x : Nat) : (s.msixSet v w x).start = s.start := rfl
@[simp] theorem State.msixSet_mbox (s : State) (v w x : Nat) : (s.msixSet v w x).mbox = s.mbox := rfl
@[simp] theorem State.msixSet_sec (s : State) (v w x : Nat) : (s.msixSet v w x).sec = s.sec := rfl
@[simp] theorem State.msixSet_ctxs (s : State) (v w x : Nat) : (s.msixSet v w x).ctxs = s.ctxs := rfl
@[simp] theorem State.msixSet_rings (s : State) (v w x : Nat) : (s.msixSet v w x).rings = s.rings := rfl
@[simp] theorem State.msixSet_served (s : State) (v w x : Nat) : (s.msixSet v w x).served = s.served := rfl
@[simp] theorem State.msixSet_seedGens (s : State) (v w x : Nat) : (s.msixSet v w x).seedGens = s.seedGens := rfl
@[simp] theorem State.msixSet_pf0Reset (s : State) (v w x : Nat) : (s.msixSet v w x).pf0Reset = s.pf0Reset := rfl
@[simp] theorem State.msixSet_slots (s : State) (v w x : Nat) : (s.msixSet v w x).slots = s.slots := rfl
@[simp] theorem State.msixSet_queues (s : State) (v w x : Nat) : (s.msixSet v w x).queues = s.queues := rfl
@[simp] theorem State.msixSet_conns (s : State) (v w x : Nat) : (s.msixSet v w x).conns = s.conns := rfl
@[simp] theorem State.msixSet_net (s : State) (v w x : Nat) : (s.msixSet v w x).net = s.net := rfl
@[simp] theorem State.msixSet_groups (s : State) (v w x : Nat) : (s.msixSet v w x).groups = s.groups := rfl
@[simp] theorem State.msixSet_grants (s : State) (v w x : Nat) : (s.msixSet v w x).grants = s.grants := rfl
@[simp] theorem State.msixSet_rwaits (s : State) (v w x : Nat) : (s.msixSet v w x).rwaits = s.rwaits := rfl
@[simp] theorem State.msixSet_brace (s : State) (v w x : Nat) : (s.msixSet v w x).brace = s.brace := rfl
@[simp] theorem State.msixSet_pwr (s : State) (v w x : Nat) : (s.msixSet v w x).pwr = s.pwr := rfl
@[simp] theorem State.msixSet_rel (s : State) (v w x : Nat) : (s.msixSet v w x).rel = s.rel := rfl
@[simp] theorem State.msixSet_kfe (s : State) (v w x : Nat) : (s.msixSet v w x).kfe = s.kfe := rfl
@[simp] theorem State.msixSet_rate (s : State) (v w x : Nat) : (s.msixSet v w x).rate = s.rate := rfl
@[simp] theorem State.msixSet_out (s : State) (v w x : Nat) : (s.msixSet v w x).out = s.out := rfl
@[simp] theorem State.msixSet_rdata (s : State) (v w x : Nat) : (s.msixSet v w x).rdata = s.rdata := rfl
@[simp] theorem State.msixSet_nfree (s : State) (v w x : Nat) : (s.msixSet v w x).nfree = s.nfree := rfl
@[simp] theorem State.msixSet_pending (s : State) (v w x : Nat) : (s.msixSet v w x).pending = s.pending := rfl

@[simp] theorem State.emit_variant (s : State) (o : Out) : (s.emit o).variant = s.variant := rfl
@[simp] theorem State.emit_regs (s : State) (o : Out) : (s.emit o).regs = s.regs := rfl
@[simp] theorem State.emit_mem (s : State) (o : Out) : (s.emit o).mem = s.mem := rfl
@[simp] theorem State.emit_ecc (s : State) (o : Out) : (s.emit o).ecc = s.ecc := rfl
@[simp] theorem State.emit_cache (s : State) (o : Out) : (s.emit o).cache = s.cache := rfl
@[simp] theorem State.emit_tlb (s : State) (o : Out) : (s.emit o).tlb = s.tlb := rfl
@[simp] theorem State.emit_beadMap (s : State) (o : Out) : (s.emit o).beadMap = s.beadMap := rfl
@[simp] theorem State.emit_host (s : State) (o : Out) : (s.emit o).host = s.host := rfl
@[simp] theorem State.emit_nvmA (s : State) (o : Out) : (s.emit o).nvmA = s.nvmA := rfl
@[simp] theorem State.emit_nvmB (s : State) (o : Out) : (s.emit o).nvmB = s.nvmB := rfl
@[simp] theorem State.emit_life (s : State) (o : Out) : (s.emit o).life = s.life := rfl
@[simp] theorem State.emit_clk (s : State) (o : Out) : (s.emit o).clk = s.clk := rfl
@[simp] theorem State.emit_pins (s : State) (o : Out) : (s.emit o).pins = s.pins := rfl
@[simp] theorem State.emit_start (s : State) (o : Out) : (s.emit o).start = s.start := rfl
@[simp] theorem State.emit_mbox (s : State) (o : Out) : (s.emit o).mbox = s.mbox := rfl
@[simp] theorem State.emit_sec (s : State) (o : Out) : (s.emit o).sec = s.sec := rfl
@[simp] theorem State.emit_ctxs (s : State) (o : Out) : (s.emit o).ctxs = s.ctxs := rfl
@[simp] theorem State.emit_rings (s : State) (o : Out) : (s.emit o).rings = s.rings := rfl
@[simp] theorem State.emit_served (s : State) (o : Out) : (s.emit o).served = s.served := rfl
@[simp] theorem State.emit_seedGens (s : State) (o : Out) : (s.emit o).seedGens = s.seedGens := rfl
@[simp] theorem State.emit_pf0Reset (s : State) (o : Out) : (s.emit o).pf0Reset = s.pf0Reset := rfl
@[simp] theorem State.emit_slots (s : State) (o : Out) : (s.emit o).slots = s.slots := rfl
@[simp] theorem State.emit_queues (s : State) (o : Out) : (s.emit o).queues = s.queues := rfl
@[simp] theorem State.emit_conns (s : State) (o : Out) : (s.emit o).conns = s.conns := rfl
@[simp] theorem State.emit_net (s : State) (o : Out) : (s.emit o).net = s.net := rfl
@[simp] theorem State.emit_groups (s : State) (o : Out) : (s.emit o).groups = s.groups := rfl
@[simp] theorem State.emit_grants (s : State) (o : Out) : (s.emit o).grants = s.grants := rfl
@[simp] theorem State.emit_rwaits (s : State) (o : Out) : (s.emit o).rwaits = s.rwaits := rfl
@[simp] theorem State.emit_brace (s : State) (o : Out) : (s.emit o).brace = s.brace := rfl
@[simp] theorem State.emit_pwr (s : State) (o : Out) : (s.emit o).pwr = s.pwr := rfl
@[simp] theorem State.emit_rel (s : State) (o : Out) : (s.emit o).rel = s.rel := rfl
@[simp] theorem State.emit_kfe (s : State) (o : Out) : (s.emit o).kfe = s.kfe := rfl
@[simp] theorem State.emit_msix (s : State) (o : Out) : (s.emit o).msix = s.msix := rfl
@[simp] theorem State.emit_rate (s : State) (o : Out) : (s.emit o).rate = s.rate := rfl
@[simp] theorem State.emit_rdata (s : State) (o : Out) : (s.emit o).rdata = s.rdata := rfl
@[simp] theorem State.emit_nfree (s : State) (o : Out) : (s.emit o).nfree = s.nfree := rfl
@[simp] theorem State.emit_pending (s : State) (o : Out) : (s.emit o).pending = s.pending := rfl

@[simp] theorem State.lifeSet_variant (s : State) (off n v : Nat) : (s.lifeSet off n v).variant = s.variant := rfl
@[simp] theorem State.lifeSet_regs (s : State) (off n v : Nat) : (s.lifeSet off n v).regs = s.regs := rfl
@[simp] theorem State.lifeSet_mem (s : State) (off n v : Nat) : (s.lifeSet off n v).mem = s.mem := rfl
@[simp] theorem State.lifeSet_ecc (s : State) (off n v : Nat) : (s.lifeSet off n v).ecc = s.ecc := rfl
@[simp] theorem State.lifeSet_cache (s : State) (off n v : Nat) : (s.lifeSet off n v).cache = s.cache := rfl
@[simp] theorem State.lifeSet_tlb (s : State) (off n v : Nat) : (s.lifeSet off n v).tlb = s.tlb := rfl
@[simp] theorem State.lifeSet_beadMap (s : State) (off n v : Nat) : (s.lifeSet off n v).beadMap = s.beadMap := rfl
@[simp] theorem State.lifeSet_host (s : State) (off n v : Nat) : (s.lifeSet off n v).host = s.host := rfl
@[simp] theorem State.lifeSet_nvmA (s : State) (off n v : Nat) : (s.lifeSet off n v).nvmA = s.nvmA := rfl
@[simp] theorem State.lifeSet_nvmB (s : State) (off n v : Nat) : (s.lifeSet off n v).nvmB = s.nvmB := rfl
@[simp] theorem State.lifeSet_clk (s : State) (off n v : Nat) : (s.lifeSet off n v).clk = s.clk := rfl
@[simp] theorem State.lifeSet_pins (s : State) (off n v : Nat) : (s.lifeSet off n v).pins = s.pins := rfl
@[simp] theorem State.lifeSet_start (s : State) (off n v : Nat) : (s.lifeSet off n v).start = s.start := rfl
@[simp] theorem State.lifeSet_mbox (s : State) (off n v : Nat) : (s.lifeSet off n v).mbox = s.mbox := rfl
@[simp] theorem State.lifeSet_sec (s : State) (off n v : Nat) : (s.lifeSet off n v).sec = s.sec := rfl
@[simp] theorem State.lifeSet_ctxs (s : State) (off n v : Nat) : (s.lifeSet off n v).ctxs = s.ctxs := rfl
@[simp] theorem State.lifeSet_rings (s : State) (off n v : Nat) : (s.lifeSet off n v).rings = s.rings := rfl
@[simp] theorem State.lifeSet_served (s : State) (off n v : Nat) : (s.lifeSet off n v).served = s.served := rfl
@[simp] theorem State.lifeSet_seedGens (s : State) (off n v : Nat) : (s.lifeSet off n v).seedGens = s.seedGens := rfl
@[simp] theorem State.lifeSet_pf0Reset (s : State) (off n v : Nat) : (s.lifeSet off n v).pf0Reset = s.pf0Reset := rfl
@[simp] theorem State.lifeSet_slots (s : State) (off n v : Nat) : (s.lifeSet off n v).slots = s.slots := rfl
@[simp] theorem State.lifeSet_queues (s : State) (off n v : Nat) : (s.lifeSet off n v).queues = s.queues := rfl
@[simp] theorem State.lifeSet_conns (s : State) (off n v : Nat) : (s.lifeSet off n v).conns = s.conns := rfl
@[simp] theorem State.lifeSet_net (s : State) (off n v : Nat) : (s.lifeSet off n v).net = s.net := rfl
@[simp] theorem State.lifeSet_groups (s : State) (off n v : Nat) : (s.lifeSet off n v).groups = s.groups := rfl
@[simp] theorem State.lifeSet_grants (s : State) (off n v : Nat) : (s.lifeSet off n v).grants = s.grants := rfl
@[simp] theorem State.lifeSet_rwaits (s : State) (off n v : Nat) : (s.lifeSet off n v).rwaits = s.rwaits := rfl
@[simp] theorem State.lifeSet_brace (s : State) (off n v : Nat) : (s.lifeSet off n v).brace = s.brace := rfl
@[simp] theorem State.lifeSet_pwr (s : State) (off n v : Nat) : (s.lifeSet off n v).pwr = s.pwr := rfl
@[simp] theorem State.lifeSet_rel (s : State) (off n v : Nat) : (s.lifeSet off n v).rel = s.rel := rfl
@[simp] theorem State.lifeSet_kfe (s : State) (off n v : Nat) : (s.lifeSet off n v).kfe = s.kfe := rfl
@[simp] theorem State.lifeSet_msix (s : State) (off n v : Nat) : (s.lifeSet off n v).msix = s.msix := rfl
@[simp] theorem State.lifeSet_rate (s : State) (off n v : Nat) : (s.lifeSet off n v).rate = s.rate := rfl
@[simp] theorem State.lifeSet_out (s : State) (off n v : Nat) : (s.lifeSet off n v).out = s.out := rfl
@[simp] theorem State.lifeSet_rdata (s : State) (off n v : Nat) : (s.lifeSet off n v).rdata = s.rdata := rfl
@[simp] theorem State.lifeSet_nfree (s : State) (off n v : Nat) : (s.lifeSet off n v).nfree = s.nfree := rfl
@[simp] theorem State.lifeSet_pending (s : State) (off n v : Nat) : (s.lifeSet off n v).pending = s.pending := rfl

@[simp] theorem State.lifeAdd_variant (s : State) (off n v : Nat) : (s.lifeAdd off n v).variant = s.variant := rfl
@[simp] theorem State.lifeAdd_regs (s : State) (off n v : Nat) : (s.lifeAdd off n v).regs = s.regs := rfl
@[simp] theorem State.lifeAdd_mem (s : State) (off n v : Nat) : (s.lifeAdd off n v).mem = s.mem := rfl
@[simp] theorem State.lifeAdd_ecc (s : State) (off n v : Nat) : (s.lifeAdd off n v).ecc = s.ecc := rfl
@[simp] theorem State.lifeAdd_cache (s : State) (off n v : Nat) : (s.lifeAdd off n v).cache = s.cache := rfl
@[simp] theorem State.lifeAdd_tlb (s : State) (off n v : Nat) : (s.lifeAdd off n v).tlb = s.tlb := rfl
@[simp] theorem State.lifeAdd_beadMap (s : State) (off n v : Nat) : (s.lifeAdd off n v).beadMap = s.beadMap := rfl
@[simp] theorem State.lifeAdd_host (s : State) (off n v : Nat) : (s.lifeAdd off n v).host = s.host := rfl
@[simp] theorem State.lifeAdd_nvmA (s : State) (off n v : Nat) : (s.lifeAdd off n v).nvmA = s.nvmA := rfl
@[simp] theorem State.lifeAdd_nvmB (s : State) (off n v : Nat) : (s.lifeAdd off n v).nvmB = s.nvmB := rfl
@[simp] theorem State.lifeAdd_clk (s : State) (off n v : Nat) : (s.lifeAdd off n v).clk = s.clk := rfl
@[simp] theorem State.lifeAdd_pins (s : State) (off n v : Nat) : (s.lifeAdd off n v).pins = s.pins := rfl
@[simp] theorem State.lifeAdd_start (s : State) (off n v : Nat) : (s.lifeAdd off n v).start = s.start := rfl
@[simp] theorem State.lifeAdd_mbox (s : State) (off n v : Nat) : (s.lifeAdd off n v).mbox = s.mbox := rfl
@[simp] theorem State.lifeAdd_sec (s : State) (off n v : Nat) : (s.lifeAdd off n v).sec = s.sec := rfl
@[simp] theorem State.lifeAdd_ctxs (s : State) (off n v : Nat) : (s.lifeAdd off n v).ctxs = s.ctxs := rfl
@[simp] theorem State.lifeAdd_rings (s : State) (off n v : Nat) : (s.lifeAdd off n v).rings = s.rings := rfl
@[simp] theorem State.lifeAdd_served (s : State) (off n v : Nat) : (s.lifeAdd off n v).served = s.served := rfl
@[simp] theorem State.lifeAdd_seedGens (s : State) (off n v : Nat) : (s.lifeAdd off n v).seedGens = s.seedGens := rfl
@[simp] theorem State.lifeAdd_pf0Reset (s : State) (off n v : Nat) : (s.lifeAdd off n v).pf0Reset = s.pf0Reset := rfl
@[simp] theorem State.lifeAdd_slots (s : State) (off n v : Nat) : (s.lifeAdd off n v).slots = s.slots := rfl
@[simp] theorem State.lifeAdd_queues (s : State) (off n v : Nat) : (s.lifeAdd off n v).queues = s.queues := rfl
@[simp] theorem State.lifeAdd_conns (s : State) (off n v : Nat) : (s.lifeAdd off n v).conns = s.conns := rfl
@[simp] theorem State.lifeAdd_net (s : State) (off n v : Nat) : (s.lifeAdd off n v).net = s.net := rfl
@[simp] theorem State.lifeAdd_groups (s : State) (off n v : Nat) : (s.lifeAdd off n v).groups = s.groups := rfl
@[simp] theorem State.lifeAdd_grants (s : State) (off n v : Nat) : (s.lifeAdd off n v).grants = s.grants := rfl
@[simp] theorem State.lifeAdd_rwaits (s : State) (off n v : Nat) : (s.lifeAdd off n v).rwaits = s.rwaits := rfl
@[simp] theorem State.lifeAdd_brace (s : State) (off n v : Nat) : (s.lifeAdd off n v).brace = s.brace := rfl
@[simp] theorem State.lifeAdd_pwr (s : State) (off n v : Nat) : (s.lifeAdd off n v).pwr = s.pwr := rfl
@[simp] theorem State.lifeAdd_rel (s : State) (off n v : Nat) : (s.lifeAdd off n v).rel = s.rel := rfl
@[simp] theorem State.lifeAdd_kfe (s : State) (off n v : Nat) : (s.lifeAdd off n v).kfe = s.kfe := rfl
@[simp] theorem State.lifeAdd_msix (s : State) (off n v : Nat) : (s.lifeAdd off n v).msix = s.msix := rfl
@[simp] theorem State.lifeAdd_rate (s : State) (off n v : Nat) : (s.lifeAdd off n v).rate = s.rate := rfl
@[simp] theorem State.lifeAdd_out (s : State) (off n v : Nat) : (s.lifeAdd off n v).out = s.out := rfl
@[simp] theorem State.lifeAdd_rdata (s : State) (off n v : Nat) : (s.lifeAdd off n v).rdata = s.rdata := rfl
@[simp] theorem State.lifeAdd_nfree (s : State) (off n v : Nat) : (s.lifeAdd off n v).nfree = s.nfree := rfl
@[simp] theorem State.lifeAdd_pending (s : State) (off n v : Nat) : (s.lifeAdd off n v).pending = s.pending := rfl

@[simp] theorem State.withFront_variant (s : State) (c : Instr) : (s.withFront c).variant = s.variant := rfl
@[simp] theorem State.withFront_regs (s : State) (c : Instr) : (s.withFront c).regs = s.regs := rfl
@[simp] theorem State.withFront_mem (s : State) (c : Instr) : (s.withFront c).mem = s.mem := rfl
@[simp] theorem State.withFront_ecc (s : State) (c : Instr) : (s.withFront c).ecc = s.ecc := rfl
@[simp] theorem State.withFront_cache (s : State) (c : Instr) : (s.withFront c).cache = s.cache := rfl
@[simp] theorem State.withFront_tlb (s : State) (c : Instr) : (s.withFront c).tlb = s.tlb := rfl
@[simp] theorem State.withFront_beadMap (s : State) (c : Instr) : (s.withFront c).beadMap = s.beadMap := rfl
@[simp] theorem State.withFront_host (s : State) (c : Instr) : (s.withFront c).host = s.host := rfl
@[simp] theorem State.withFront_nvmA (s : State) (c : Instr) : (s.withFront c).nvmA = s.nvmA := rfl
@[simp] theorem State.withFront_nvmB (s : State) (c : Instr) : (s.withFront c).nvmB = s.nvmB := rfl
@[simp] theorem State.withFront_life (s : State) (c : Instr) : (s.withFront c).life = s.life := rfl
@[simp] theorem State.withFront_clk (s : State) (c : Instr) : (s.withFront c).clk = s.clk := rfl
@[simp] theorem State.withFront_pins (s : State) (c : Instr) : (s.withFront c).pins = s.pins := rfl
@[simp] theorem State.withFront_start (s : State) (c : Instr) : (s.withFront c).start = s.start := rfl
@[simp] theorem State.withFront_mbox (s : State) (c : Instr) : (s.withFront c).mbox = s.mbox := rfl
@[simp] theorem State.withFront_sec (s : State) (c : Instr) : (s.withFront c).sec = s.sec := rfl
@[simp] theorem State.withFront_ctxs (s : State) (c : Instr) : (s.withFront c).ctxs = s.ctxs := rfl
@[simp] theorem State.withFront_rings (s : State) (c : Instr) : (s.withFront c).rings = s.rings := rfl
@[simp] theorem State.withFront_served (s : State) (c : Instr) : (s.withFront c).served = s.served := rfl
@[simp] theorem State.withFront_seedGens (s : State) (c : Instr) : (s.withFront c).seedGens = s.seedGens := rfl
@[simp] theorem State.withFront_pf0Reset (s : State) (c : Instr) : (s.withFront c).pf0Reset = s.pf0Reset := rfl
@[simp] theorem State.withFront_slots (s : State) (c : Instr) : (s.withFront c).slots = s.slots := rfl
@[simp] theorem State.withFront_queues (s : State) (c : Instr) : (s.withFront c).queues = s.queues := rfl
@[simp] theorem State.withFront_conns (s : State) (c : Instr) : (s.withFront c).conns = s.conns := rfl
@[simp] theorem State.withFront_net (s : State) (c : Instr) : (s.withFront c).net = s.net := rfl
@[simp] theorem State.withFront_groups (s : State) (c : Instr) : (s.withFront c).groups = s.groups := rfl
@[simp] theorem State.withFront_grants (s : State) (c : Instr) : (s.withFront c).grants = s.grants := rfl
@[simp] theorem State.withFront_rwaits (s : State) (c : Instr) : (s.withFront c).rwaits = s.rwaits := rfl
@[simp] theorem State.withFront_brace (s : State) (c : Instr) : (s.withFront c).brace = s.brace := rfl
@[simp] theorem State.withFront_pwr (s : State) (c : Instr) : (s.withFront c).pwr = s.pwr := rfl
@[simp] theorem State.withFront_rel (s : State) (c : Instr) : (s.withFront c).rel = s.rel := rfl
@[simp] theorem State.withFront_kfe (s : State) (c : Instr) : (s.withFront c).kfe = s.kfe := rfl
@[simp] theorem State.withFront_msix (s : State) (c : Instr) : (s.withFront c).msix = s.msix := rfl
@[simp] theorem State.withFront_rate (s : State) (c : Instr) : (s.withFront c).rate = s.rate := rfl
@[simp] theorem State.withFront_out (s : State) (c : Instr) : (s.withFront c).out = s.out := rfl
@[simp] theorem State.withFront_rdata (s : State) (c : Instr) : (s.withFront c).rdata = s.rdata := rfl
@[simp] theorem State.withFront_nfree (s : State) (c : Instr) : (s.withFront c).nfree = s.nfree := rfl

@[simp] theorem State.fresh_variant (s : State) : s.fresh.2.variant = s.variant := rfl
@[simp] theorem State.fresh_regs (s : State) : s.fresh.2.regs = s.regs := rfl
@[simp] theorem State.fresh_mem (s : State) : s.fresh.2.mem = s.mem := rfl
@[simp] theorem State.fresh_ecc (s : State) : s.fresh.2.ecc = s.ecc := rfl
@[simp] theorem State.fresh_cache (s : State) : s.fresh.2.cache = s.cache := rfl
@[simp] theorem State.fresh_tlb (s : State) : s.fresh.2.tlb = s.tlb := rfl
@[simp] theorem State.fresh_beadMap (s : State) : s.fresh.2.beadMap = s.beadMap := rfl
@[simp] theorem State.fresh_host (s : State) : s.fresh.2.host = s.host := rfl
@[simp] theorem State.fresh_nvmA (s : State) : s.fresh.2.nvmA = s.nvmA := rfl
@[simp] theorem State.fresh_nvmB (s : State) : s.fresh.2.nvmB = s.nvmB := rfl
@[simp] theorem State.fresh_life (s : State) : s.fresh.2.life = s.life := rfl
@[simp] theorem State.fresh_clk (s : State) : s.fresh.2.clk = s.clk := rfl
@[simp] theorem State.fresh_pins (s : State) : s.fresh.2.pins = s.pins := rfl
@[simp] theorem State.fresh_start (s : State) : s.fresh.2.start = s.start := rfl
@[simp] theorem State.fresh_mbox (s : State) : s.fresh.2.mbox = s.mbox := rfl
@[simp] theorem State.fresh_sec (s : State) : s.fresh.2.sec = s.sec := rfl
@[simp] theorem State.fresh_ctxs (s : State) : s.fresh.2.ctxs = s.ctxs := rfl
@[simp] theorem State.fresh_rings (s : State) : s.fresh.2.rings = s.rings := rfl
@[simp] theorem State.fresh_served (s : State) : s.fresh.2.served = s.served := rfl
@[simp] theorem State.fresh_seedGens (s : State) : s.fresh.2.seedGens = s.seedGens := rfl
@[simp] theorem State.fresh_pf0Reset (s : State) : s.fresh.2.pf0Reset = s.pf0Reset := rfl
@[simp] theorem State.fresh_slots (s : State) : s.fresh.2.slots = s.slots := rfl
@[simp] theorem State.fresh_queues (s : State) : s.fresh.2.queues = s.queues := rfl
@[simp] theorem State.fresh_conns (s : State) : s.fresh.2.conns = s.conns := rfl
@[simp] theorem State.fresh_net (s : State) : s.fresh.2.net = s.net := rfl
@[simp] theorem State.fresh_groups (s : State) : s.fresh.2.groups = s.groups := rfl
@[simp] theorem State.fresh_grants (s : State) : s.fresh.2.grants = s.grants := rfl
@[simp] theorem State.fresh_rwaits (s : State) : s.fresh.2.rwaits = s.rwaits := rfl
@[simp] theorem State.fresh_brace (s : State) : s.fresh.2.brace = s.brace := rfl
@[simp] theorem State.fresh_pwr (s : State) : s.fresh.2.pwr = s.pwr := rfl
@[simp] theorem State.fresh_rel (s : State) : s.fresh.2.rel = s.rel := rfl
@[simp] theorem State.fresh_kfe (s : State) : s.fresh.2.kfe = s.kfe := rfl
@[simp] theorem State.fresh_msix (s : State) : s.fresh.2.msix = s.msix := rfl
@[simp] theorem State.fresh_rate (s : State) : s.fresh.2.rate = s.rate := rfl
@[simp] theorem State.fresh_out (s : State) : s.fresh.2.out = s.out := rfl
@[simp] theorem State.fresh_rdata (s : State) : s.fresh.2.rdata = s.rdata := rfl
@[simp] theorem State.fresh_nfree (s : State) : s.fresh.2.nfree = s.nfree + 1 := rfl
@[simp] theorem State.fresh_pending (s : State) : s.fresh.2.pending = s.pending := rfl

@[simp] theorem State.rd_with_variant (s : State) (x : Variant) (f : Fld) (i : Nat) : State.rd { s with variant := x } f i = s.rd f i := rfl
@[simp] theorem State.rd_with_mem (s : State) (x : Mem) (f : Fld) (i : Nat) : State.rd { s with mem := x } f i = s.rd f i := rfl
@[simp] theorem State.rd_with_ecc (s : State) (x : Tbl Gran) (f : Fld) (i : Nat) : State.rd { s with ecc := x } f i = s.rd f i := rfl
@[simp] theorem State.rd_with_cache (s : State) (x : Tbl CLine) (f : Fld) (i : Nat) : State.rd { s with cache := x } f i = s.rd f i := rfl
@[simp] theorem State.rd_with_tlb (s : State) (x : Tlb) (f : Fld) (i : Nat) : State.rd { s with tlb := x } f i = s.rd f i := rfl
@[simp] theorem State.rd_with_beadMap (s : State) (x : Tbl Nat) (f : Fld) (i : Nat) : State.rd { s with beadMap := x } f i = s.rd f i := rfl
@[simp] theorem State.rd_with_host (s : State) (x : Mem) (f : Fld) (i : Nat) : State.rd { s with host := x } f i = s.rd f i := rfl
@[simp] theorem State.rd_with_nvmA (s : State) (x : Nvm) (f : Fld) (i : Nat) : State.rd { s with nvmA := x } f i = s.rd f i := rfl
@[simp] theorem State.rd_with_nvmB (s : State) (x : Nvm) (f : Fld) (i : Nat) : State.rd { s with nvmB := x } f i = s.rd f i := rfl
@[simp] theorem State.rd_with_life (s : State) (x : Mem) (f : Fld) (i : Nat) : State.rd { s with life := x } f i = s.rd f i := rfl
@[simp] theorem State.rd_with_clk (s : State) (x : Clk) (f : Fld) (i : Nat) : State.rd { s with clk := x } f i = s.rd f i := rfl
@[simp] theorem State.rd_with_pins (s : State) (x : Pins) (f : Fld) (i : Nat) : State.rd { s with pins := x } f i = s.rd f i := rfl
@[simp] theorem State.rd_with_start (s : State) (x : Start) (f : Fld) (i : Nat) : State.rd { s with start := x } f i = s.rd f i := rfl
@[simp] theorem State.rd_with_mbox (s : State) (x : Option MboxJob) (f : Fld) (i : Nat) : State.rd { s with mbox := x } f i = s.rd f i := rfl
@[simp] theorem State.rd_with_sec (s : State) (x : Sec) (f : Fld) (i : Nat) : State.rd { s with sec := x } f i = s.rd f i := rfl
@[simp] theorem State.rd_with_ctxs (s : State) (x : Tbl CtxRt) (f : Fld) (i : Nat) : State.rd { s with ctxs := x } f i = s.rd f i := rfl
@[simp] theorem State.rd_with_rings (s : State) (x : Tbl Ring) (f : Fld) (i : Nat) : State.rd { s with rings := x } f i = s.rd f i := rfl
@[simp] theorem State.rd_with_served (s : State) (x : Tbl Nat) (f : Fld) (i : Nat) : State.rd { s with served := x } f i = s.rd f i := rfl
@[simp] theorem State.rd_with_seedGens (s : State) (x : Tbl Nat) (f : Fld) (i : Nat) : State.rd { s with seedGens := x } f i = s.rd f i := rfl
@[simp] theorem State.rd_with_pf0Reset (s : State) (x : Bool) (f : Fld) (i : Nat) : State.rd { s with pf0Reset := x } f i = s.rd f i := rfl
@[simp] theorem State.rd_with_slots (s : State) (x : Tbl Nat) (f : Fld) (i : Nat) : State.rd { s with slots := x } f i = s.rd f i := rfl
@[simp] theorem State.rd_with_queues (s : State) (x : Tbl Que) (f : Fld) (i : Nat) : State.rd { s with queues := x } f i = s.rd f i := rfl
@[simp] theorem State.rd_with_conns (s : State) (x : Tbl Conn) (f : Fld) (i : Nat) : State.rd { s with conns := x } f i = s.rd f i := rfl
@[simp] theorem State.rd_with_net (s : State) (x : NetRt) (f : Fld) (i : Nat) : State.rd { s with net := x } f i = s.rd f i := rfl
@[simp] theorem State.rd_with_groups (s : State) (x : List Group) (f : Fld) (i : Nat) : State.rd { s with groups := x } f i = s.rd f i := rfl
@[simp] theorem State.rd_with_grants (s : State) (x : List Grant) (f : Fld) (i : Nat) : State.rd { s with grants := x } f i = s.rd f i := rfl
@[simp] theorem State.rd_with_rwaits (s : State) (x : List RWait) (f : Fld) (i : Nat) : State.rd { s with rwaits := x } f i = s.rd f i := rfl
@[simp] theorem State.rd_with_brace (s : State) (x : Brace) (f : Fld) (i : Nat) : State.rd { s with brace := x } f i = s.rd f i := rfl
@[simp] theorem State.rd_with_pwr (s : State) (x : Pwr) (f : Fld) (i : Nat) : State.rd { s with pwr := x } f i = s.rd f i := rfl
@[simp] theorem State.rd_with_rel (s : State) (x : Rel) (f : Fld) (i : Nat) : State.rd { s with rel := x } f i = s.rd f i := rfl
@[simp] theorem State.rd_with_kfe (s : State) (x : Kfe) (f : Fld) (i : Nat) : State.rd { s with kfe := x } f i = s.rd f i := rfl
@[simp] theorem State.rd_with_msix (s : State) (x : Tbl Nat) (f : Fld) (i : Nat) : State.rd { s with msix := x } f i = s.rd f i := rfl
@[simp] theorem State.rd_with_rate (s : State) (x : Tbl Nat) (f : Fld) (i : Nat) : State.rd { s with rate := x } f i = s.rd f i := rfl
@[simp] theorem State.rd_with_out (s : State) (x : List Out) (f : Fld) (i : Nat) : State.rd { s with out := x } f i = s.rd f i := rfl
@[simp] theorem State.rd_with_rdata (s : State) (x : Nat) (f : Fld) (i : Nat) : State.rd { s with rdata := x } f i = s.rd f i := rfl
@[simp] theorem State.rd_with_nfree (s : State) (x : Nat) (f : Fld) (i : Nat) : State.rd { s with nfree := x } f i = s.rd f i := rfl
@[simp] theorem State.rd_with_pending (s : State) (x : List Instr) (f : Fld) (i : Nat) : State.rd { s with pending := x } f i = s.rd f i := rfl

@[simp] theorem State.withFront_pending (s : State) (c : Instr) : (s.withFront c).pending = c :: s.pending := rfl
@[simp] theorem State.emit_out (s : State) (o : Out) : (s.emit o).out = s.out ++ [o] := rfl

end Sys2Proof.Machine
end

