-- ==== Sys2Proof/Laws/Table.lean ====
section
/-!
SUPPORT. Laws of the sparse tables and of memory: what a read gives after a write, and that every operation keeps the
canonical form.
-/
namespace Sys2Proof.Machine

section Tables
variable {β : Type}

@[simp] theorem look_nil (k : Nat) : look ([] : Tbl β) k = none := rfl

theorem look_put (t : Tbl β) (k j : Nat) (v : β) : look (put t k v) j = if j = k then some v else look t j := by
  induction t with
  | nil => simp [put, look]
  | cons e t ih =>
    obtain ⟨a, b⟩ := e
    simp only [put]
    split
    · rename_i h; subst h; simp only [look]; split <;> rfl
    · split
      · simp [look]
      · simp only [look, ih]; split <;> split <;> simp_all

@[simp] theorem look_put_same (t : Tbl β) (k : Nat) (v : β) : look (put t k v) k = some v := by simp [look_put]

@[simp] theorem look_put_other (t : Tbl β) {k j : Nat} (v : β) (h : j ≠ k) : look (put t k v) j = look t j := by
  simp [look_put, h]

theorem look_del (t : Tbl β) (k j : Nat) : look (del t k) j = if j = k then none else look t j := by
  induction t with
  | nil => simp [del, look]
  | cons e t ih =>
    obtain ⟨a, b⟩ := e
    simp only [del, List.filter_cons] at ih ⊢
    by_cases h : a = k
    · subst h; simp only [bne_self_eq_false, Bool.false_eq_true, ↓reduceIte, ih, look]; split <;> simp_all
    · simp only [bne_iff_ne, ne_eq, h, not_false_eq_true, ↓reduceIte, look, ih]; split <;> split <;> simp_all

@[simp] theorem look_del_same (t : Tbl β) (k : Nat) : look (del t k) k = none := by simp [look_del]

@[simp] theorem look_del_other (t : Tbl β) {k j : Nat} (h : j ≠ k) : look (del t k) j = look t j := by
  simp [look_del, h]

@[simp] theorem lookD_put_same (t : Tbl β) (k : Nat) (v d : β) : lookD (put t k v) k d = v := by simp [lookD]

@[simp] theorem lookD_put_other (t : Tbl β) {k j : Nat} (v d : β) (h : j ≠ k) : lookD (put t k v) j d = lookD t j d := by
  simp [lookD, h]

@[simp] theorem lookD_del_other (t : Tbl β) {k j : Nat} (d : β) (h : j ≠ k) : lookD (del t k) j d = lookD t j d := by
  simp [lookD, h]

/-- The keys of a table rise exactly when they are pairwise in strict order. -/
theorem rising_iff (t : Tbl β) : rising t = true ↔ t.Pairwise (fun x y => x.1 < y.1) := by
  induction t with
  | nil => simp [rising]
  | cons e t ih =>
    cases t with
    | nil => simp [rising]
    | cons f t =>
      obtain ⟨a, b⟩ := e
      obtain ⟨c, d⟩ := f
      simp only [rising, Bool.and_eq_true, decide_eq_true_eq, ih, List.pairwise_cons, List.mem_cons, forall_eq_or_imp]
      constructor
      · rintro ⟨h, h1, h2⟩
        exact ⟨⟨h, fun x hx => Nat.lt_trans h (h1 x hx)⟩, h1, h2⟩
      · rintro ⟨⟨h, -⟩, h1, h2⟩
        exact ⟨h, h1, h2⟩

theorem mem_put (t : Tbl β) (k : Nat) (v : β) (e : Nat × β) (h : e ∈ put t k v) : e = (k, v) ∨ e ∈ t := by
  induction t with
  | nil => simpa [put] using h
  | cons f t ih =>
    obtain ⟨a, b⟩ := f
    simp only [put] at h
    split at h
    · simp only [List.mem_cons] at h ⊢; rcases h with h | h <;> simp [h]
    · split at h
      · simp only [List.mem_cons] at h ⊢; rcases h with h | h | h <;> simp [h]
      · simp only [List.mem_cons] at h ⊢
        rcases h with h | h
        · simp [h]
        · rcases ih h with h | h <;> simp [h]

theorem rising_put (t : Tbl β) (k : Nat) (v : β) (h : rising t = true) : rising (put t k v) = true := by
  rw [rising_iff] at h ⊢
  induction t with
  | nil => simp [put]
  | cons e t ih =>
    obtain ⟨a, b⟩ := e
    rw [List.pairwise_cons] at h
    simp only [put]
    split
    · rename_i hk; subst hk; exact List.pairwise_cons.2 ⟨h.1, h.2⟩
    · split
      · rename_i hlt
        refine List.pairwise_cons.2 ⟨?_, List.pairwise_cons.2 h⟩
        intro x hx
        simp only [List.mem_cons] at hx
        rcases hx with rfl | hx
        · exact hlt
        · exact Nat.lt_trans hlt (h.1 x hx)
      · rename_i hne hlt
        refine List.pairwise_cons.2 ⟨?_, ih h.2⟩
        intro x hx
        rcases mem_put t k v x hx with rfl | hx
        · exact Nat.lt_of_le_of_ne (Nat.le_of_not_lt hlt) (fun e => hne e.symm)
        · exact h.1 x hx

theorem rising_filter (t : Tbl β) (p : Nat × β → Bool) (h : rising t = true) : rising (t.filter p) = true := by
  rw [rising_iff] at h ⊢; exact h.filter p

theorem rising_del (t : Tbl β) (k : Nat) (h : rising t = true) : rising (del t k) = true := rising_filter t _ h

end Tables

/-! ### Memory -/

theorem Mem.wf_iff (m : Mem) : m.wf = true ↔ rising m = true ∧ ∀ e ∈ m, e.2 ≠ 0 := by
  simp [Mem.wf, List.all_eq_true]

@[simp] theorem Mem.wf_nil : Mem.wf [] = true := rfl

theorem Mem.read_write (m : Mem) (a c : Nat) (b : Byte) : (m.write a b).read c = if c = a then b else m.read c := by
  unfold Mem.write Mem.read lookD
  split
  · rename_i h; subst h; rw [look_del]; split <;> simp_all
  · rw [look_put]; split <;> simp_all

@[simp] theorem Mem.read_write_same (m : Mem) (a : Nat) (b : Byte) : (m.write a b).read a = b := by
  simp [Mem.read_write]

@[simp] theorem Mem.read_write_other (m : Mem) {a c : Nat} (b : Byte) (h : c ≠ a) :
    (m.write a b).read c = m.read c := by simp [Mem.read_write, h]

theorem Mem.wf_write (m : Mem) (a : Nat) (b : Byte) (h : m.wf = true) : (m.write a b).wf = true := by
  rw [Mem.wf_iff] at h ⊢
  unfold Mem.write
  split
  · exact ⟨rising_del m a h.1, fun e he => h.2 e (List.mem_filter.1 he).1⟩
  · rename_i hb
    refine ⟨rising_put m a b h.1, fun e he => ?_⟩
    rcases mem_put m a b e he with rfl | he
    · exact hb
    · exact h.2 e he

theorem Mem.wf_writeN (m : Mem) (a : Nat) (bs : List Byte) (h : m.wf = true) : (m.writeN a bs).wf = true := by
  induction bs generalizing m a with
  | nil => exact h
  | cons b bs ih => exact ih (m.write a b) (a + 1) (Mem.wf_write m a b h)

theorem Mem.wf_filter (m : Mem) (p : Host.Cell → Bool) (h : m.wf = true) : Mem.wf (m.filter p) = true := by
  rw [Mem.wf_iff] at h ⊢
  exact ⟨rising_filter m p h.1, fun e he => h.2 e (List.mem_filter.1 he).1⟩

theorem Mem.read_writeN_other (m : Mem) (a c : Nat) (bs : List Byte) (h : c < a ∨ a + bs.length ≤ c) :
    (m.writeN a bs).read c = m.read c := by
  induction bs generalizing m a with
  | nil => rfl
  | cons b bs ih =>
    simp only [List.length_cons] at h
    rw [Mem.writeN, ih _ _ (by omega), Mem.read_write_other _ _ (by omega)]

theorem Mem.readN_writeN (m : Mem) (a : Nat) (bs : List Byte) : (m.writeN a bs).readN a bs.length = bs := by
  induction bs generalizing m a with
  | nil => rfl
  | cons b bs ih =>
    simp only [List.length_cons, Mem.readN, Mem.writeN]
    rw [Mem.read_writeN_other _ _ _ _ (by omega), Mem.read_write_same, ih]

/-- Memories in canonical form that read alike are equal data. -/
theorem Mem.ext (m n : Mem) (hm : m.wf = true) (hn : n.wf = true) (h : ∀ a, m.read a = n.read a) : m = n := by
  rw [Mem.wf_iff, rising_iff] at hm hn
  have key : ∀ (l : Mem), l.Pairwise (fun x y => x.1 < y.1) → (∀ e ∈ l, e.2 ≠ 0) →
      ∀ a b, ((a, b) ∈ l ↔ b ≠ 0 ∧ Mem.read l a = b) := by
    intro l
    induction l with
    | nil => intro _ _ a b; simp only [Mem.read, lookD, look, List.not_mem_nil, false_iff]; rintro ⟨h1, h2⟩; exact h1 h2.symm
    | cons e t ih =>
      intro hp hz a b
      obtain ⟨c, d⟩ := e
      rw [List.pairwise_cons] at hp
      have ht := ih hp.2 (fun e he => hz e (List.mem_cons_of_mem _ he)) a b
      simp only [List.mem_cons, Prod.mk.injEq]
      by_cases hac : a = c
      · subst hac
        have hnot : ∀ b, (a, b) ∉ t := fun b hb => Nat.lt_irrefl a (hp.1 (a, b) hb)
        have hd := hz (a, d) (by simp)
        simp only [Mem.read, lookD, look, ↓reduceIte, Option.getD_some, true_and]
        constructor
        · rintro (rfl | hb)
          · exact ⟨hd, rfl⟩
          · exact absurd hb (hnot b)
        · rintro ⟨-, rfl⟩; exact .inl rfl
      · simp only [hac, false_and, false_or]
        rw [ht]; simp [Mem.read, lookD, look, hac]
  have memeq : ∀ e, e ∈ m ↔ e ∈ n := by
    rintro ⟨a, b⟩
    rw [key m hm.1 hm.2, key n hn.1 hn.2, h a]
  clear key h
  induction m generalizing n with
  | nil => cases n with
    | nil => rfl
    | cons e t => exact absurd ((memeq e).2 (by simp)) (by simp)
  | cons e t ih => cases n with
    | nil => exact absurd ((memeq e).1 (by simp)) (by simp)
    | cons f u =>
      have hm1 := List.pairwise_cons.1 hm.1
      have hn1 := List.pairwise_cons.1 hn.1
      have hef : e = f := by
        have h1 := (memeq e).1 (by simp)
        have h2 := (memeq f).2 (by simp)
        simp only [List.mem_cons] at h1 h2
        rcases h1 with h1 | h1
        · exact h1
        · rcases h2 with h2 | h2
          · exact h2.symm
          · exact absurd (Nat.lt_trans (hn1.1 e h1) (hm1.1 f h2)) (Nat.lt_irrefl _)
      subst hef
      refine congrArg _ (ih u ⟨hm1.2, fun e he => hm.2 e (List.mem_cons_of_mem _ he)⟩
        ⟨hn1.2, fun e he => hn.2 e (List.mem_cons_of_mem _ he)⟩ (fun x => ?_))
      have hx := memeq x
      simp only [List.mem_cons] at hx
      constructor
      · intro hxt
        rcases hx.1 (.inr hxt) with h | h
        · subst h; exact absurd (hm1.1 x hxt) (Nat.lt_irrefl _)
        · exact h
      · intro hxu
        rcases hx.2 (.inr hxu) with h | h
        · subst h; exact absurd (hn1.1 x hxu) (Nat.lt_irrefl _)
        · exact h

end Sys2Proof.Machine
end

