-- ==== Sys2Proof/Laws/Ops.lean ====
section
/-!
SUPPORT. Laws of the registers and of the tables of the state: what a read gives after a write.
-/
namespace Sys2Proof.Machine

theorem regKey_inj {r i r' i' : Nat} (h : i < 1048576) (h' : i' < 1048576) :
    regKey r i = regKey r' i' ↔ r = r' ∧ i = i' := by unfold regKey; omega

@[simp] theorem State.reg_setReg_same (s : State) (r i : Nat) (w : Word) : (s.setReg r i w).reg r i = w := by
  simp [State.reg, State.setReg]

theorem State.reg_setReg_other (s : State) {r i r' i' : Nat} (w : Word) (h : regKey r' i' ≠ regKey r i) :
    (s.setReg r i w).reg r' i' = s.reg r' i' := by simp [State.reg, State.setReg, h]

/-- A field just written reads as the low bits of what was written. -/
theorem State.rd_wr_same (s : State) (f : Fld) (i v : Nat) (h : f.lo + f.width ≤ 64) :
    (s.wr f i v).rd f i = v % 2 ^ f.width := by
  unfold State.rd State.wr
  rw [State.reg_setReg_same, BitVec.toNat_ofNat,
    Nat.mod_eq_of_lt (setBits_lt _ _ _ _ 64 (s.reg f.reg i).isLt h), bitsOf_setBits_same]

/-- A write leaves every other register, and every other copy, as it was. -/
theorem State.rd_wr_reg (s : State) (f g : Fld) (i j v : Nat) (h : regKey g.reg j ≠ regKey f.reg i) :
    (s.wr f i v).rd g j = s.rd g j := by
  unfold State.rd State.wr; rw [State.reg_setReg_other s _ h]

/-- A write leaves the fields of every other register as they were. -/
theorem State.rd_wr_ne (s : State) (f g : Fld) (i j v : Nat) (h : g.reg ≠ f.reg) (hi : i < 1048576) (hj : j < 1048576) :
    (s.wr f i v).rd g j = s.rd g j := s.rd_wr_reg f g i j v (by rw [Ne, regKey_inj hj hi]; exact fun e => h e.1)

/-- A write leaves every other copy of the register as it was. -/
theorem State.rd_wr_idx (s : State) (f g : Fld) (i j v : Nat) (h : j ≠ i) (hi : i < 1048576) (hj : j < 1048576) :
    (s.wr f i v).rd g j = s.rd g j := s.rd_wr_reg f g i j v (by rw [Ne, regKey_inj hj hi]; exact fun e => h e.2)

/-- A write leaves every field beside it in the same word as it was. -/
theorem State.rd_wr_fld (s : State) (f g : Fld) (i v : Nat) (hr : g.reg = f.reg) (h : f.lo + f.width ≤ 64)
    (hd : g.lo + g.width ≤ f.lo ∨ f.lo + f.width ≤ g.lo) : (s.wr f i v).rd g i = s.rd g i := by
  unfold State.rd State.wr
  rw [hr, State.reg_setReg_same, BitVec.toNat_ofNat,
    Nat.mod_eq_of_lt (setBits_lt _ _ _ _ 64 (s.reg f.reg i).isLt h), bitsOf_setBits_other _ _ _ _ _ _ hd]

/-- A counter counts, and stops at its largest value. -/
theorem State.rd_count_same (s : State) (f : Fld) (i n : Nat) (h : f.lo + f.width ≤ 64) :
    (s.count f i n).rd f i = satAdd f.width (s.rd f i) n := by
  unfold State.count
  rw [State.rd_wr_same _ _ _ _ h, Nat.mod_eq_of_lt]
  unfold satAdd maxOf
  have := Nat.two_pow_pos f.width
  omega

theorem State.reg_wr_other (s : State) (f : Fld) (i v : Nat) {r j : Nat} (h : regKey r j ≠ regKey f.reg i) :
    (s.wr f i v).reg r j = s.reg r j := State.reg_setReg_other s _ h

@[simp] theorem State.dev_goto (s : State) (d : Nat) : (s.goto d).dev = d % 16 :=
  State.rd_wr_same _ F.hubState_STATE 0 d (by decide)

@[simp] theorem State.prev_goto (s : State) (d : Nat) : (s.goto d).rd F.hubState_PREV = s.dev % 16 :=
  (State.rd_wr_fld _ F.hubState_STATE F.hubState_PREV 0 d rfl (by decide) (by decide)).trans
    (State.rd_wr_same _ F.hubState_PREV 0 _ (by decide))

theorem State.rd_goto_other (s : State) (d : Nat) (f : Fld) (i : Nat) (h : regKey f.reg i ≠ regKey F.hubState_STATE.reg 0) :
    (s.goto d).rd f i = s.rd f i :=
  (State.rd_wr_reg _ F.hubState_STATE f 0 i d h).trans (State.rd_wr_reg _ F.hubState_PREV f 0 i _ h)

@[simp] theorem State.dom_setDom_same (s : State) (d v : Nat) : (s.setDom d v).dom d = v % 4 :=
  State.rd_wr_same _ F.pwrDomStatus_STATE d v (by decide)

@[simp] theorem State.dev_setDom (s : State) (d v : Nat) : (s.setDom d v).dev = s.dev :=
  State.rd_wr_reg _ F.pwrDomStatus_STATE F.hubState_STATE d 0 v (by simp only [regKey]; omega)

/-! ### Rings, contexts, queues, connections -/

@[simp] theorem State.ring_setRing_same (s : State) (k : Nat) (r : Ring) : (s.setRing k r).ring k = r := by
  simp [State.ring, State.setRing]

theorem State.ring_setRing_other (s : State) {k j : Nat} (r : Ring) (h : j ≠ k) : (s.setRing k r).ring j = s.ring j := by
  simp [State.ring, State.setRing, h]

@[simp] theorem State.ctx_setCtx_same (s : State) (c : Nat) (x : CtxRt) : (s.setCtx c x).ctx c = x := by
  simp [State.ctx, State.setCtx]

theorem State.ctx_setCtx_other (s : State) {c d : Nat} (x : CtxRt) (h : d ≠ c) : (s.setCtx c x).ctx d = s.ctx d := by
  simp [State.ctx, State.setCtx, h]

@[simp] theorem State.que_setQue_same (s : State) (q : Nat) (x : Que) : (s.setQue q x).que q = x := by
  simp [State.que, State.setQue]

theorem State.que_setQue_other (s : State) {q p : Nat} (x : Que) (h : p ≠ q) : (s.setQue q x).que p = s.que p := by
  simp [State.que, State.setQue, h]

@[simp] theorem State.conn_setConn_same (s : State) (c : Nat) (x : Conn) : (s.setConn c x).conn c = x := by
  simp [State.conn, State.setConn]

theorem State.conn_setConn_other (s : State) {c d : Nat} (x : Conn) (h : d ≠ c) : (s.setConn c x).conn d = s.conn d := by
  simp [State.conn, State.setConn, h]

end Sys2Proof.Machine
end

