-- ==== Sys2Proof/Laws/Notice.lean ====
section
/-!
SUPPORT. What the raising of a notice can do (R32, R394, R404): it puts entries into queues, signals vectors, writes the
doorbell of a queue's notice, and counts what it discards. Everything else stands.
-/
namespace Sys2Proof.Machine

/-- A state without what the delivery of a notice may leave anew: queues, vectors, outputs, the memory of a doorbell address
with what its granule, its cache line and its channel carry, the life log, the bookkeeping of its stack's domain, held and kept
notices, and the counter of free values. -/
def State.untold (s : State) : State :=
  { s with regs := [], mem := [], ecc := [], cache := [], host := [], life := [], queues := [], msix := [], out := [], nfree := 0,
           start := { s.start with kept := [] }, pwr := { s.pwr with idle := [], down := [], wake := [] },
           rel := { s.rel with held := [], ceWin := [], sig := [], retrain := [] } }

/-- `t` is `s` but for what the delivery of notices leaves. -/
structure Told (s t : State) : Prop where
  regs : ∀ r i, i < 1048576 → r ∉ toldRegs → t.reg r i = s.reg r i
  rest : t.untold = s.untold
  wf : (s.mem.wf = true → t.mem.wf = true) ∧ (s.host.wf = true → t.host.wf = true) ∧ (s.life.wf = true → t.life.wf = true)

theorem Told.refl (s : State) : Told s s := ⟨fun _ _ _ _ => rfl, rfl, id, id, id⟩

theorem Told.trans {s t u : State} (h : Told s t) (k : Told t u) : Told s u :=
  ⟨fun r i hi hr => (k.regs r i hi hr).trans (h.regs r i hi hr), k.rest.trans h.rest,
    k.wf.1 ∘ h.wf.1, k.wf.2.1 ∘ h.wf.2.1, k.wf.2.2 ∘ h.wf.2.2⟩

/-- What stands under a notice: the fields that no part of `untold` covers. -/
theorem Told.same {s t : State} (h : Told s t) {α : Sort _} (f : State → α) (hf : ∀ x, f x = f x.untold) : f t = f s := by
  rw [hf t, hf s, h.rest]

/-- An update that keeps the registers and what `untold` keeps. -/
theorem Told.of_eq {s t : State} (hr : t.regs = s.regs) (h : t.untold = s.untold) (hm : s.mem.wf = true → t.mem.wf = true)
    (hh : s.host.wf = true → t.host.wf = true) (hl : s.life.wf = true → t.life.wf = true) : Told s t :=
  ⟨fun r i _ _ => by simp only [State.reg, hr], h, hm, hh, hl⟩

/-- A write of one register of those a notice may write. -/
theorem Told.setReg {s : State} (r i : Nat) (v : Word) (hi : i < 1048576) (h : r ∈ toldRegs) : Told s (s.setReg r i v) :=
  ⟨fun r' j hj hr => State.reg_setReg_other s v (by
      rw [Ne, regKey_inj hj hi]; rintro ⟨rfl, -⟩; exact hr h), rfl, id, id, id⟩

theorem Told.wr {s : State} (f : Fld) (i v : Nat) (hi : i < 1048576) (h : f.reg ∈ toldRegs) : Told s (s.wr f i v) :=
  Told.setReg f.reg i _ hi h

theorem Told.count {s : State} (f : Fld) (i v : Nat) (hi : i < 1048576) (h : f.reg ∈ toldRegs) : Told s (s.count f i v) :=
  Told.wr f i _ hi h

theorem Told.lifeAdd (s : State) (off n v : Nat) : Told s (s.lifeAdd off n v) :=
  Told.of_eq rfl rfl id id (Mem.wf_writeN _ _ _)

/-! ### Memory -/

theorem Told.poke (s : State) (pa : Nat) (b : Byte) : Told s (s.poke pa b) := by
  unfold State.poke
  split
  · exact Told.of_eq rfl rfl id (Mem.wf_write _ _ _) id
  · split
    · exact Told.of_eq rfl rfl (Mem.wf_write _ _ _) id id
    · exact Told.refl s

theorem Told.pokeN (s : State) (pa : Nat) (bs : List Byte) : Told s (s.pokeN pa bs) := by
  induction bs generalizing s pa with
  | nil => exact Told.refl s
  | cons b bs ih => exact (Told.poke s pa b).trans (ih (s.poke pa b) (pa + 1))

theorem Told.domUp (s : State) (d : Nat) (h : d < 1048576) : Told s (s.domUp d) :=
  (((Told.wr F.pwrDomStatus_STATE d Dom.on h (by decide)).trans
    (Told.wr F.pwrDomStatus_WAKING d 0 h (by decide))).trans
    (Told.count F.pwrDomStatus_WAKES d 1 h (by decide))).trans (Told.of_eq rfl rfl id id id)

theorem fold2_lt (x : Nat) : fold2 x < 4 := by
  have h : ∀ (l : List Nat) (a : Nat), a < 4 → l.foldl (fun a i => a ^^^ bitsOf x (2 * i) 2) a < 4 := by
    intro l
    induction l with
    | nil => exact fun a h => h
    | cons i l ih => exact fun a h => ih _ (Nat.xor_lt_two_pow (n := 2) h (bitsOf_lt x (2 * i) 2))
  exact h _ 0 (by decide)

theorem State.rd_lt (s : State) (f : Fld) (i : Nat) : s.rd f i < 2 ^ f.width := bitsOf_lt _ _ _

theorem State.decodeIn_lt (s : State) (n pa : Nat) : (s.decodeIn n pa).1 < 40 := by
  have hm : s.rd F.memRegionCfg_MODE n < 8 := s.rd_lt F.memRegionCfg_MODE n
  have hx : ∀ a b, bitsOf a b 2 ^^^ fold2 (a >>> 4) < 4 := fun a b =>
    Nat.xor_lt_two_pow (n := 2) (bitsOf_lt a b 2) (fold2_lt _)
  have hy : ∀ a b, bitsOf a b 2 ^^^ fold2 (a >>> 2) < 4 := fun a b =>
    Nat.xor_lt_two_pow (n := 2) (bitsOf_lt a b 2) (fold2_lt _)
  unfold State.decodeIn
  dsimp only
  generalize pa - s.rd F.memRegionCfg_BASE n * 2 ^ 28 = a
  have h1 := hx (a >>> 12) 2
  have h2 := hy (a >>> 11) 0
  split
  · by_cases hv : s.variant = .c
    · simp only [hv, if_true]; omega
    · simp only [hv, if_false]; omega
  · by_cases hv : s.variant = .c
    · simp only [hv, if_true]; omega
    · simp only [hv, if_false]; omega

theorem State.place_stack_lt (s : State) (pa n o : Nat) (h : s.place pa = .stack n o) : n < 40 := by
  unfold State.place at h
  split at h
  · split at h
    · rename_i r _
      simp only [Place.stack.injEq] at h
      rw [← h.1]; exact s.decodeIn_lt r pa
    · cases h
  · split at h
    · dsimp only at h; split at h <;> cases h
    · repeat (split at h <;> try cases h)

theorem Told.touch (s : State) (pa : Nat) (x : State) : Told x (x.touch (s.place pa)) := by
  unfold State.touch
  cases hp : s.place pa with
  | stack n o =>
    have hn := s.place_stack_lt pa n o hp
    dsimp only
    split
    · exact Told.refl x
    · split
      · exact Told.domUp x _ (by unfold dieDom; omega)
      · split
        · exact Told.of_eq rfl rfl id id id
        · exact Told.refl x
  | _ => exact Told.refl x

theorem Told.watchLane (s : State) (n c : Nat) (bad : BitVec 72) : Told s (s.watchLane n c bad) := by
  unfold State.watchLane
  dsimp only
  repeat' split
  all_goals first | exact Told.refl s | exact Told.of_eq rfl rfl id id id

/-- The error marks of granules, the count of a channel's window and the kept notices may change. -/
theorem Told.withEcc {s t : State} (h : Told s t) (e : Tbl Gran) : Told s { t with ecc := e } :=
  h.trans (Told.of_eq rfl rfl id id id)

theorem Told.withWin {s t : State} (h : Told s t) (w : Tbl Nat) : Told s { t with rel := { t.rel with ceWin := w } } :=
  h.trans (Told.of_eq rfl rfl id id id)

theorem Told.withKept {s t : State} (h : Told s t) (k : List (List Byte)) : Told s { t with start := { t.start with kept := k } } :=
  h.trans (Told.of_eq rfl rfl id id id)

theorem Told.corrected (s : State) (key : Nat) (bad : BitVec 72) : Told s (s.corrected key bad) := by
  unfold State.corrected
  dsimp only
  have hn : key / 2 ^ 40 % 64 < 1048576 := by omega
  generalize key / 2 ^ 40 % 64 = n at *
  have h := fun w => (((Told.count (s := s) F.memEccCount_CORRECTED n 1 hn (by decide)).trans
    (Told.lifeAdd _ (0x0340 + 8 * (128 * n + chanOf (key % 2 ^ 40))) 4 1)).withWin w).trans
    (Told.watchLane _ n (chanOf (key % 2 ^ 40)) bad)
  split
  · exact h _
  · exact (h _).withEcc _

theorem Told.logLost (s : State) (pa n c : Nat) (poison sram : Bool) : Told s (s.logLost pa n c poison sram) := by
  unfold State.logLost
  split
  · exact Told.refl s
  · exact Told.setReg _ _ _ (by decide) (by decide)

theorem Told.lostRead (s : State) (pa : Nat) (p : Place) (poison : Bool) (h : ∀ n o, p = .stack n o → n < 40) :
    Told s (s.lostRead pa p poison) := by
  unfold State.lostRead
  split
  · exact ((Told.count F.memEccCount_UNCORRECTABLE _ 1 (Nat.lt_trans (h _ _ rfl) (by decide)) (by decide)).trans
      (Told.lifeAdd _ _ _ _)).trans (Told.logLost _ _ _ _ _ _)
  · exact Told.logLost _ _ _ _ _ _

theorem Told.writeBack (s : State) (line : Nat) : Told s (s.writeBack line) := by
  have h : ∀ (c : Nat → Prop) [DecidablePred c] (g : State → Nat → Nat) (l : List Nat) (x : State), Told s x →
      Told s (l.foldl (fun x i => if c i then { x with ecc := del x.ecc (g x i) } else x) x) := by
    intro c _ g l
    induction l with
    | nil => exact fun _ h => h
    | cons i l ih =>
      refine fun x h => ih _ ?_
      dsimp only
      split
      · exact h.trans (Told.of_eq rfl rfl id id id)
      · exact h
  unfold State.writeBack
  dsimp only
  split
  · exact h _ _ _ _ (Told.refl s)
  · exact (h _ _ _ _ (Told.refl s)).trans (Told.of_eq rfl rfl id id id)

theorem Told.cacheFill (s : State) (n o : Nat) (dirty : Bool) : Told s (s.cacheFill n o dirty) := by
  have hr : ∀ line, Told s (s.lineRoom line) := by
    intro line
    unfold State.lineRoom State.dropLine State.fresh
    dsimp only
    split
    · exact Told.refl s
    · split
      · exact Told.refl s
      · have hf : Told s { s with nfree := s.nfree + 1 } := Told.of_eq rfl rfl id id id
        split
        · exact (hf.trans (Told.writeBack _ _)).trans (Told.of_eq rfl rfl id id id)
        · exact hf
  unfold State.cacheFill
  dsimp only
  split
  · exact Told.of_eq rfl rfl id id id
  · exact (hr _).trans (Told.of_eq rfl rfl id id id)

/-- A granule read leaves what a notice may leave, whatever it finds (R293 to R300). -/
theorem Told.judgeGran (s : State) (pa : Nat) (p : Place) (h : ∀ n o, p = .stack n o → n < 40) :
    Told s (s.judgeGran pa p).2 := by
  unfold State.judgeGran
  split
  · rename_i n o
    have hn : ∀ n' o', Place.stack n o = .stack n' o' → n' < 40 := h
    split
    · exact Told.lostRead s pa _ _ hn
    · split
      · exact Told.refl s
      · have hg : Told s (s.stackGran pa n o (s.homeKey n o)).2 := by
          unfold State.stackGran
          dsimp only
          split
          · exact Told.refl s
          · exact Told.corrected s _ _
          · exact Told.lostRead s pa _ _ hn
          · rename_i bs _
            have hw : Told s { s with mem := s.mem.writeN (s.homeKey n o) ((List.range 64).map (fun i => bs.getD i 0)) } :=
              Told.of_eq rfl rfl (Mem.wf_writeN _ _ _) id id
            exact hw.trans (Told.corrected _ _ _)
        split
        · rename_i h'; rw [h'] at hg; exact hg
        · rename_i h'; rw [h'] at hg; exact hg.trans (Told.cacheFill _ _ _ _)
  · split
    · exact Told.refl s
    · split
      · exact Told.lostRead s pa _ _ h
      · exact Told.refl s

theorem Told.writeGran (s : State) (pa : Nat) (bs : List Byte) : Told s (s.writeGran pa bs).2 := by
  have ht := Told.touch s (pa / 64 * 64) s
  have hp := s.place_stack_lt (pa / 64 * 64)
  unfold State.writeGran
  dsimp only
  generalize s.touch (s.place (pa / 64 * 64)) = t at *
  split
  · exact ht
  · have hj := Told.judgeGran t pa _ hp
    split
    · split
      · exact (ht.trans (Told.pokeN t pa bs)).trans (Told.cacheFill _ _ _ _)
      · split
        · rename_i h'; rw [h'] at hj; exact ht.trans hj
        · rename_i h'; rw [h'] at hj; exact ((ht.trans hj).trans (Told.pokeN _ pa bs)).trans (Told.cacheFill _ _ _ _)
    · split
      · exact (ht.withEcc _).trans (Told.pokeN _ pa bs)
      · split
        · exact ht
        · exact ht.trans (Told.pokeN t pa bs)

/-- A write of any length. -/
theorem Told.writePhys (s : State) (pa : Nat) (bs : List Byte) : Told s (s.writePhys pa bs).2 := by
  unfold State.writePhys
  have h : ∀ (l : List (Nat × List Byte)) (a : Bool × State), Told s a.2 →
      Told s (l.foldl (fun a g => let r := a.2.writeGran g.1 g.2; (a.1 && r.1, r.2)) a).2 := by
    intro l
    induction l with
    | nil => exact fun _ h => h
    | cons g l ih => exact fun a h => ih _ (h.trans (Told.writeGran a.2 g.1 g.2))
  exact h _ _ (Told.refl s)

/-! ### Queues and notices -/

theorem Told.interrupt (s : State) (v : Nat) : Told s (s.interrupt v) := by
  unfold State.interrupt
  split <;> exact Told.of_eq rfl rfl id id id

theorem Told.setQue (s : State) (q : Nat) (x : Que) : Told s (s.setQue q x) :=
  Told.of_eq rfl rfl id id id

theorem Told.countLost (s : State) (q e p : Nat) (h : q < 1048576) : Told s (s.countLost q e p) :=
  ((Told.wr F.queLost_ENTRIES q _ h (by decide)).trans (Told.wr F.queLost_PACKETS q _ h (by decide))).trans
    (Told.lifeAdd _ _ _ _)

theorem Told.queNotify (s : State) (q n : Nat) : Told s (s.queNotify q n) := by
  unfold State.queNotify
  split
  · exact Told.interrupt s _
  · exact Told.writePhys s _ _
  · exact Told.refl s

/-- The context of a notice, when it names one, is one of the sixteen. -/
def Ntc.named (n : Ntc) : Prop := ∀ c, n.ctx = some c → c < 16

theorem queOwner_named (s : State) (code sev q a b c : Nat) : (queNtc code sev (s.queOwner q) a b c).named := by
  intro x h
  simp only [queNtc, State.queOwner] at h
  split at h
  · cases h
  · split at h
    · cases h; omega
    · split at h
      · cases h; exact s.rd_lt F.queCfg_CTX q
      · cases h

theorem Told.quePut (s : State) (q prio : Nat) (ents : List (List Byte)) (producer : Nat) (h : q < 1048576) :
    Told s (s.quePut q prio ents producer).2.1 ∧ ∀ n ∈ (s.quePut q prio ents producer).2.2, n.named := by
  have hone : ∀ d, ∀ n ∈ [queNtc 0x0604 Sev.info none q d producer], n.named := by
    intro d n hn
    simp only [List.mem_singleton] at hn
    subst hn; intro x hx; cases hx
  unfold State.quePut
  dsimp only
  split
  · split
    · split
      · exact ⟨Told.setQue s q _, hone _⟩
      · exact ⟨Told.setQue s q _, fun n hn => absurd hn (by simp)⟩
    · exact ⟨Told.setQue s q _, hone _⟩
  · generalize makeRoom (s.queCap q) ents.length prio ((s.que q).pkts.length + 1) (s.que q) 0 0 0 = r
    obtain ⟨y, e, p, lp, stays⟩ := r
    dsimp only
    have hs : Told s (if e = 0 then s else s.countLost q e p) := by
      split
      · exact Told.refl s
      · exact Told.countLost s q e p h
    generalize (if e = 0 then s else s.countLost q e p) = t at *
    have hn : ∀ (c : Prop) [Decidable c] (x : Nat),
        ∀ n ∈ (if c then [queNtc 0x0602 Sev.warn (t.queOwner q) q x lp] else []), n.named := by
      intro c _ x n hn
      split at hn
      · simp only [List.mem_singleton] at hn
        subst hn; exact queOwner_named _ _ _ _ _ _ _
      · exact absurd hn (by simp)
    cases stays
    · exact ⟨hs.trans (Told.setQue _ q _), hn _ _⟩
    · exact ⟨(hs.trans (Told.setQue _ q _)).trans (Told.queNotify _ q _), hn _ _⟩

/-- The forced reset of a queue. -/
theorem Told.queReset (s : State) (q : Nat) (h : q < 1048576) : Told s (s.queReset q).1 ∧ (s.queReset q).2.named := by
  refine ⟨?_, queOwner_named _ _ _ _ _ _ _⟩
  have h0 : Told s _ := (((Told.countLost s q ((s.que q).pkts.map (s.que q).left).sum (s.que q).pkts.length h).trans
    (Told.count F.queLost_RESETS q 1 h (by decide))).trans (Told.lifeAdd _ (lifeEvent 5) 8 1)).trans
    (Told.setQue _ q { s.que q with pkts := [], reading := none, taken := 0 })
  unfold State.queReset
  dsimp only
  split
  · exact h0.trans (Told.wr F.hubHealth_ERRQ_RESET 0 1 (by decide) (by decide))
  · exact h0

theorem Told.noticePut (s : State) (q : Nat) (n : Ntc) (r : List Byte) (h : q < 1048576) :
    Told s (s.noticePut q n r).1 ∧ ∀ m ∈ (s.noticePut q n r).2, m.named := by
  unfold State.noticePut State.ptrsDiffer
  split
  · exact Told.quePut s q n.sev [r] 1 h
  · have h0 : Told s { s with nfree := s.nfree + 1 } := Told.of_eq rfl rfl id id id
    cases Config.ptrMismatch s.nfree
    · have h1 := Told.quePut { s with nfree := s.nfree + 1 } q n.sev [r] 1 h
      exact ⟨h0.trans h1.1, h1.2⟩
    · have h1 := Told.queReset { s with nfree := s.nfree + 1 } q h
      exact ⟨h0.trans h1.1, fun m hm => by simp only [List.mem_singleton] at hm; exact hm ▸ h1.2⟩

theorem Told.deliver (s : State) (n : Ntc) (h : n.named) :
    Told s (s.deliver n).1 ∧ ∀ m ∈ (s.deliver n).2, m.named := by
  unfold State.deliver
  dsimp only
  have hs : Told s (if n.sev = Sev.fatal then s.wr F.hubHealth_FATAL_SEEN 0 1 else s) := by
    split
    · exact Told.wr F.hubHealth_FATAL_SEEN 0 1 (by decide) (by decide)
    · exact Told.refl s
  generalize (if n.sev = Sev.fatal then s.wr F.hubHealth_FATAL_SEEN 0 1 else s) = t at *
  split
  · exact ⟨hs.withKept _, fun m hm => absurd hm (by simp)⟩
  · have h0' := Told.noticePut t 0 n (n.record t.time) (by decide)
    split
    · rename_i c hc hp
      have hc16 := h c hc
      have h1 := Told.noticePut (t.noticePut 0 n (n.record t.time)).1 (1 + c) n (n.record t.time) (by omega)
      refine ⟨(hs.trans h0'.1).trans h1.1, fun m hm => ?_⟩
      rcases List.mem_append.1 hm with hm | hm
      · exact h0'.2 m hm
      · exact h1.2 m hm
    · exact ⟨hs.trans h0'.1, h0'.2⟩

theorem Told.raiseN (f : Nat) (s : State) (n : Ntc) (h : n.named) : Told s (State.raiseN f s n) := by
  induction f generalizing s n with
  | zero => exact Told.refl s
  | succ f ih =>
    have hd := Told.deliver s n h
    have hl : ∀ (l : List Ntc) (t : State), Told s t → (∀ m ∈ l, m.named) → Told s (l.foldl (State.raiseN f) t) := by
      intro l
      induction l with
      | nil => exact fun t ht _ => ht
      | cons m l ih2 =>
        exact fun t ht hm => ih2 _ (ht.trans (ih t m (hm m (by simp)))) (fun x hx => hm x (List.mem_cons_of_mem _ hx))
    exact hl _ _ hd.1 hd.2

/-- A notice leaves everything but what `Told` names. -/
theorem State.raise_told (s : State) (n : Ntc) (h : n.named) : Told s (s.raise n) := by
  unfold State.raise
  split
  · dsimp only
    split
    · exact Told.of_eq rfl rfl id id id
    · exact Told.lifeAdd s _ _ _
  · exact Told.raiseN 4 s n h

theorem Told.rd {s t : State} (h : Told s t) (f : Fld) (i : Nat) (hi : i < 1048576) (hf : f.reg ∉ toldRegs) :
    t.rd f i = s.rd f i := by
  unfold State.rd; rw [h.regs f.reg i hi hf]

end Sys2Proof.Machine
end

