-- ==== Sys2Proof/WellFormed.lean ====
section
/-!
DEFINITION. Which commands are well formed: what the interface that carries an operand guarantees of it beyond its
type. The device's meanings are total, so an ill-formed command does no harm; a program of commands holds none.
-/
namespace Sys2Proof

/-- A member row of a signature holds at most 4,096 fields (R460), and a dialect of 1 or 2 (R461). -/
def CollSig.wf (g : CollSig) : Bool := g.row.length ≤ 4096

/-- The operands of a command are of the lengths and alignments that its interface gives it. -/
def Instr.wf : Instr → Bool
  | .registerWrite _ offset _ => offset.toNat % 8 == 0
  | .windowRead _ len => decide (0 < len.val)
  | .windowWrite _ bytes => decide (0 < bytes.length ∧ bytes.length ≤ 4096)
  | .mboxAttest _ nonce => nonce.length == 32
  | .doeAttestRequest nonce => nonce.length == 32
  | .gctAttest _ nonce => nonce.length == 32
  | .lifeSample temps _ => temps.length == 5
  | .bringupDone r => decide ((r.tiles.map (·.1)).Nodup)
  | .gctCollSignature _ _ _ sig => sig.wf
  | .loanAccessRequest _ _ (some bytes) => bytes.length == 64
  | .loanAccessReply _ _ (some bytes) => bytes.length == 64
  | _ => true

end Sys2Proof
end

