-- ==== Sys2Proof/Tests/Slice0.lean ====
section
/-!
SUPPORT. The model's own tests: an ill-formed command for each check of well-formedness, and for every statement with
hypotheses concrete states and operands that meet them, clause by clause.
-/
namespace Sys2Proof.Tests
open Sys2Proof Sys2Proof.Machine

/- One theorem after another, so that the kernel evaluations below do not stand in memory together. -/
set_option Elab.async false

/-! ### Well-formedness: an ill-formed command for each check -/

def hd0 : GctHdr := { conn := 7, seq := 3, srcEpoch := 800, dstEpoch := 900 }
theorem test_wf_register_offset : (Instr.registerWrite .pf0 4#24 0#64).wf = false := by decide
theorem test_wf_window_read : (Instr.windowRead 0#32 0).wf = false := by decide
theorem test_wf_window_write : (Instr.windowWrite 0#32 []).wf = false := by decide
theorem test_wf_mbox_attest : (Instr.mboxAttest 0 [1]).wf = false := by decide
theorem test_wf_doe_attest : (Instr.doeAttestRequest [1]).wf = false := by decide
theorem test_wf_gct_attest : (Instr.gctAttest hd0 [1]).wf = false := by decide
theorem test_wf_life_sample : (Instr.lifeSample [] 0).wf = false := by decide
theorem test_wf_bringup_done : (Instr.bringupDone { lanes := [], tiles := [(3, 1), (3, 2)] }).wf = false := by decide
theorem test_wf_loan_request : (Instr.loanAccessRequest hd0 0#64 (some [1])).wf = false := by decide
theorem test_wf_loan_reply : (Instr.loanAccessReply hd0 0#64 (some [1])).wf = false := by decide

/-! ### Values that the spec and the standards it names state -/

/-- R4, and the example after R9. -/
theorem test_cap_units : capUnits .a = 0x000001FFFFFFFFFF ∧ capUnits .b = 0x000002FFF0FFFFFF ∧ capUnits .c = 0x0000030FF07BDEFF := by decide
/-- The check value of CRC-32C: the code of the nine characters 1 to 9. -/
theorem test_crc32c : crc32c [0x31, 0x32, 0x33, 0x34, 0x35, 0x36, 0x37, 0x38, 0x39] = 0xE3069283 := by decide +kernel
/-- FIPS 202: the first bytes of SHA3-256 of nothing. -/
theorem test_sha3 : (sha3 []).take 4 = [0xA7, 0xFF, 0xC6, 0xF8] := by decide +kernel
/-- R476: OFF leads to AON. -/
theorem test_power_on : (match exec .powerOn State.reset with | .next t => t.dev | _ => 99) = Dev.aon := by decide +kernel

/-! ### The states of the witnesses -/

def sets (s : State) (l : List (Fld × Nat × Nat)) : State := l.foldl (fun s e => s.wr e.1 e.2.1 e.2.2) s
def devAt (d : Nat) : State := State.reset.wr F.hubState_STATE 0 d
def up : State :=
  let s := (List.range 20).foldl (fun s d => s.setDom d Dom.on) (devAt Dev.ready)
  { s with clk := { dev := 5000, ivl := 4000000000000 }, start := { s.start with items := [(4,2,0,1),(4,2,1,1)] } }
def recd (op fmt : Nat) (rest : List Byte := []) : List Byte :=
  let b := natLE 2 op ++ [BitVec.ofNat 8 fmt] ++ [0] ++ rest
  let b := b ++ List.replicate (56 - b.length) 0
  b ++ natLE 8 (crc32c b)
def nop (n : Nat) : Cmd := { count := n, record := recd 1 4 }
def cells (stack off : Nat) (b : List Byte) : Mem := (b.zipIdx.filter (fun e => e.1 != 0)).map (fun e => (stack * 2 ^ 40 + off + e.2, e.1))
def pages : State := sets up [(F.memRegionCfg_VALID,0,1),(F.memRegionCfg_SHARE,0,16),(F.ctxMmuRoot_VALID,1,1),(F.ctxRingCfg_ENABLE,64,1),(F.ctxRingCfg_LOG2,64,6),(F.ctxState_STATE,1,1)]
/-- The level-0 table of context 1's translation, at physical address 0. -/
def ptab0 : Mem := [(0, 1), (1, 16)]
/-- The other levels: virtual addresses 0 and 0x10000 are the pages 0x10000 and 0x20000. -/
def ptab : Mem :=
  [(5497558138880, 1), (5497558138881, 32), (10995116277760, 1), (10995116277761, 48), (16492674416640, 7),
   (16492674416642, 1), (16492674416648, 7), (16492674416650, 2)]
theorem ptab_cells : ptab = cells 5 0 (natLE 8 0x2001) ++ cells 10 0 (natLE 8 0x3001) ++ cells 15 0 (natLE 8 0x10007 ++ natLE 8 0x20007) := by
  decide +kernel
def paged : State := { pages with mem := ptab0 ++ ptab }
def entry (kind ctx access rkey base bytes st epoch : Nat) : List Byte :=
  natLE 1 (kind + 4*ctx) ++ natLE 26 0 ++ natLE 1 access ++ natLE 4 rkey ++ natLE 8 base ++ natLE 8 bytes ++ natLE 8 0 ++
  natLE 1 st ++ natLE 3 0x211132 ++ natLE 4 epoch
/-- The connection table's entries from connection 7 on: GCT open, RoCE open, GCT opening, GCT closed, RoCE closed. -/
def conn7 : Mem :=
  [(4398046560704, 5), (4398046560731, 63), (4398046560732, 85), (4398046560746, 1), (4398046560760, 2),
   (4398046560761, 50), (4398046560762, 17), (4398046560763, 33), (4398046560764, 132), (4398046560765, 3)]
def conn8 : Mem :=
  [(4398046560768, 6), (4398046560795, 31), (4398046560796, 85), (4398046560810, 1), (4398046560824, 2),
   (4398046560825, 50), (4398046560826, 17), (4398046560827, 33), (4398046560832, 5), (4398046560859, 63),
   (4398046560860, 85), (4398046560874, 1), (4398046560888, 1), (4398046560889, 50), (4398046560890, 17),
   (4398046560891, 33), (4398046560892, 133), (4398046560893, 3), (4398046560896, 5), (4398046560923, 63),
   (4398046560924, 85), (4398046560938, 1), (4398046560953, 50), (4398046560954, 17), (4398046560955, 33),
   (4398046560960, 6), (4398046560987, 31), (4398046560988, 85), (4398046561002, 1), (4398046561017, 50),
   (4398046561018, 17), (4398046561019, 33)]
theorem conn_cells : conn7 ++ conn8 = cells 4 49600 (entry 1 1 0x3F 0x55 0 65536 2 900 ++ entry 2 1 0x1F 0x55 0 65536 2 0 ++
    entry 1 1 0x3F 0x55 0 65536 1 901 ++ entry 1 1 0x3F 0x55 0 65536 0 0 ++ entry 2 1 0x1F 0x55 0 65536 0 0) := by decide +kernel
def netted : State :=
  let s := sets paged [(F.netConnTable_ADDR,0,0x100),(F.netPortCfg_MODE,0,2),(F.netPortCfg_PTP_EN,0,1),(F.netPortStatus_UP0,0,1),(F.netPortStatus_UP1,0,1),(F.netPortCfg_PFC_EN,0,255)]
  { s with mem := ptab0 ++ conn7 ++ conn8 ++ ptab
           start := { s.start with items := s.start.items ++ [(1,1,0,0x112233445566),(1,2,0,0x0A000001),(1,3,0,5),(1,4,0,9)] }
           conns := [(7,{peerEpoch := 800, rxSeq := 3, openedAt := 100}),(9,{openedAt := 100})] }
def hd : GctHdr := hd0
/-- The bead map of context 1: vid 5 is bead 77, with every right; bead 77 is ACTIVE. -/
def beadMap : Mem := [(3298534887464, 77), (3298534887466, 7)]
def bmRegs (s : State) : State := sets s [(F.ctxBeadMap_VALID,1,1),(F.ctxBeadMap_ADDR,1,0x20),(F.beadAttr_STATE,77,1),(F.beadAttr_OWNER,77,1)]
/-- A state with the page tables alone, given the bead map. -/
def bm (s : State) : State := { bmRegs s with mem := ptab0 ++ beadMap ++ ptab }
def nb : State := { bmRegs netted with mem := ptab0 ++ beadMap ++ conn7 ++ conn8 ++ ptab }
def rcv (s : State) : State := (s.receive hd true).getD s
def bytes1 : List Byte := [1]
def bytes2 : List Byte := [1, 2]
def bytes3 : List Byte := [1, 2, 3]
theorem pair_of {α β : Type} {p : α × β} {a : α} (h : p.1 = a) : p = (a, p.2) := Prod.ext h rfl
/-! Commands of ring 0 of context 1 as their dispatcher reads them, on whichever die it runs. -/
def cid : CmdId := { ctx := 1, ring := 0, count := 3 }
def eng (op : Nat) : Engine := (engineOf op).getD nopEngine
def dieOf (s : State) : Fin 4 := Config.fetchDie 1 0 (s.rd F.ctxRingTiles_MASK 64)
def preparedAt (d : Fin 4) (s : State) (x : Cmd) (op : Nat) : Prep × Machine.Acc :=
  ((eng op).prep s 64 x).run (s.acc 1 (Unit.die d.val) (lookD x.loans 0 {}))
def prepared (s : State) (x : Cmd) (op : Nat) : Prep × Machine.Acc := s.prepRun (CmdKey cid) x (eng op)
theorem prepared_eq (s : State) (x : Cmd) (op : Nat) : prepared s x op = preparedAt (dieOf s) s x op := rfl
def descOf (r : Prep × Machine.Acc) : List Byte := match r.1 with | .ok p => p.1 | _ => []
def tabsOf (r : Prep × Machine.Acc) : List (List Byte) := match r.1 with | .ok p => p.2 | _ => []
def statusOf (r : Prep × Machine.Acc) : Nat := match r.1 with | .error n => n | _ => 0
theorem prep_ok (r : Prep × Machine.Acc) (h : (match r.1 with | .ok _ => true | _ => false) = true) :
    r = (.ok (descOf r, tabsOf r), r.2) := by
  obtain ⟨a, b⟩ := r
  cases a with
  | ok p => rfl
  | error n => simp at h
theorem prep_error (r : Prep × Machine.Acc) (h : (match r.1 with | .error _ => true | _ => false) = true) :
    r = (.error (statusOf r), r.2) := by
  obtain ⟨a, b⟩ := r
  cases a with
  | ok p => simp at h
  | error n => rfl
/-- The command may issue, with what its dispatcher reads. -/
def Issuing (s : State) (x : Cmd) (op : Nat) : Prop :=
  s.issues cid op x (eng op) (descOf (prepared s x op)) (tabsOf (prepared s x op)) (prepared s x op).2
/-- The same as a question that evaluation answers. -/
def issuesOn (s : State) (x : Cmd) (op : Nat) (r : Prep × Machine.Acc) : Bool :=
  match r with
  | (.error _, _) => false
  | (.ok (d, t), a) =>
    let y := (eng op).judged s (CmdKey cid) x d t
    s.cmd cid == some x && x.opcode == op && (engineOf op).isSome && s.issuable (CmdKey cid) x &&
    (!(eng op).tiled || s.asleep (CmdKey cid) == []) && a.fault.isNone && a.lost == [] &&
    s.admits (CmdKey cid) y engineOf && s.itsTurn (CmdKey cid) y engineOf && !(eng op).gone s (CmdKey cid) y
def issuesNow (s : State) (x : Cmd) (op : Nat) : Bool := (List.finRange 4).all (fun d => issuesOn s x op (preparedAt d s x op))
theorem issues_of_now {s : State} {x : Cmd} {op : Nat} (h : issuesNow s x op = true) :
    s.issues cid op x (eng op) (descOf (prepared s x op)) (tabsOf (prepared s x op)) (prepared s x op).2 := by
  have h := List.all_eq_true.mp h (dieOf s) (List.mem_finRange _)
  rw [← prepared_eq] at h
  unfold issuesOn at h
  split at h
  · cases h
  next d t a e =>
    have eh : engineOf op = some (eng op) := by
      cases q : engineOf op with
      | none => simp [q] at h
      | some v => simp [eng, q]
    simp only [Bool.and_eq_true, Bool.or_eq_true, beq_iff_eq, Bool.not_eq_true', Option.isNone_iff_eq_none] at h
    obtain ⟨⟨⟨⟨⟨⟨⟨⟨⟨h1, h2⟩, -⟩, h4⟩, h5⟩, h6⟩, h7⟩, h8⟩, h9⟩, h10⟩ := h
    rw [e]
    exact ⟨h1, h2, eh, h4, fun z => h5.resolve_left (by simp [z]), e, h6, h7, h8, h9, h10⟩

/-! ### The witnesses of the statements -/

namespace General

def region : State := sets State.reset [(F.memRegionCfg_VALID,2,1),(F.memRegionCfg_SHARE,2,1),(F.memRegionCfg_BASE,2,7),(F.memRegionCfg_MODE,2,4),(F.memRegionCfg_STACK_BASE,2,9)]
def plain : Cvt := {}
def saturating : Cvt := { sat := true }
theorem witness_IdlePeriod :
    (State.reset.pending = [] ∧ State.reset.dev = Dev.off) ∧
    (up.pending = [] ∧ up.dev ≠ Dev.off ∧ up.net.held = [] ∧ (∀ (e : Nat × Ring), e ∈ up.rings → ∀ (x : Cmd), x ∈ e.snd.cmds → x.yielded = Yield.no)) :=
  ⟨by decide +kernel,
   by decide +kernel⟩
theorem witness_StepKeepsCanonical :
    (State.reset.canonical ∧ step State.reset = Host.Outcome.next State.reset) :=
  ⟨(by unfold State.canonical; decide +kernel), rfl⟩
theorem witness_AddressMap :
    (region.inRegion 2 1879048192 = true ∧ region.inRegion 2 1879048192 = true ∧ region.decodeIn 2 1879048192 = region.decodeIn 2 1879048192) ∧
    (region.inRegion 2 1879048192 = true) ∧
    (region.inRegion 2 3221225471 = true ∧ region.rd F.memRegionCfg_MODE 2 ≤ 4) :=
  ⟨by decide +kernel,
   by decide +kernel,
   by decide +kernel⟩
theorem witness_Conversions :
    (Fmt.fp32 ≠ Fmt.x36 ∧ 4294967295 < 2 ^ Fmt.fp32.bits ∧ Fmt.fp32.decode 4294967295 = Num.nan) ∧
    (Fmt.fp32 ≠ Fmt.x36 ∧ 1 < 2 ^ Fmt.fp32.bits ∧ Fmt.fp32.decode 1 ≠ Num.nan) ∧
    (plain.sat = false ∧ ((Num.fin false (Fmt.bf16.roundMag (if Fmt.bf16 = Fmt.x36 ∨ (!plain.stoch) = true then none else none) 1 128).fst (Fmt.bf16.roundMag (if Fmt.bf16 = Fmt.x36 ∨ (!plain.stoch) = true then none else none) 1 128).snd).cmp Fmt.bf16.maxNum = some Ordering.gt)) ∧
    (saturating.sat = true ∧ ((Num.fin false (Fmt.bf16.roundMag (if Fmt.bf16 = Fmt.x36 ∨ (!saturating.stoch) = true then none else none) 511 119).fst (Fmt.bf16.roundMag (if Fmt.bf16 = Fmt.x36 ∨ (!saturating.stoch) = true then none else none) 511 119).snd).cmp Fmt.bf16.maxNum = some Ordering.gt)) ∧
    ((Fmt.hf8n.roundMag (if Fmt.hf8n = Fmt.x36 ∨ (!plain.stoch) = true then none else none) 1 (-30)).fst = 0) :=
  ⟨by decide +kernel,
   by decide +kernel,
   by decide +kernel,
   by decide +kernel,
   by decide +kernel⟩
def pk (n p : Nat) : Pkt := { seq := n, prio := p, ents := [List.replicate 32 1] }
def fresh : Que := { pkts := [pk 4 0, pk 5 1, pk 6 1], seq := 7 }
def begun : Que := { pkts := [pk 4 0, pk 5 1], seq := 7, reading := some 5 }
theorem witness_QueueHeads :
    (fresh.reading = none ∧ fresh.pkts ≠ []) ∧
    (begun.pkts = [pk 4 0] ++ [pk 5 1] ∧ (∀ (q : Pkt), q ∈ [pk 4 0] → q.seq ≠ (pk 5 1).seq) ∧ begun.reading = some (pk 5 1).seq) :=
  ⟨by decide +kernel,
   by decide +kernel⟩

end General

namespace Start

def aon : State := { devAt Dev.aon with clk := {ivl := 20000000} }
theorem witness_SupplyAndRom :
    (State.reset.dev = Dev.off) ∧
    (aon.dev = Dev.aon ∧ aon.clk.startAt + 10000000 ≤ aon.ivl) ∧
    (∀ (j : MboxJob), up.mbox = some j → j.writes = none) :=
  ⟨by decide +kernel,
   by decide +kernel,
   by decide +kernel⟩
def w1 := {devAt Dev.rom with start := {watchdogs := [0,0,0]}}
theorem witness_RomBoots :
    ((devAt Dev.rom).dev = Dev.rom ∧ (List.filter (fun w => decide ((devAt Dev.rom).ivl < w + 3600000000000)) (devAt Dev.rom).start.watchdogs).length < 3) ∧
    (w1.dev = Dev.rom ∧ 3 ≤ (List.filter (fun w => decide (w1.ivl < w + 3600000000000)) w1.start.watchdogs).length) :=
  ⟨by decide +kernel,
   by decide +kernel⟩
def bpre : List Byte := natLE 4 0x43584247 ++ natLE 4 0 ++ natLE 8 128 ++ natLE 8 0 ++ List.replicate 40 0 ++ natLE 2 0xFFFF ++ natLE 6 0 ++ natLE 8 7 ++ natLE 8 128 ++ natLE 8 0
def blob0 : List Byte := bpre ++ sha3 bpre
def nv : Nvm := { bytes := (blob0.zipIdx.map (fun e => (Area.blob + e.2, e.1))) }
def w2 := {devAt Dev.cfgCheck with nvmA := nv, nvmB := nv}
def w20 := {devAt Dev.cfgCheck with nvmB := nv}
theorem witness_LoadAndCheck :
    ((devAt Dev.load).dev = Dev.load) ∧
    ((devAt Dev.cfgCheck).dev = Dev.cfgCheck ∧ (blobTorn (devAt Dev.cfgCheck).nvmA.blobCopy false).isSome = true ∧ (blobTorn (devAt Dev.cfgCheck).nvmB.blobCopy false).isSome = true) ∧
    (w2.dev = Dev.cfgCheck ∧ blobTorn w2.nvmA.blobCopy false = none ∧ blobTorn w2.nvmB.blobCopy false = none ∧ false = decide (blobSeq w2.nvmA.blobCopy < blobSeq w2.nvmB.blobCopy)) ∧
    (w20.dev = Dev.cfgCheck ∧ blobTorn (w20.nvm true).blobCopy false = none ∧ (blobTorn (w20.nvm !true).blobCopy false).isSome = true) :=
  ⟨by decide +kernel,
   by decide +kernel,
   by decide +kernel,
   by decide +kernel⟩
def w3 := {devAt Dev.bringup with start := {items := [(2,5,0,0)]}}
def w4 := {devAt Dev.bringup with start := {ptpWaiting := true}}
def ptp : State := { sets (devAt Dev.bringup) [(F.netPortCfg_MODE,0,1),(F.netPortCfg_PTP_EN,0,1),(F.pwrDomStatus_STATE,2,3),(F.netPortStatus_UP0,0,1),(F.hubState_STATE,0,7)] with clk := { stepped := true} }
def w5 := {ptp with clk := {dev := 5}}
theorem witness_StartEnds :
    (((devAt Dev.bringup).wr F.hubCapTiles_PRESENT 0 0).dev = Dev.bringup ∧ ((devAt Dev.bringup).wr F.hubCapTiles_PRESENT 0 0).start.ptpWaiting = false ∧ ((devAt Dev.bringup).wr F.hubCapTiles_PRESENT 0 0).tilesPresent = 0) ∧
    (w3.dev = Dev.bringup ∧ w3.start.ptpWaiting = false ∧ w3.rel.held = [] ∧ (if (w3.bringReport { tiles := [], lanes := [] }).start.cold = true then { variant := (w3.bringReport { tiles := [], lanes := [] }).variant, regs := (w3.bringReport { tiles := [], lanes := [] }).regs, mem := [], ecc := [], cache := [], tlb := (w3.bringReport { tiles := [], lanes := [] }).tlb, beadMap := (w3.bringReport { tiles := [], lanes := [] }).beadMap, host := (w3.bringReport { tiles := [], lanes := [] }).host, nvmA := (w3.bringReport { tiles := [], lanes := [] }).nvmA, nvmB := (w3.bringReport { tiles := [], lanes := [] }).nvmB, life := (w3.bringReport { tiles := [], lanes := [] }).life, clk := (w3.bringReport { tiles := [], lanes := [] }).clk, pins := (w3.bringReport { tiles := [], lanes := [] }).pins, start := (w3.bringReport { tiles := [], lanes := [] }).start, mbox := (w3.bringReport { tiles := [], lanes := [] }).mbox, sec := (w3.bringReport { tiles := [], lanes := [] }).sec, ctxs := (w3.bringReport { tiles := [], lanes := [] }).ctxs, rings := (w3.bringReport { tiles := [], lanes := [] }).rings, served := (w3.bringReport { tiles := [], lanes := [] }).served, seedGens := (w3.bringReport { tiles := [], lanes := [] }).seedGens, pf0Reset := (w3.bringReport { tiles := [], lanes := [] }).pf0Reset, slots := (w3.bringReport { tiles := [], lanes := [] }).slots, queues := (w3.bringReport { tiles := [], lanes := [] }).queues, conns := (w3.bringReport { tiles := [], lanes := [] }).conns, net := (w3.bringReport { tiles := [], lanes := [] }).net, groups := (w3.bringReport { tiles := [], lanes := [] }).groups, grants := (w3.bringReport { tiles := [], lanes := [] }).grants, rwaits := (w3.bringReport { tiles := [], lanes := [] }).rwaits, brace := (w3.bringReport { tiles := [], lanes := [] }).brace, pwr := (w3.bringReport { tiles := [], lanes := [] }).pwr, rel := (w3.bringReport { tiles := [], lanes := [] }).rel, kfe := (w3.bringReport { tiles := [], lanes := [] }).kfe, msix := (w3.bringReport { tiles := [], lanes := [] }).msix, rate := (w3.bringReport { tiles := [], lanes := [] }).rate, out := (w3.bringReport { tiles := [], lanes := [] }).out, rdata := (w3.bringReport { tiles := [], lanes := [] }).rdata, nfree := (w3.bringReport { tiles := [], lanes := [] }).nfree, pending := (w3.bringReport { tiles := [], lanes := [] }).pending } else w3.bringReport { tiles := [], lanes := [] }).tilesPresent ≠ 0) ∧
    (w4.dev = Dev.bringup ∧ w4.start.ptpWaiting = true) ∧
    (ptp.ptpPort 0 = true ∧ (ptp.dev = Dev.bringup → ptp.start.ptpWaiting = true → ptp.holdFindings = [])) ∧
    (w5.ptpPort 0 = true ∧ (w5.dev = Dev.bringup → w5.start.ptpWaiting = true → w5.holdFindings = [])) :=
  ⟨by decide +kernel,
   by decide +kernel,
   by decide +kernel,
   by decide +kernel,
   by decide +kernel⟩
def w6 := {up with mem := [(5,1),(2^46+3,4)]}
theorem witness_WarmReset :
    ((Instr.pd01Loss = Instr.pd01Loss ∨ ∃ w, Instr.pd01Loss = Instr.watchdogRestart w) ∧ w6.canonical ∧ w6.mayRestart = true ∧ (∀ (j : MboxJob), w6.mbox = some j → j.writes = none)) ∧
    ((Instr.watchdogRestart WatchdogCause.secondCore = Instr.pd01Loss ∨ ∃ w, Instr.watchdogRestart WatchdogCause.secondCore = Instr.watchdogRestart w) ∧ w6.canonical ∧ w6.mayRestart = true ∧ (∀ (j : MboxJob), w6.mbox = some j → j.writes = none)) :=
  ⟨⟨(.inl rfl), (by unfold State.canonical; decide +kernel), by decide +kernel⟩,
   ⟨(.inr ⟨_, rfl⟩), (by unfold State.canonical; decide +kernel), by decide +kernel⟩⟩


end Start

namespace Power

def up1 : State := {up with pwr := {up.pwr with s1 := [3500000,4000000,3600000]}}
theorem witness_PowerSampleReading :
    (up.dev ≠ Dev.off) ∧
    (up1.dev ≠ Dev.off) :=
  ⟨by decide +kernel,
   by decide +kernel⟩
def w1 := {up with pwr := {therm := [(2,5)]}}
theorem witness_Thermal :
    (up.dev ≠ Dev.off) ∧
    (w1.dev ≠ Dev.off) ∧
    (up.dev ≠ Dev.off ∧ 110 ≤ 115) :=
  ⟨by decide +kernel,
   by decide +kernel,
   by decide +kernel⟩
def dom1 : State := {up with pwr := {idle := [(4,1000),(7,0)]}}
def st (d : Nat) : Nat := (dom1.stepTo d (dom1.ivl - if d = 4 then 1000 else 0)).getD 9
def dn : State := {up with pwr := {down := [(4,1),(6,0),(7,0)]}, mem := [(4,4)]}
def dirty : State := {dn with cache := [(3, {valid := 7, dirty := 2})]}
def wk : State := {(up.setDom 4 1) with pwr := {wake := [(4,100,1),(7,100,2),(6,100,2)]}}
def pk : State := sets up [(F.pwrPark_BUSY,0,1),(F.pwrPark_LEVEL,0,2)]
def atWork : State := {sets pk [(F.pwrPark_LEVEL,0,3)] with rings := [(64,{cmds := [{nop 1 with phase := .stalled, tiles := [3]}]})]}
theorem witness_DomainsAndParking :
    (dom1.serving = true ∧ dom1.domFitted 4 = true ∧ look dom1.pwr.down 4 = none ∧ look dom1.pwr.wake 4 = none ∧ look dom1.trackIdle.pwr.idle 4 = some 1000 ∧ dom1.stepTo 4 (dom1.ivl - 1000) = some (st 4)) ∧
    (dom1.serving = true ∧ dom1.domFitted 7 = true ∧ look dom1.pwr.down 7 = none ∧ look dom1.pwr.wake 7 = none ∧ look dom1.trackIdle.pwr.idle 7 = some 0 ∧ dom1.stepTo 7 (dom1.ivl - 0) = some (st 7)) ∧
    (look dn.pwr.down 4 = some 1 ∧ 1 < 4) ∧
    (look dirty.pwr.down 6 = some 0 ∧ 0 < 4) ∧
    (look dn.pwr.down 7 = some 0 ∧ 0 < 4) ∧
    (look wk.pwr.wake 4 = some (100, 1) ∧ look wk.pwr.down 4 = none) ∧
    (look wk.pwr.wake 4 = some (100, 1) ∧ look wk.pwr.down 4 = none ∧ 10 * wk.wakeNs 4 ≤ wk.ivl - 100 ∧ 1 < 2) ∧
    (look wk.pwr.wake 7 = some (100, 2) ∧ look wk.pwr.down 7 = none ∧ 10 * wk.wakeNs 7 ≤ wk.ivl - 100 ∧ 2 ≤ 2 ∧ isKfeDom 7 = true) ∧
    (look wk.pwr.wake 6 = some (100, 2) ∧ look wk.pwr.down 6 = none ∧ 10 * wk.wakeNs 6 ≤ wk.ivl - 100 ∧ 2 ≤ 2 ∧ isKfeDom 6 = false ∧ wk.rel.held = []) ∧
    (up.serving = true ∧ up.flag F.pwrPark_BUSY = false ∧ up.parkOk 1 = true) ∧
    (up.serving = true ∧ up.flag F.pwrPark_BUSY = false ∧ up.parkOk 0 = true) ∧
    ((up.wr F.pwrPark_CURRENT 0 2).serving = true ∧ (up.wr F.pwrPark_CURRENT 0 2).flag F.pwrPark_BUSY = false ∧ (up.wr F.pwrPark_CURRENT 0 2).parkOk 3 = true) ∧
    (pk.serving = true ∧ pk.flag F.pwrPark_BUSY = true ∧ pk.parkOk 1 = true) ∧
    (pk.flag F.pwrPark_BUSY = true ∧ pk.pwr.wake = [] ∧ pk.parkHeld = false) ∧
    (atWork.parkHeld = true) :=
  ⟨by decide +kernel,
   by decide +kernel,
   by decide +kernel,
   by decide +kernel,
   by decide +kernel,
   by decide +kernel,
   by decide +kernel,
   by decide +kernel,
   by decide +kernel,
   by decide +kernel,
   by decide +kernel,
   by decide +kernel,
   by decide +kernel,
   by decide +kernel,
   by decide +kernel⟩


end Power

namespace Braces

def cmdNop : Cmd := { count := 3, record := natLE 2 1 ++ [4] ++ List.replicate 61 0 }
def upc : State := {up with rings := [(0,{cmds := [cmdNop]})]}
theorem witness_BraceLatches :
    (upc.serving = true) ∧
    ((upc.wr F.hubState_STATE 0 Dev.paused).dev = Dev.paused) ∧
    (((upc.wr F.hubState_STATE 0 Dev.load).dev = Dev.rom ∨ (upc.wr F.hubState_STATE 0 Dev.load).dev = Dev.load ∨ (upc.wr F.hubState_STATE 0 Dev.load).dev = Dev.cfgCheck ∨ (upc.wr F.hubState_STATE 0 Dev.load).dev = Dev.bringup) ∧ (upc.wr F.hubState_STATE 0 Dev.load).rel.held = []) ∧
    (((upc.wr F.hubState_STATE 0 Dev.bringup).dev = Dev.rom ∨ (upc.wr F.hubState_STATE 0 Dev.bringup).dev = Dev.load ∨ (upc.wr F.hubState_STATE 0 Dev.bringup).dev = Dev.cfgCheck ∨ (upc.wr F.hubState_STATE 0 Dev.bringup).dev = Dev.bringup) ∧ (upc.wr F.hubState_STATE 0 Dev.bringup).rel.held = []) ∧
    (upc.dev ≠ Dev.off) :=
  ⟨by decide +kernel,
   by decide +kernel,
   by decide +kernel,
   by decide +kernel,
   by decide +kernel⟩
def br (p : Nat) : State := sets up [(F.hubState_STATE,0,Dev.braced),(F.mgtBraceStatus_PHASE,0,p),(F.mgtBraceCfg_COMMIT_MS,0,5)]
theorem witness_BracePhaseChanges :
    ((br 1).bracing = true ∧ (br 1).rel.halted = [] ∧ (br 1).rel.held = [] ∧ (br 1).rd F.mgtBraceStatus_PHASE = 1 ∧ 1 ≤ 1 ∧ 1 ≤ 5 ∧ (1 = 1 → (br 1).commitDone = true) ∧ (1 = 2 → (br 1).drained = true)) ∧
    ((br 2).bracing = true ∧ (br 2).rel.halted = [] ∧ (br 2).rel.held = [] ∧ (br 2).rd F.mgtBraceStatus_PHASE = 2 ∧ 1 ≤ 2 ∧ 2 ≤ 5 ∧ (2 = 1 → (br 2).commitDone = true) ∧ (2 = 2 → (br 2).drained = true)) ∧
    ((br 3).bracing = true ∧ (br 3).rel.halted = [] ∧ (br 3).rel.held = [] ∧ (br 3).rd F.mgtBraceStatus_PHASE = 3 ∧ 1 ≤ 3 ∧ 3 ≤ 5 ∧ (3 = 1 → (br 3).commitDone = true) ∧ (3 = 2 → (br 3).drained = true)) ∧
    ((br 4).bracing = true ∧ (br 4).rel.halted = [] ∧ (br 4).rel.held = [] ∧ (br 4).rd F.mgtBraceStatus_PHASE = 4 ∧ 1 ≤ 4 ∧ 4 ≤ 5 ∧ (4 = 1 → (br 4).commitDone = true) ∧ (4 = 2 → (br 4).drained = true)) ∧
    ((br 5).bracing = true ∧ (br 5).rel.halted = [] ∧ (br 5).rel.held = [] ∧ (br 5).rd F.mgtBraceStatus_PHASE = 5 ∧ 1 ≤ 5 ∧ 5 ≤ 5 ∧ (5 = 1 → (br 5).commitDone = true) ∧ (5 = 2 → (br 5).drained = true)) ∧
    ((br 1).bracing = true ∧ (br 1).rel.held = [] ∧ (br 1).rd F.mgtBraceStatus_PHASE = 1 ∧ (1 = 1 ∧ F.mgtBraceCfg_COMMIT_MS = F.mgtBraceCfg_COMMIT_MS ∨ 1 = 2 ∧ F.mgtBraceCfg_COMMIT_MS = F.mgtBraceCfg_DRAIN_MS ∨ 1 = 3 ∧ F.mgtBraceCfg_COMMIT_MS = F.mgtBraceCfg_PUSH_MS) ∧ (br 1).brace.phaseAt + (br 1).rd F.mgtBraceCfg_COMMIT_MS * 1000000 ≤ (br 1).ivl) ∧
    ((br 2).bracing = true ∧ (br 2).rel.held = [] ∧ (br 2).rd F.mgtBraceStatus_PHASE = 2 ∧ (2 = 1 ∧ F.mgtBraceCfg_DRAIN_MS = F.mgtBraceCfg_COMMIT_MS ∨ 2 = 2 ∧ F.mgtBraceCfg_DRAIN_MS = F.mgtBraceCfg_DRAIN_MS ∨ 2 = 3 ∧ F.mgtBraceCfg_DRAIN_MS = F.mgtBraceCfg_PUSH_MS) ∧ (br 2).brace.phaseAt + (br 2).rd F.mgtBraceCfg_DRAIN_MS * 1000000 ≤ (br 2).ivl) ∧
    ((br 3).bracing = true ∧ (br 3).rel.held = [] ∧ (br 3).rd F.mgtBraceStatus_PHASE = 3 ∧ (3 = 1 ∧ F.mgtBraceCfg_PUSH_MS = F.mgtBraceCfg_COMMIT_MS ∨ 3 = 2 ∧ F.mgtBraceCfg_PUSH_MS = F.mgtBraceCfg_DRAIN_MS ∨ 3 = 3 ∧ F.mgtBraceCfg_PUSH_MS = F.mgtBraceCfg_PUSH_MS) ∧ (br 3).brace.phaseAt + (br 3).rd F.mgtBraceCfg_PUSH_MS * 1000000 ≤ (br 3).ivl) :=
  ⟨by decide +kernel,
   by decide +kernel,
   by decide +kernel,
   by decide +kernel,
   by decide +kernel,
   by decide +kernel,
   by decide +kernel,
   by decide +kernel⟩
def cr : State := sets up [(F.mgtCores_UP,0,15)]
def cr2 : State := {cr with rel := {restarts := [(1,3999999999000),(1,3999999999999)]}}
def w1 := {cr.wr F.mgtCores_UP 0 13 with rel := {halted := [(1,1,5)]}}
theorem witness_CoreRestarts :
    ((Instr.coreHeartbeatLapse 1 = Instr.coreHeartbeatLapse 1 ∧ 1 = 1 ∨ Instr.coreHeartbeatLapse 1 = Instr.coreMemoryError 1 ∧ 1 = 2) ∧ cr.coreRuns 1 = true ∧ cr.rel.held = []) ∧
    ((Instr.coreMemoryError 0 = Instr.coreHeartbeatLapse 0 ∧ 2 = 1 ∨ Instr.coreMemoryError 0 = Instr.coreMemoryError 0 ∧ 2 = 2) ∧ cr.coreRuns 0 = true ∧ cr.rel.held = []) ∧
    ((Instr.coreMemoryError 1 = Instr.coreHeartbeatLapse 1 ∧ 2 = 1 ∨ Instr.coreMemoryError 1 = Instr.coreMemoryError 1 ∧ 2 = 2) ∧ cr2.coreRuns 1 = true ∧ cr2.rel.held = []) ∧
    (w1.coreHalted 1 = true) :=
  ⟨by decide +kernel,
   by decide +kernel,
   by decide +kernel,
   by decide +kernel⟩
def cpy : RetireCopy := {slot := 0, lane := 9, piece := 2}
def w2 : State := {sets up [(F.memReserve_PER_STACK,0,2)] with rel := {copies := [(3,cpy)]}, mem := [(3*256,5), (2^40+7,1)]}
def w3 := {sets up [(F.memReserve_PER_STACK,0,2)] with rel := {retrain := [9,3]}}
def w4 : State := {w3 with rel := {retrain := [9,3], spares := [(2,33,0,0),(2,34,0,1),(2,35,1,2),(2,36,1,3)]}}
theorem witness_LaneRepairs :
    (w2.mem.wf = true ∧ look w2.rel.copies (128 * 0 + 3) = some cpy ∧ look w2.rel.slots (128 * 0 + 3) = none ∧ cpy.slot < w2.slotsOf (0 / 5) ∧ cpy.piece < 383) ∧
    ((Instr.periodicRetrain 2 1 [] = Instr.periodicRetrain 2 1 [] ∨ Instr.periodicRetrain 2 1 [] = Instr.earlyRetrain 2 1 []) ∧ w3.stackUp 2 = true) ∧
    ((Instr.earlyRetrain 2 1 [{ channel := 40, lane := 7 }] = Instr.periodicRetrain 2 1 [{ channel := 40, lane := 7 }] ∨ Instr.earlyRetrain 2 1 [{ channel := 40, lane := 7 }] = Instr.earlyRetrain 2 1 [{ channel := 40, lane := 7 }] ∧ 4 * 2 + 1 ∈ w3.rel.retrain) ∧ w3.stackUp 2 = true ∧ 40 / 32 = 1 ∧ w3.chanOut 2 40 = false ∧ 0 < w3.sparesLeft 2 1 ∧ w3.sec.xi = none) ∧
    ((Instr.earlyRetrain 2 1 [{ channel := 40, lane := 7 }] = Instr.periodicRetrain 2 1 [{ channel := 40, lane := 7 }] ∨ Instr.earlyRetrain 2 1 [{ channel := 40, lane := 7 }] = Instr.earlyRetrain 2 1 [{ channel := 40, lane := 7 }] ∧ 4 * 2 + 1 ∈ w4.rel.retrain) ∧ w4.stackUp 2 = true ∧ 40 / 32 = 1 ∧ w4.chanOut 2 40 = false ∧ look w4.rel.copies (128 * 2 + 40) = none ∧ w4.sparesLeft 2 1 = 0 ∧ w4.freeSlot (2 / 5) = some 0 ∧ w4.rel.held = []) :=
  ⟨by decide +kernel,
   by decide +kernel,
   by decide +kernel,
   by decide +kernel⟩
def tq : State := {sets up [(F.queCfg_ENABLE,20,1),(F.queCfg_RING_LOG2,20,16)] with start := {up.start with items := (4,3,0,20)::up.start.items}}
def tqo : State := {up with start := {up.start with items := (4,3,0,20)::up.start.items}}
theorem witness_TelemetryTicks :
    (tq.telemetryKind 8195 = some ((tq.telemetryKind 8195).getD 9) ∧ 17 ≤ tq.telemetryQueue ∧ tq.telemetryQueue ≤ 255 ∧ (tq.serving = true ∨ tq.dev = Dev.paused ∨ tq.dev = Dev.braced)) ∧
    (tqo.telemetryKind 8195 = some ((tq.telemetryKind 8195).getD 9) ∧ 17 ≤ tqo.telemetryQueue ∧ tqo.telemetryQueue ≤ 255 ∧ (tqo.serving = true ∨ tqo.dev = Dev.paused ∨ tqo.dev = Dev.braced)) :=
  ⟨by decide +kernel,
   by decide +kernel⟩


end Braces

namespace Reliab

def hot : State := {up with rel := {hotSince := some 0, coolSince := some 0}}
def hot2 : State := {hot.setCause Cse.coolant 0 with nfree := 1}
def ce : State := {up with rel := {ceWin := [(3,4294967295),(5,1000000000)], ceOver := [(3,5),(5,6)]}}
def ce2 : State := {(up.setCause Cse.ceRate 0) with rel := {ceClean := 23}}
theorem witness_DegradedCauses :
    (hot.dev ≠ Dev.off) ∧
    (hot2.dev ≠ Dev.off) ∧
    (Dev.bringup ≤ ce.dev) ∧
    (Dev.bringup ≤ ce2.dev) :=
  ⟨by decide +kernel,
   by decide +kernel,
   by decide +kernel,
   by decide +kernel⟩
def w1 := {up with rel := {shock := some (20,0,5)}}
def sh : State := {up with rel := {shock := some (200,0,5)}}
def lg : State := {up with sec := {xi := some []}}
theorem witness_FieldRecords :
    (up.dev ≠ Dev.off ∧ 20 < 50) ∧
    (w1.dev ≠ Dev.off ∧ 20 < 50) ∧
    (sh.rel.shock = some (200, 0, 5) ∧ 200 < 65536) ∧
    (up.dev ≠ Dev.off) ∧
    (lg.logReady = true ∧ lg.rel.held = [] ∧ 600000000000 ≤ lg.ivl - lg.rel.mirrorAt ∧ lg.sec.xi ≠ none) ∧
    (lg.dev ≠ Dev.off ∧ lg.rel.held = []) :=
  ⟨by decide +kernel,
   by decide +kernel,
   by decide +kernel,
   by decide +kernel,
   by decide +kernel,
   by decide +kernel⟩
def te : State := {up.setDom (tileDom 7) 1 with rel := {offSince := [(5,0)]}, clk := {ivl := 10^18}}

def te2 : State := {up with rel := {testing := [7]}}
def reg : State := {sets up [(F.memRegionCfg_VALID,0,1),(F.memRegionCfg_SHARE,0,16),(F.memRegionCfg_RADIUS,0,4)] with ecc := [(2*2^40+64*5,{bad:=7}),(3*2^40+64*5,{bad:=7})]}
def held : State := {reg with cache := [(lineOf 2 0x200,{valid := 1, dirty := 1}),(lineOf 3 0x200,{valid := 3})]}
theorem witness_TestsAndScrubs :
    (te.testDue 7 = true) ∧
    (7 ∈ te2.rel.testing ∧ te2.domOn (tileDom 7) = true) ∧
    (reg.stackUp 2 = true ∧ reg.domOn (dieDom (2 / 5)) = true ∧ reg.chanLost 2 (chanOf (5 * 64)) = false ∧ (lookD reg.ecc (reg.homeKey 2 (5 * 64)) { }).poison = false ∧ 7#72 ≠ 0 ∧ badCount 7#72 ≤ reg.radius 2 (5 * 64)) ∧
    ((reg.wr F.memRegionCfg_RADIUS 0 2).stackUp 2 = true ∧ (reg.wr F.memRegionCfg_RADIUS 0 2).domOn (dieDom (2 / 5)) = true ∧ (reg.wr F.memRegionCfg_RADIUS 0 2).chanLost 2 (chanOf (5 * 64)) = false ∧ (lookD (reg.wr F.memRegionCfg_RADIUS 0 2).ecc ((reg.wr F.memRegionCfg_RADIUS 0 2).homeKey 2 (5 * 64)) { }).poison = false ∧ 15#72 ≠ 0 ∧ (reg.wr F.memRegionCfg_RADIUS 0 2).radius 2 (5 * 64) < badCount 15#72 ∧ badCount 15#72 ≤ 8 - (reg.wr F.memRegionCfg_RADIUS 0 2).radius 2 (5 * 64)) ∧
    (7 * 64 < 29360128) ∧
    ((∃ tile g, SramWord.tile 9 (7#20) true = SramWord.tile tile g true) ∨ ∃ stack g, SramWord.tile 9 (7#20) true = SramWord.cache stack g true) ∧
    (held.stackUp 2 = true ∧ held.cached 2 (8 * 64) = true ∧ held.dirtyAt 2 (8 * 64) = true) ∧
    (held.stackUp 3 = true ∧ held.cached 3 (8 * 64) = true ∧ held.dirtyAt 3 (8 * 64) = false ∧ held.chanLost 3 (chanOf (8 * 64)) = false ∧ lookD held.ecc (held.homeKey 3 (8 * 64)) { } = { }) ∧
    (reg.stackUp 9 = true) :=
  ⟨by decide +kernel,
   by decide +kernel,
   by decide +kernel,
   by decide +kernel,
   by decide +kernel,
   (.inl ⟨_, _, rfl⟩),
   by decide +kernel,
   by decide +kernel,
   by decide +kernel⟩


end Reliab

namespace HostSide

def ac : State := sets up [(F.ctxState_STATE,3,1),(F.ctxState_STATE,4,3),(F.hubWindow_BASE,0,5)]
def pa : State := ac.wr F.hubState_STATE 0 Dev.paused
def acm : State := {ac with mbox := some {cmd := 1, args := []}}
theorem witness_FunctionResets :
    (ac.dev ≠ Dev.off ∧ ac.dev ≠ Dev.paused ∧ ac.ctxState 3 ≠ Ctx.disabling) ∧
    (pa.dev = Dev.paused ∧ pa.ctxState 3 ≠ Ctx.disabling) ∧
    (acm.dev ≠ Dev.off ∧ acm.dev ≠ Dev.paused) ∧
    ((Instr.pf0Flr = Instr.pf0Flr ∨ Instr.pf0Flr = Instr.hotReset) ∧ Dev.rom ≤ acm.dev ∧ acm.dev ≠ Dev.paused) ∧
    ((Instr.hotReset = Instr.pf0Flr ∨ Instr.hotReset = Instr.hotReset) ∧ Dev.rom ≤ acm.dev ∧ acm.dev ≠ Dev.paused) ∧
    ((Instr.pf0Flr = Instr.pf0Flr ∨ Instr.pf0Flr = Instr.hotReset ∨ Instr.pf0Flr = Instr.vfDisable) ∧ pa.dev = Dev.paused) ∧
    ((Instr.hotReset = Instr.pf0Flr ∨ Instr.hotReset = Instr.hotReset ∨ Instr.hotReset = Instr.vfDisable) ∧ pa.dev = Dev.paused) ∧
    ((Instr.vfDisable = Instr.pf0Flr ∨ Instr.vfDisable = Instr.hotReset ∨ Instr.vfDisable = Instr.vfDisable) ∧ pa.dev = Dev.paused) ∧
    (Dev.rom ≤ acm.dev ∧ acm.dev ≠ Dev.paused) :=
  ⟨by decide +kernel,
   by decide +kernel,
   by decide +kernel,
   by decide +kernel,
   by decide +kernel,
   by decide +kernel,
   by decide +kernel,
   by decide +kernel,
   by decide +kernel⟩
theorem witness_LinkAndPins :
    (Dev.rom ≤ acm.dev) ∧
    (Dev.rom ≤ acm.dev ∧ linkOk 5 8 = true ∧ (5#3 = 0 ∨ acm.pins.perst = false)) ∧
    (acm.dev ≠ Dev.off) ∧
    (Dev.rom ≤ acm.dev ∧ acm.pins.mgmtBinding.getD false = false ∧ acm.dutyHeld 0 = false ∧ 0 < 16384 ∧ acm.spotAt Fn.pf0 0 = Spot.reg (match acm.spotAt Fn.pf0 0 with | Spot.reg r i => r | x => 99) 0) ∧
    (Dev.rom ≤ acm.dev ∧ acm.pins.mgmtBinding.getD false = false ∧ acm.dutyHeld 0 = false) :=
  ⟨by decide +kernel,
   by decide +kernel,
   by decide +kernel,
   by decide +kernel,
   by decide +kernel⟩
def cn : State := sets up [(F.ctxKvCounts_COW,2,7),(F.memEccCount_CORRECTED,3,9),(F.netPortStatus_DOWN_EVENTS,1,3),(F.netPortStatus_UP0,1,1)]
theorem witness_CountReads :
    (countRead cn (Instr.memEccCountRead 3) = some (true, Reg.memEccCount, 3) ∧ true = true ∧ cn.unitGone Reg.memEccCount 3 = false) ∧
    (countRead cn (Instr.netPortStatusRead 1) = some (true, Reg.netPortStatus, 1) ∧ true = true ∧ cn.unitGone Reg.netPortStatus 1 = false) ∧
    (countRead cn (Instr.ctxKvCountsRead (Fn.vf 2) 2) = some (true, Reg.ctxKvCounts, 2) ∧ true = true ∧ cn.unitGone Reg.ctxKvCounts 2 = false) ∧
    (countRead cn (Instr.ctxKvCountsRead (Fn.vf 3) 2) = some (false, Reg.ctxKvCounts, 2) ∧ (false = false ∨ cn.unitGone Reg.ctxKvCounts 2 = true)) ∧
    (countRead cn Instr.hubLinkRead = some (true, Reg.hubLink, 0) ∧ true = true ∧ cn.unitGone Reg.hubLink 0 = false) ∧
    (countRead cn Instr.pwrTempRead = some (true, Reg.pwrTemp, 0) ∧ true = true ∧ cn.unitGone Reg.pwrTemp 0 = false) ∧
    (countRead cn (Instr.queLostRead Fn.pf0 7) = some (true, Reg.queLost, 7) ∧ true = true ∧ cn.unitGone Reg.queLost 7 = false) :=
  ⟨by decide +kernel,
   by decide +kernel,
   by decide +kernel,
   by decide +kernel,
   by decide +kernel,
   by decide +kernel,
   by decide +kernel⟩

def rndv : State := (List.range 90).foldl (fun s r => s.setReg r 0 (BitVec.ofNat 64 (0x9e3779b97f4a7c15*(r+1)))) acm
def rnd : State := sets rndv [(F.hubState_STATE,0,7)]
def rndh : State := sets rndv [(F.hubState_STATE,0,Dev.cfgHold)]
def win : State := {acm.wr F.hubWindow_BASE 0 0x800 with mem := [(2^46+3,7),(2^46+5,9)]}
theorem witness_WindowAccesses :
    ((∀ (k : Nat) (g : Gran), look win.ecc k = some g → g.poison = false) ∧ Dev.rom ≤ win.dev ∧ win.windowOpen = true ∧ win.tilePresent 0 = true ∧ win.windowAddr 2 = 8796093022208 + 0 * 33554432 + 2 ∧ 2 + [1, 0, 3, 4].length ≤ 29360128) ∧
    ((∀ (k : Nat) (g : Gran), look win.ecc k = some g → g.poison = false) ∧ Dev.rom ≤ win.dev ∧ win.windowOpen = true ∧ win.tilePresent 0 = true ∧ win.windowAddr 2 = 8796093022208 + 0 * 33554432 + 2 ∧ 2 + 5 ≤ 29360128) ∧
    (Dev.rom ≤ win.dev ∧ win.windowReach (win.windowAddr 4261412864) 5 = false) ∧
    (Dev.rom ≤ win.dev ∧ win.windowReach (win.windowAddr 4261412864) bytes2.length = false) :=
  ⟨⟨(by intro k g h; rw [show win.ecc = [] by decide +kernel] at h; cases h), by decide +kernel⟩,
   ⟨(by intro k g h; rw [show win.ecc = [] by decide +kernel] at h; cases h), by decide +kernel⟩,
   by decide +kernel,
   by decide +kernel⟩
theorem witness_PlainWrites :
    (Dev.rom ≤ rnd.dev ∧ rnd.spotAt Fn.pf0 24 = Spot.reg 83 0 ∧ 83 ∈ [Reg.hubHealth, Reg.hubWindow, Reg.memHostBase, Reg.pwrIdle, Reg.memRegionCfg, Reg.memReserve, Reg.netPortCfg, Reg.netFabricCfg, Reg.kfeLiveCfg, Reg.queNotify, Reg.ctxFlags, Reg.ctxFramePool, Reg.ctxPgroup, Reg.tilSrngSeed]) ∧
    (Dev.rom ≤ rndh.dev ∧ rndh.spotAt Fn.pf0 24 = Spot.reg 83 0 ∧ 83 ∈ [Reg.hubHealth, Reg.hubWindow, Reg.memHostBase, Reg.pwrIdle, Reg.memRegionCfg, Reg.memReserve, Reg.netPortCfg, Reg.netFabricCfg, Reg.kfeLiveCfg, Reg.queNotify, Reg.ctxFlags, Reg.ctxFramePool, Reg.ctxPgroup, Reg.tilSrngSeed]) ∧
    (Dev.rom ≤ rnd.dev ∧ rnd.spotAt Fn.pf0 65672 = Spot.reg 15 0 ∧ 15 ∈ [Reg.hubHealth, Reg.hubWindow, Reg.memHostBase, Reg.pwrIdle, Reg.memRegionCfg, Reg.memReserve, Reg.netPortCfg, Reg.netFabricCfg, Reg.kfeLiveCfg, Reg.queNotify, Reg.ctxFlags, Reg.ctxFramePool, Reg.ctxPgroup, Reg.tilSrngSeed]) ∧
    (Dev.rom ≤ rnd.dev ∧ rnd.spotAt Fn.pf0 8352 = Spot.reg 64 0 ∧ 64 ∈ [Reg.hubHealth, Reg.hubWindow, Reg.memHostBase, Reg.pwrIdle, Reg.memRegionCfg, Reg.memReserve, Reg.netPortCfg, Reg.netFabricCfg, Reg.kfeLiveCfg, Reg.queNotify, Reg.ctxFlags, Reg.ctxFramePool, Reg.ctxPgroup, Reg.tilSrngSeed]) ∧
    (Dev.rom ≤ rnd.dev ∧ rnd.spotAt Fn.pf0 131072 = Spot.reg 52 0 ∧ 52 ∈ [Reg.hubHealth, Reg.hubWindow, Reg.memHostBase, Reg.pwrIdle, Reg.memRegionCfg, Reg.memReserve, Reg.netPortCfg, Reg.netFabricCfg, Reg.kfeLiveCfg, Reg.queNotify, Reg.ctxFlags, Reg.ctxFramePool, Reg.ctxPgroup, Reg.tilSrngSeed]) ∧
    (acm.spotAt Fn.pf0 4 = Spot.empty) ∧
    (Dev.rom ≤ rnd.dev ∧ rnd.spotAt Fn.pf0 2162768 = Spot.reg Reg.ctxFlags 1 ∧ Reg.ctxFlags ∈ [Reg.hubHealth, Reg.hubWindow, Reg.memHostBase, Reg.pwrIdle, Reg.memRegionCfg, Reg.memReserve, Reg.netPortCfg, Reg.netFabricCfg, Reg.kfeLiveCfg, Reg.queNotify, Reg.ctxFlags, Reg.ctxFramePool, Reg.ctxPgroup, Reg.tilSrngSeed]) ∧
    (Dev.rom ≤ rnd.dev ∧ rnd.spotAt (Fn.vf 1) 80 = Spot.reg Reg.ctxFlags 1 ∧ Reg.ctxFlags ∈ [Reg.hubHealth, Reg.hubWindow, Reg.memHostBase, Reg.pwrIdle, Reg.memRegionCfg, Reg.memReserve, Reg.netPortCfg, Reg.netFabricCfg, Reg.kfeLiveCfg, Reg.queNotify, Reg.ctxFlags, Reg.ctxFramePool, Reg.ctxPgroup, Reg.tilSrngSeed]) ∧
    (Dev.rom ≤ rnd.dev ∧ rnd.spotAt Fn.pf0 2097200 = Spot.reg Reg.ctxFramePool 0 ∧ Reg.ctxFramePool ∈ [Reg.hubHealth, Reg.hubWindow, Reg.memHostBase, Reg.pwrIdle, Reg.memRegionCfg, Reg.memReserve, Reg.netPortCfg, Reg.netFabricCfg, Reg.kfeLiveCfg, Reg.queNotify, Reg.ctxFlags, Reg.ctxFramePool, Reg.ctxPgroup, Reg.tilSrngSeed]) ∧
    (Dev.rom ≤ rnd.dev ∧ rnd.spotAt Fn.pf0 2097304 = Spot.reg Reg.ctxPgroup 0 ∧ Reg.ctxPgroup ∈ [Reg.hubHealth, Reg.hubWindow, Reg.memHostBase, Reg.pwrIdle, Reg.memRegionCfg, Reg.memReserve, Reg.netPortCfg, Reg.netFabricCfg, Reg.kfeLiveCfg, Reg.queNotify, Reg.ctxFlags, Reg.ctxFramePool, Reg.ctxPgroup, Reg.tilSrngSeed]) ∧
    (Dev.rom ≤ rnd.dev ∧ rnd.spotAt Fn.pf0 2098176 = Spot.reg Reg.tilSrngSeed 0 ∧ Reg.tilSrngSeed ∈ [Reg.hubHealth, Reg.hubWindow, Reg.memHostBase, Reg.pwrIdle, Reg.memRegionCfg, Reg.memReserve, Reg.netPortCfg, Reg.netFabricCfg, Reg.kfeLiveCfg, Reg.queNotify, Reg.ctxFlags, Reg.ctxFramePool, Reg.ctxPgroup, Reg.tilSrngSeed]) ∧
    (Dev.rom ≤ rnd.dev ∧ rnd.spotAt (Fn.vf 0) 1024 = Spot.reg Reg.tilSrngSeed 0 ∧ Reg.tilSrngSeed ∈ [Reg.hubHealth, Reg.hubWindow, Reg.memHostBase, Reg.pwrIdle, Reg.memRegionCfg, Reg.memReserve, Reg.netPortCfg, Reg.netFabricCfg, Reg.kfeLiveCfg, Reg.queNotify, Reg.ctxFlags, Reg.ctxFramePool, Reg.ctxPgroup, Reg.tilSrngSeed]) :=
  ⟨by decide +kernel,
   by decide +kernel,
   by decide +kernel,
   by decide +kernel,
   by decide +kernel,
   by decide +kernel,
   by decide +kernel,
   by decide +kernel,
   by decide +kernel,
   by decide +kernel,
   by decide +kernel,
   by decide +kernel⟩


end HostSide

namespace Contexts

def ac : State := {sets up [(F.ctxState_STATE,1,1),(F.ctxState_STATE,4,3)] with rings := [(64,{cmds := [nop 3]})]}
theorem witness_ContextControl :
    ((Instr.ctxPreempt (CtxSrc.fn Fn.pf0) 1 = Instr.ctxPreempt (CtxSrc.fn Fn.pf0) 1 ∧ false = false ∨ Instr.ctxPreempt (CtxSrc.fn Fn.pf0) 1 = Instr.ctxEvict (CtxSrc.fn Fn.pf0) 1 ∧ false = true) ∧ (ac.ctxState 1 = Ctx.idle ∨ ac.ctxState 1 = Ctx.active)) ∧
    ((Instr.ctxEvict (CtxSrc.fn Fn.pf0) 1 = Instr.ctxPreempt (CtxSrc.fn Fn.pf0) 1 ∧ true = false ∨ Instr.ctxEvict (CtxSrc.fn Fn.pf0) 1 = Instr.ctxEvict (CtxSrc.fn Fn.pf0) 1 ∧ true = true) ∧ (ac.ctxState 1 = Ctx.idle ∨ ac.ctxState 1 = Ctx.active)) ∧
    (ac.ctxState 4 = Ctx.preempted) :=
  ⟨by decide +kernel,
   by decide +kernel,
   by decide +kernel⟩
def pr : State := {sets up [(F.ctxState_STATE,1,Ctx.preempting),(F.beadAttr_OWNER,5,1),(F.beadAttr_STATE,5,1),(F.beadAttr_STATE,6,1),(F.ctxSave_SIZE,1,16)] with ctxs := [(1,{evict:=true})]}
def pr2 : State := {pr with ctxs := [], rings := [(64,{cmds := [nop 3]})], mem := []}
def rs : State := {sets up [(F.ctxState_STATE,1,Ctx.resuming),(F.beadAttr_OWNER,5,1),(F.beadAttr_STATE,5,2),(F.beadAttr_STATE,6,2)] with ctxs := [(1,{evict:=true})]}
theorem witness_PreemptAndResume :
    (pr.ctxState 1 = Ctx.preempting ∧ pr.preemptReady 1 = true ∧ ((pr.ctx 1).evict = true ∧ pr.ctxCmds 1 = [] ∨ (pr.ctx 1).evict = false ∧ 16 ≤ pr.rd F.ctxSave_SIZE 1)) ∧
    (pr2.ctxState 1 = Ctx.preempting ∧ pr2.preemptReady 1 = true ∧ ((pr2.ctx 1).evict = true ∧ pr2.ctxCmds 1 = [] ∨ (pr2.ctx 1).evict = false ∧ 16 ≤ pr2.rd F.ctxSave_SIZE 1)) ∧
    (rs.ctxState 1 = Ctx.resuming ∧ rs.ctxCmds 1 = []) :=
  ⟨by decide +kernel,
   by decide +kernel,
   by decide +kernel⟩
def iv : State := ac.wr F.ctxState_INVAL_BUSY 1 1
def di : State := {sets up [(F.ctxState_STATE,1,Ctx.disabling),(F.ctxMmuRoot_TABLE,1,7),(F.ctxVersion_CURRENT,1,8)] with rings := [(3,{cmds := [nop 3]}),(64,{cmds := [nop 3]}),(65,{cmds := [{nop 4 with phase := .stalled, stalls := [{unit := 0, src := 0, kind := .cow, va := 0, pte := 0, entry := 0, since := 0},{unit := 1, src := 0, kind := .cow, va := 0, pte := 0, entry := 0, since := 0}]}]})], groups := [{ctx := 1, id := 0, conns := [], self := 0},{ctx := 2, id := 0, conns := [], self := 0}]}
def di2 : State := {di with rings := [(3,{cmds := [nop 3]}),(64,{cmds := [nop 3]})]}
theorem witness_InvalidateAndDisable :
    (Fn.reaches Fn.pf0 1 = true ∧ ac.flag F.ctxState_INVAL_BUSY 1 = false) ∧
    (Fn.reaches (Fn.vf 1) 1 = true ∧ ac.flag F.ctxState_INVAL_BUSY 1 = false) ∧
    (Fn.reaches (Fn.vf 1) 1 = false ∨ iv.flag F.ctxState_INVAL_BUSY 1 = true) ∧
    (Fn.reaches (Fn.vf 2) 1 = false ∨ ac.flag F.ctxState_INVAL_BUSY 1 = true) ∧
    (iv.flag F.ctxState_INVAL_BUSY 1 = true) ∧
    (di.ctxState 1 = Ctx.disabling ∧ (di.ctx 1).disabledAt + 20000000 ≤ di.ivl) ∧
    (di2.ctxState 1 = Ctx.disabling ∧ di2.ctxStalls 1 = []) :=
  ⟨by decide +kernel,
   by decide +kernel,
   by decide +kernel,
   by decide +kernel,
   by decide +kernel,
   by decide +kernel,
   by decide +kernel⟩
def en : State := sets ac [(F.ctxRingCfg_ENABLE,64,1),(F.ctxRingCfg_LOG2,64,6),(F.ctxRingCfg_ENABLE,0,1),(F.ctxRingCfg_LOG2,0,6)]
def enp : State := sets en [(F.hubState_STATE,0,Dev.paused)]
def enr : State := {en with rings := [(64,{remap := some (64*2^32+3), cmds := [{nop 3 with record := recd 0xA1 4, phase := .waiting}]})]}
theorem witness_Doorbells :
    (Fn.reaches (Fn.vf 2) 1 = false) ∧
    ((devAt Dev.bringup).serving = false ∧ (devAt Dev.bringup).dev ≠ Dev.paused) ∧
    (en.flag F.ctxRingCfg_ENABLE (ringKey 1 1) = false) ∧
    (Fn.reaches Fn.pf0 1 = true ∧ (enp.dev = Dev.paused ∨ enp.serving = true ∧ enp.remapHeld (ringKey 1 0) = true) ∧ enp.ctxEnabled 1 = true ∧ enp.flag F.ctxRingCfg_ENABLE (ringKey 1 0) = true ∧ enp.parkedDeep = false ∧ (7 + 2 ^ 32 - enp.rd F.ctxRingStatus_HEAD (ringKey 1 0)) % 2 ^ 32 ≤ 2 ^ enp.rd F.ctxRingCfg_LOG2 (ringKey 1 0)) ∧
    (Fn.reaches (Fn.vf 1) 1 = true ∧ (enr.dev = Dev.paused ∨ enr.serving = true ∧ enr.remapHeld (ringKey 1 0) = true) ∧ enr.ctxEnabled 1 = true ∧ enr.flag F.ctxRingCfg_ENABLE (ringKey 1 0) = true ∧ enr.parkedDeep = false ∧ (7 + 2 ^ 32 - enr.rd F.ctxRingStatus_HEAD (ringKey 1 0)) % 2 ^ 32 ≤ 2 ^ enr.rd F.ctxRingCfg_LOG2 (ringKey 1 0)) ∧
    (Fn.reaches Fn.pf0 1 = true ∧ en.serving = true ∧ en.ctxEnabled 1 = true ∧ en.flag F.ctxRingCfg_ENABLE (ringKey 1 0) = true ∧ en.parkedDeep = false ∧ (7 + 2 ^ 32 - en.rd F.ctxRingStatus_HEAD (ringKey 1 0)) % 2 ^ 32 ≤ 2 ^ en.rd F.ctxRingCfg_LOG2 (ringKey 1 0)) ∧
    (Fn.reaches Fn.pf0 1 = true ∧ en.serving = true ∧ en.ctxEnabled 1 = true ∧ en.flag F.ctxRingCfg_ENABLE (ringKey 1 0) = true ∧ en.parkedDeep = false ∧ (64 + 2 ^ 32 - en.rd F.ctxRingStatus_HEAD (ringKey 1 0)) % 2 ^ 32 ≤ 2 ^ en.rd F.ctxRingCfg_LOG2 (ringKey 1 0)) ∧
    (Fn.reaches Fn.pf0 1 = true ∧ en.serving = true ∧ en.ctxEnabled 1 = true ∧ en.flag F.ctxRingCfg_ENABLE (ringKey 1 0) = true ∧ en.parkedDeep = false ∧ 2 ^ en.rd F.ctxRingCfg_LOG2 (ringKey 1 0) < (65 + 2 ^ 32 - en.rd F.ctxRingStatus_HEAD (ringKey 1 0)) % 2 ^ 32 ∧ (65 + 2 ^ 32 - en.rd F.ctxRingStatus_HEAD (ringKey 1 0)) % 2 ^ 32 < 2 ^ 31 ∧ en.flag F.ctxRingCtrl_STOPPED (ringKey 1 0) = false) ∧
    (Fn.reaches Fn.pf0 1 = true ∧ en.serving = true ∧ en.ctxEnabled 1 = true ∧ en.flag F.ctxRingCfg_ENABLE (ringKey 1 0) = true ∧ en.parkedDeep = false ∧ 2 ^ en.rd F.ctxRingCfg_LOG2 (ringKey 1 0) < (2147483647 + 2 ^ 32 - en.rd F.ctxRingStatus_HEAD (ringKey 1 0)) % 2 ^ 32 ∧ (2147483647 + 2 ^ 32 - en.rd F.ctxRingStatus_HEAD (ringKey 1 0)) % 2 ^ 32 < 2 ^ 31 ∧ en.flag F.ctxRingCtrl_STOPPED (ringKey 1 0) = false) :=
  ⟨by decide +kernel,
   by decide +kernel,
   by decide +kernel,
   by decide +kernel,
   by decide +kernel,
   by decide +kernel,
   by decide +kernel,
   by decide +kernel,
   by decide +kernel⟩
def sp : State := sets en [(F.ctxRingCtrl_STOPPED,64,1),(F.ctxRingStatus_HEAD,64,0xFFFFFFFF)]
theorem witness_RingControl :
    (Fn.reaches (Fn.vf 2) 1 = false) ∧
    (Fn.reaches Fn.pf0 1 = true ∧ en.flag F.ctxRingCfg_ENABLE (ringKey 1 1) = false ∧ en.ctxEnabled 1 = true) ∧
    (Fn.reaches Fn.pf0 1 = true ∧ (en.wr F.ctxRingCtrl_IDLE 64 1).flag F.ctxRingCfg_ENABLE (ringKey 1 0) = true ∧ (en.wr F.ctxRingCtrl_IDLE 64 1).flag F.ctxRingCtrl_IDLE (ringKey 1 0) = true) ∧
    (Fn.reaches Fn.pf0 1 = true ∧ en.flag F.ctxRingCtrl_STOPPED (ringKey 1 0) = false) ∧
    (Fn.reaches Fn.pf0 1 = true ∧ sp.flag F.ctxRingCtrl_STOPPED (ringKey 1 0) = true) :=
  ⟨by decide +kernel,
   by decide +kernel,
   by decide +kernel,
   by decide +kernel,
   by decide +kernel⟩


end Contexts

namespace Rings

def rf : State := sets (paged.writePhys 0x10000 (recd 1 4)).2 [(F.ctxRingStatus_TAIL,64,1)]
def rfa : List Byte × Sys2Proof.Machine.Acc := (uRead (rf.recordVa (ringKey 1 0) (rf.rd F.ctxRingStatus_HEAD (ringKey 1 0))) 64).run
  (rf.acc 1 (Unit.die (rf.fetchDie (ringKey 1 0))) (rf.ring (ringKey 1 0)).loan)
def rg : State := sets (paged.writePhys 0x10000 (1 :: (recd 1 4).drop 1)).2 [(F.ctxRingStatus_TAIL,64,1),(F.ctxRingStatus_HEAD,64,0)]
def rg2 : State := (rg.writePhys 0x10004 [3]).2
def rga : List Byte × Sys2Proof.Machine.Acc := (uRead (rg2.recordVa (ringKey 1 0) (rg2.rd F.ctxRingStatus_HEAD (ringKey 1 0))) 64).run
  (rg2.acc 1 (Unit.die (rg2.fetchDie (ringKey 1 0))) (rg2.ring (ringKey 1 0)).loan)
theorem witness_RecordFetches :
    (StateT.run (uRead (rf.recordVa (ringKey 1 0) (rf.rd F.ctxRingStatus_HEAD (ringKey 1 0))) 64) (rf.acc 1 (Unit.die (rf.fetchDie (ringKey 1 0))) (rf.ring (ringKey 1 0)).loan) = (rfa.fst, rfa.snd) ∧ rfa.snd.fault = none ∧ rfa.snd.lost = [] ∧ (rfa.snd.s.ctxState 1 = Ctx.idle ∨ rfa.snd.s.ctxState 1 = Ctx.active) ∧ crc32c (List.take 56 rfa.fst) = fieldAt rfa.fst 56 0 32 ∧ fieldAt rfa.fst 40 0 5 = 0 ∧ rf.mayFetch (ringKey 1 0) = true) ∧
    (StateT.run (uRead (rg2.recordVa (ringKey 1 0) (rg2.rd F.ctxRingStatus_HEAD (ringKey 1 0))) 64) (rg2.acc 1 (Unit.die (rg2.fetchDie (ringKey 1 0))) (rg2.ring (ringKey 1 0)).loan) = (rga.fst, rga.snd) ∧ rga.snd.fault = none ∧ rga.snd.lost = [] ∧ (rga.snd.s.ctxState 1 = Ctx.idle ∨ rga.snd.s.ctxState 1 = Ctx.active) ∧ crc32c (List.take 56 rga.fst) ≠ fieldAt rga.fst 56 0 32 ∧ rg2.mayFetch (ringKey 1 0) = true) :=
  ⟨⟨(Prod.eta rfa).symm, (by delta rfa State.fetchDie; generalize Config.fetchDie _ _ _ = d; revert d; decide +kernel), (by delta rfa State.fetchDie; generalize Config.fetchDie _ _ _ = d; revert d; decide +kernel), (by delta rfa State.fetchDie; generalize Config.fetchDie _ _ _ = d; revert d; decide +kernel), (by delta rfa State.fetchDie; generalize Config.fetchDie _ _ _ = d; revert d; decide +kernel), (by delta rfa State.fetchDie; generalize Config.fetchDie _ _ _ = d; revert d; decide +kernel), by decide +kernel⟩,
   ⟨(Prod.eta rga).symm, (by delta rga State.fetchDie; generalize Config.fetchDie _ _ _ = d; revert d; decide +kernel), (by delta rga State.fetchDie; generalize Config.fetchDie _ _ _ = d; revert d; decide +kernel), (by delta rga State.fetchDie; generalize Config.fetchDie _ _ _ = d; revert d; decide +kernel), (by delta rga State.fetchDie; generalize Config.fetchDie _ _ _ = d; revert d; decide +kernel), by decide +kernel⟩⟩
def cc : State := {paged with rings := [(64,{cmds := [{nop 3 with phase := .ended},nop 4]})]}
def cid : CmdId := { ctx := 1, ring := 0, count := 3 }
def w1 := {nop 3 with phase := .ended}
def sg : Cmd := { nop 3 with phase := .ended, record := recd 1 4 (natLE 20 0 ++ natLE 2 5 ++ natLE 2 3) }
def cs : State := bm {cc with rings := [(64,{cmds := [sg,nop 4]})]}
theorem witness_Completions :
    (cc.cmd cid = some w1 ∧ cc.completes 1 = true ∧ w1.phase = Phase.ended ∧ w1.loanOut = [] ∧ (cc.ring (CmdKey cid)).complStall = none ∧ w1.complAddr = 0) ∧
    (cs.cmd cid = some sg ∧ cs.completes 1 = true ∧ sg.phase = Phase.ended ∧ sg.loanOut = [] ∧ (cs.ring (CmdKey cid)).complStall = none ∧ sg.complAddr = 0) :=
  ⟨by decide +kernel,
   by decide +kernel⟩
/-- a BEAD_OP WAIT that waits on vid 5 -/
def wt : Cmd := { nop 3 with record := recd 1 4 ([0,0,0,0] ++ natLE 2 5 ++ natLE 6 0 ++ natLE 2 0) }
def wb (op : Nat) : Cmd := { nop 3 with record := recd op 4, phase := .waiting, armed := true, desc := [2,0,5], since := some 0, limit := 1000 }
def ws (op : Nat) : State := bm {paged with rings := [(64,{cmds := [wb op, nop 4]})]}
def wsn (op : Nat) : State := sets (ws op) [(F.ctxBeadCfg_STOP_ON_TIMEOUT,1,0),(F.ctxBeadLog_VALID,1,1)]
def wf : Cmd := { nop 3 with record := recd 1 4 ([0,0] ++ natLE 2 1 ++ natLE 2 5 ++ natLE 6 9), armed := true, since := some 0, limit := 1000 }
def wfs : State := bm {paged with rings := [(64,{cmds := [wf, nop 4]})]}
theorem witness_WaitExpiries :
    ((ws 144).cmd cid = some (wb 144) ∧ (true = true ∧ Instr.beadWaitExpiry cid = Instr.beadWaitExpiry cid ∧ (ws 144).awaitsBead 1 (wb 144) = true ∨ true = false ∧ Instr.beadWaitExpiry cid = Instr.pegWaitExpiry cid ∧ (ws 144).awaitsPeg 1 (wb 144) = true) ∧ (wb 144).limit ≤ (ws 144).waited (wb 144) ∧ (ws 144).rd F.ctxRingCfg_LOG2 (CmdKey cid) ≤ 16) ∧
    ((ws 145).cmd cid = some (wb 145) ∧ (false = true ∧ Instr.pegWaitExpiry cid = Instr.beadWaitExpiry cid ∧ (ws 145).awaitsBead 1 (wb 145) = true ∨ false = false ∧ Instr.pegWaitExpiry cid = Instr.pegWaitExpiry cid ∧ (ws 145).awaitsPeg 1 (wb 145) = true) ∧ (wb 145).limit ≤ (ws 145).waited (wb 145) ∧ (ws 145).rd F.ctxRingCfg_LOG2 (CmdKey cid) ≤ 16) ∧
    ((wsn 144).cmd cid = some (wb 144) ∧ (true = true ∧ Instr.beadWaitExpiry cid = Instr.beadWaitExpiry cid ∧ (wsn 144).awaitsBead 1 (wb 144) = true ∨ true = false ∧ Instr.beadWaitExpiry cid = Instr.pegWaitExpiry cid ∧ (wsn 144).awaitsPeg 1 (wb 144) = true) ∧ (wb 144).limit ≤ (wsn 144).waited (wb 144) ∧ (wsn 144).rd F.ctxRingCfg_LOG2 (CmdKey cid) ≤ 16) ∧
    ((wsn 145).cmd cid = some (wb 145) ∧ (false = true ∧ Instr.pegWaitExpiry cid = Instr.beadWaitExpiry cid ∧ (wsn 145).awaitsBead 1 (wb 145) = true ∨ false = false ∧ Instr.pegWaitExpiry cid = Instr.pegWaitExpiry cid ∧ (wsn 145).awaitsPeg 1 (wb 145) = true) ∧ (wb 145).limit ≤ (wsn 145).waited (wb 145) ∧ (wsn 145).rd F.ctxRingCfg_LOG2 (CmdKey cid) ≤ 16) ∧
    (wfs.cmd cid = some wf ∧ (true = true ∧ Instr.beadWaitExpiry cid = Instr.beadWaitExpiry cid ∧ wfs.awaitsBead 1 wf = true ∨ true = false ∧ Instr.beadWaitExpiry cid = Instr.pegWaitExpiry cid ∧ wfs.awaitsPeg 1 wf = true) ∧ wf.limit ≤ wfs.waited wf ∧ wfs.rd F.ctxRingCfg_LOG2 (CmdKey cid) ≤ 16) :=
  ⟨by decide +kernel,
   by decide +kernel,
   by decide +kernel,
   by decide +kernel,
   by decide +kernel⟩
theorem witness_BeadsByHost :
    (Fn.reaches (Fn.vf 1) 1 = true ∧ 0 = 0) ∧
    (Fn.reaches (Fn.vf 1) 1 = true ∧ 77 ≠ 0 ∧ (cs.vid 1 5).fst = some 77 ∧ cs.addCheck 77 77 = AddEnd.done) ∧
    (Fn.reaches Fn.pf0 1 = true ∧ 77 ≠ 0 ∧ ((cs.wr F.beadValue_VALUE 77 (2 ^ 64 - 5)).vid 1 5).fst = some 77 ∧ (cs.wr F.beadValue_VALUE 77 (2 ^ 64 - 5)).addCheck 77 77 ≠ AddEnd.done) ∧
    (cs.ctxState 2 = Ctx.idle ∨ cs.ctxState 2 = Ctx.preempted) :=
  ⟨by decide +kernel,
   by decide +kernel,
   by decide +kernel,
   by decide +kernel⟩
def qs : State := {sets up [(F.queCfg_ENABLE,20,1)] with queues := [(20,{pkts := [{seq:=4,prio:=0,ents:=[List.replicate 32 1]},{seq:=5,prio:=1,ents:=[List.replicate 32 2,List.replicate 32 3]}],seq:=6}),(30,{pkts := [{seq:=4,prio:=0,ents:=[]}]})]}
def qp : Pkt := {seq:=5,prio:=1,ents:=[List.replicate 32 2,List.replicate 32 3]}
theorem witness_QueueReads :
    (qs.queReach (Fn.vf 2) 20 = false) ∧
    (qs.queReach Fn.pf0 20 = true) ∧
    (qs.queReach Fn.pf0 20 = true ∧ (qs.que 20).head = some qp) :=
  ⟨by decide +kernel,
   by decide +kernel,
   by decide +kernel⟩


end Rings

namespace Network

def ip6 : BitVec 128 := BitVec.ofNat 128 (5*2^64+9)
def w1 := {netted with net := {pauses := [(1,4)]}}
theorem witness_PortsAndTime :
    (netted.lpUp 1 = true) ∧
    ((netted.wr F.netPortStatus_UP1 0 0).netUp = true ∧ (netted.wr F.netPortStatus_UP1 0 0).portFitted (1 / 2) = true ∧ (netted.wr F.netPortStatus_UP1 0 0).lpSpeed 1 ≠ 0 ∧ (netted.wr F.netPortStatus_UP1 0 0).lpUp 1 = false) ∧
    (netted.lpUp 0 = true ∧ 167772161 ≠ 0 ∧ 167772161 = netted.lpIp4 0) ∧
    (netted.lpUp 0 = true ∧ ip6.toNat ≠ 0 ∧ ip6.toNat = netted.lpIp6 0) ∧
    (netted.lpUp 0 = true ∧ ip6.toNat ≠ 0 ∧ (ip6.toNat = if true = true then netted.lpIp6 0 else netted.lpIp4 0)) ∧
    (netted.lpUp 0 = true ∧ 167772161 ≠ 0 ∧ (167772161 = if false = true then netted.lpIp6 0 else netted.lpIp4 0)) ∧
    (w1.lpUp 0 = true ∧ (w1.rd F.netPortCfg_PFC_EN (0 / 2)).testBit 3 = true ∧ w1.lpSpeed 0 ≠ 0) ∧
    (netted.lpUp 0 = true) ∧
    (netted.ptpPort 0 = true ∧ (netted.rd F.netPtpStatus_STATE = Ptp.locked → netted.rd F.netPtpStatus_SOURCE = 0)) ∧
    ((netted.wr F.netPtpStatus_STATE 0 Ptp.locked).rd F.netPtpStatus_STATE = Ptp.acquiring ∨ (netted.wr F.netPtpStatus_STATE 0 Ptp.locked).rd F.netPtpStatus_STATE = Ptp.locked) :=
  ⟨by decide +kernel,
   by decide +kernel,
   by decide +kernel,
   by decide +kernel,
   by decide +kernel,
   by decide +kernel,
   by decide +kernel,
   by decide +kernel,
   by decide +kernel,
   by decide +kernel⟩
def offTable : State := up.wr F.netConnTable_ADDR 0 0xFFFFFFFFF
def caps (p : Nat) (ep : Nat) : Caps := { conn := 0, peerConn := BitVec.ofNat 16 p, epoch := BitVec.ofNat 32 ep, ranges := [0x21,0x31,0x11,0x11,0x11,0x21], addrs := [(false,0)] }
def n9 : State := {netted with clk := {ivl := 500}}
theorem witness_ConnectionSetup :
    (netted.connReach (Fn.vf 0) 10 = false) ∧
    (netted.entryHeld 11 ∧ netted.connReach Fn.pf0 11 = true ∧ netted.dom 2 ≠ Dom.off ∧ netted.dev ≠ Dev.cfgHold ∧ netted.connState 11 ≠ ConnSt.opening ∧ netted.connState 11 ≠ ConnSt.opened ∧ netted.connKind 11 = Kind.roce) ∧
    (netted.entryHeld 10 ∧ netted.connReach (Fn.vf 1) 10 = true ∧ netted.dom 2 ≠ Dom.off ∧ netted.dev ≠ Dev.cfgHold ∧ netted.connState 10 ≠ ConnSt.opening ∧ netted.connState 10 ≠ ConnSt.opened ∧ netted.connKind 10 = Kind.gct ∧ netted.dutyHeld 2 = false ∧ netted.upPorts ≠ []) ∧
    (netted.allClosed = false) ∧
    (offTable.allClosed = true) ∧
    (netted.netUp = true ∧ netted.capsFits 10 (caps 0 0) = false) ∧
    (netted.netUp = true ∧ netted.capsFits 7 (caps 7 800) = true ∧ netted.connState 7 = ConnSt.opened ∧ (caps 7 800).epoch.toNat = (netted.conn 7).peerEpoch) ∧
    (netted.entryHeld 9 ∧ netted.quietQueues ∧ (∀ (e : Nat × Ring) (x : Cmd), e ∈ netted.rings → x ∈ e.snd.cmds → x.heldOnConn = false) ∧ netted.netUp = true ∧ netted.capsFits 9 (caps 9 800) = true ∧ netted.connState 9 = ConnSt.opening ∧ netted.dutyHeld 2 = false ∧ (netted.agreed (List.map (fun x => x.toNat) (caps 9 800).ranges)).headD 0 ≠ 0) ∧
    (n9.netUp = true ∧ n9.gctOpening 9 = true ∧ n9.ivl < (n9.conn 9).openedAt + 1000000000) :=
  ⟨by decide +kernel,
   ⟨(by unfold State.entryHeld; exact ⟨by decide +kernel, by decide +kernel, 4, 49856, by decide +kernel⟩), by decide +kernel⟩,
   ⟨(by unfold State.entryHeld; exact ⟨by decide +kernel, by decide +kernel, 4, 49792, by decide +kernel⟩), by decide +kernel⟩,
   by decide +kernel,
   by decide +kernel,
   by decide +kernel,
   by decide +kernel,
   ⟨(by unfold State.entryHeld; exact ⟨by decide +kernel, by decide +kernel, 4, 49728, by decide +kernel⟩), (by unfold State.quietQueues; decide +kernel), (by intro e x h; rw [show netted.rings = [] by decide +kernel] at h; cases h), by decide +kernel⟩,
   by decide +kernel⟩
def ng : State := {netted with groups := [{ctx:=1,id:=2,phase:=1,conns:=[7,0xFFFF],self:=1},{ctx:=1,id:=3,phase:=1,conns:=[8,0xFFFF],self:=1}], rwaits := [{conn:=7,req:=1,phys:=77,target:=9},{conn:=8,req:=1,phys:=77,target:=9}]}
theorem witness_ConnectionEnds :
    (ng.entryHeld 7 ∧ ng.quietQueues ∧ endOf 7 ng (Instr.connClose Fn.pf0 7) = some 0 ∧ ng.connCmds 7 = [] ∧ (∀ (w : Nat), w < 16 → ng.rd F.netLoanWin_CONN w ≠ 7) ∧ (∀ (g : Grant), g ∈ ng.grants → g.conn ≠ 7)) ∧
    (ng.entryHeld 7 ∧ ng.quietQueues ∧ endOf 7 ng (Instr.gctClose 7 none) = some 3 ∧ ng.connCmds 7 = [] ∧ (∀ (w : Nat), w < 16 → ng.rd F.netLoanWin_CONN w ≠ 7) ∧ (∀ (g : Grant), g ∈ ng.grants → g.conn ≠ 7)) ∧
    (ng.entryHeld 7 ∧ ng.quietQueues ∧ endOf 7 ng (Instr.gctCaps 7 (caps 7 801)) = some 3 ∧ ng.connCmds 7 = [] ∧ (∀ (w : Nat), w < 16 → ng.rd F.netLoanWin_CONN w ≠ 7) ∧ (∀ (g : Grant), g ∈ ng.grants → g.conn ≠ 7)) ∧
    (ng.entryHeld 7 ∧ ng.quietQueues ∧ endOf 7 ng (Instr.connectionLossTimeout 7) = some 3 ∧ ng.connCmds 7 = [] ∧ (∀ (w : Nat), w < 16 → ng.rd F.netLoanWin_CONN w ≠ 7) ∧ (∀ (g : Grant), g ∈ ng.grants → g.conn ≠ 7)) ∧
    (ng.entryHeld 8 ∧ ng.quietQueues ∧ endOf 8 ng (Instr.roceRetryExhausted 8) = some 3 ∧ ng.connCmds 8 = [] ∧ (∀ (w : Nat), w < 16 → ng.rd F.netLoanWin_CONN w ≠ 8) ∧ (∀ (g : Grant), g ∈ ng.grants → g.conn ≠ 8)) ∧
    (ng.entryHeld 9 ∧ ng.quietQueues ∧ endOf 9 ng (Instr.openTimeout 9) = some 4 ∧ ng.connCmds 9 = [] ∧ (∀ (w : Nat), w < 16 → ng.rd F.netLoanWin_CONN w ≠ 9) ∧ (∀ (g : Grant), g ∈ ng.grants → g.conn ≠ 9)) :=
  ⟨⟨(by unfold State.entryHeld; exact ⟨by decide +kernel, by decide +kernel, 4, 49600, by decide +kernel⟩), (by unfold State.quietQueues; decide +kernel), by decide +kernel⟩,
   ⟨(by unfold State.entryHeld; exact ⟨by decide +kernel, by decide +kernel, 4, 49600, by decide +kernel⟩), (by unfold State.quietQueues; decide +kernel), by decide +kernel⟩,
   ⟨(by unfold State.entryHeld; exact ⟨by decide +kernel, by decide +kernel, 4, 49600, by decide +kernel⟩), (by unfold State.quietQueues; decide +kernel), by decide +kernel⟩,
   ⟨(by unfold State.entryHeld; exact ⟨by decide +kernel, by decide +kernel, 4, 49600, by decide +kernel⟩), (by unfold State.quietQueues; decide +kernel), by decide +kernel⟩,
   ⟨(by unfold State.entryHeld; exact ⟨by decide +kernel, by decide +kernel, 4, 49664, by decide +kernel⟩), (by unfold State.quietQueues; decide +kernel), by decide +kernel⟩,
   ⟨(by unfold State.entryHeld; exact ⟨by decide +kernel, by decide +kernel, 4, 49728, by decide +kernel⟩), (by unfold State.quietQueues; decide +kernel), by decide +kernel⟩⟩
def un (q : Nat) : Unacked := {seq:=q,msg:=.keepalive,sentAt:=5,interval:=50,port:=0,firstAt:=3}
def nu : State := {netted with conns := [(7,{peerEpoch := 800, rxSeq := 3, unacked := [un 4,un 5,un 6], acked := 10, marked := 3})]}
theorem witness_ConnectionTimers :
    (netted.netUp = true ∧ (netted.conn 9).sentAt + 1000000 ≤ netted.ivl ∧ netted.upPorts ≠ [] ∧ netted.gctOpening 9 = true ∧ netted.dutyHeld 2 = false) ∧
    (netted.netUp = true ∧ (netted.conn 7).sentAt + 1000000 ≤ netted.ivl ∧ netted.upPorts ≠ [] ∧ netted.gctOpen 7 = true) ∧
    (nu.netUp = true ∧ nu.gctOpen 7 = true) ∧
    (nu.netUp = true ∧ nu.gctOpen 7 = true ∧ un 5 ∈ (nu.conn 7).unacked ∧ (un 5).seq = 5 ∧ (un 5).sentAt + (un 5).interval ≤ nu.ivl ∧ (∀ (w : Unacked), w ∈ (nu.conn 7).unacked → w.seq = 5 → w = un 5)) ∧
    (netted.netUp = true ∧ netted.gctOpen 7 = true) ∧
    (nu.netUp = true ∧ nu.receive hd false = some ((nu.receive hd false).getD nu) ∧ 2 ≤ nu.connVer 7 0) :=
  ⟨by decide +kernel,
   by decide +kernel,
   by decide +kernel,
   by decide +kernel,
   by decide +kernel,
   by decide +kernel⟩
def w2 := {hd with srcEpoch := 3}
theorem witness_PacketOnce :
    (nu.receive hd true = some ((nu.receive hd true).getD nu)) ∧
    (w2.dstEpoch.toNat ≠ nu.connEpoch 7 ∨ w2.srcEpoch.toNat ≠ (nu.conn 7).peerEpoch) :=
  ⟨by decide +kernel,
   by decide +kernel⟩


end Network

namespace Peers

def wa (s : State) (va n : Nat) (w : Option (List Byte)) := State.winAccess (s.connCtx 8) va n w (winFuel n) s [] []
def wst (x : WinEnd × State) : List Byte := match x.1 with | .done b => b | _ => [7,7,7]
def noSend : State := (nb.writePhys (0x100000 + 64 * 8 + 27) [0x17]).2
def w1 := wa nb 0 3 (some bytes3)
def w2 := State.winAccess (nb.connCtx 8) 0 0 (some []) (winFuel 3) w1.2 [] []
theorem witness_RoceRequests :
    (nb.netServes = true ∧ nb.roceOpen 8 = true) ∧
    (nb.netServes = true ∧ nb.roceOpen 8 = true ∧ (3 ≠ nb.connRkey 8 ∨ nb.inWindow 8 1 0 bytes2.length = false)) ∧
    (nb.netServes = true ∧ nb.roceOpen 8 = true ∧ (85 ≠ nb.connRkey 8 ∨ nb.inWindow 8 1 65535 bytes2.length = false)) ∧
    (nb.netServes = true ∧ nb.roceOpen 8 = true ∧ 85 = nb.connRkey 8 ∧ nb.inWindow 8 1 64 bytes2.length = true ∧ State.winAccess (nb.connCtx 8) 64 bytes2.length (some bytes2) (winFuel bytes2.length) nb [] [] = (WinEnd.done (wst (wa nb 64 2 (some bytes2))), (wa nb 64 2 (some bytes2)).snd)) ∧
    (nb.netServes = true ∧ nb.roceOpen 8 = true ∧ (84 ≠ nb.connRkey 8 ∨ nb.inWindow 8 2 64 2 = false)) ∧
    (nb.netServes = true ∧ nb.roceOpen 8 = true ∧ 85 = nb.connRkey 8 ∧ nb.inWindow 8 2 64 2 = true ∧ State.winAccess (nb.connCtx 8) 64 2 none (winFuel 2) nb [] [] = (WinEnd.done (wst (wa nb 64 2 none)), (wa nb 64 2 none).snd)) ∧
    (noSend.netServes = true ∧ noSend.roceOpen 8 = true ∧ (noSend.connMay 8 3 = false ∨ noSend.connBytes 8 < bytes3.length)) ∧
    (nb.netServes = true ∧ nb.roceOpen 8 = true ∧ nb.connMay 8 3 = true ∧ bytes3.length ≤ nb.connBytes 8 ∧ State.winAccess (nb.connCtx 8) (nb.connBase 8 + (nb.conn 8).rxOff) (min bytes3.length (nb.connBytes 8 - (nb.conn 8).rxOff)) (some (List.take (min bytes3.length (nb.connBytes 8 - (nb.conn 8).rxOff)) bytes3)) (winFuel (min bytes3.length (nb.connBytes 8 - (nb.conn 8).rxOff))) nb [] [] = (WinEnd.done (wst w1), w1.snd) ∧ State.winAccess (nb.connCtx 8) (w1.snd.connBase 8) (bytes3.length - min bytes3.length (nb.connBytes 8 - (nb.conn 8).rxOff)) (some (List.drop (min bytes3.length (nb.connBytes 8 - (nb.conn 8).rxOff)) bytes3)) (winFuel bytes3.length) w1.snd [] [] = (WinEnd.done (wst w2), w2.snd)) :=
  ⟨by decide +kernel,
   by decide +kernel,
   by decide +kernel,
   by decide +kernel,
   by decide +kernel,
   by decide +kernel,
   by decide +kernel,
   by decide +kernel⟩
def nbd : State := nb.wr F.beadAttr_STATE 77 3
theorem witness_PeerBeadRequests :
    (nb.netServes = true ∧ nb.receive hd true = some (rcv nb) ∧ (((rcv nb).vid ((rcv nb).connCtx 7) 6).fst = none ∨ ((rcv nb).connMay 7 4 && if 0 = 0 then ((rcv nb).vid ((rcv nb).connCtx 7) 6).snd.testBit 17 else decide (0 < 3) && ((rcv nb).vid ((rcv nb).connCtx 7) 6).snd.testBit 18) = false)) ∧
    (nb.netServes = true ∧ nb.receive hd true = some (rcv nb) ∧ ((rcv nb).vid ((rcv nb).connCtx 7) 5).fst = some 77 ∧ (((rcv nb).connMay 7 4 && if 0 = 0 then ((rcv nb).vid ((rcv nb).connCtx 7) 5).snd.testBit 17 else decide (0 < 3) && ((rcv nb).vid ((rcv nb).connCtx 7) 5).snd.testBit 18) = true) ∧ 0#2 = 0 ∧ (rcv nb).addCheck 77 3 = AddEnd.done) ∧
    (nb.netServes = true ∧ nb.receive hd true = some (rcv nb) ∧ ((rcv nb).vid ((rcv nb).connCtx 7) 5).fst = some 77 ∧ (((rcv nb).connMay 7 4 && if 2 = 0 then ((rcv nb).vid ((rcv nb).connCtx 7) 5).snd.testBit 17 else decide (2 < 3) && ((rcv nb).vid ((rcv nb).connCtx 7) 5).snd.testBit 18) = true) ∧ 2#2 = 2 ∧ (rcv nb).beadDead 77 = false) ∧
    (nb.netServes = true ∧ nb.receive hd true = some (rcv nb) ∧ ((rcv nb).vid ((rcv nb).connCtx 7) 5).fst = some 77 ∧ (((rcv nb).connMay 7 4 && if 1 = 0 then ((rcv nb).vid ((rcv nb).connCtx 7) 5).snd.testBit 17 else decide (1 < 3) && ((rcv nb).vid ((rcv nb).connCtx 7) 5).snd.testBit 18) = true) ∧ 1#2 = 1 ∧ (rcv nb).beadDead 77 = false ∧ 0 ≤ (rcv nb).beadValue 77) ∧
    (nb.netServes = true ∧ nb.receive hd true = some (rcv nb) ∧ ((rcv nb).vid ((rcv nb).connCtx 7) 5).fst = some 77 ∧ (((rcv nb).connMay 7 4 && if 1 = 0 then ((rcv nb).vid ((rcv nb).connCtx 7) 5).snd.testBit 17 else decide (1 < 3) && ((rcv nb).vid ((rcv nb).connCtx 7) 5).snd.testBit 18) = true) ∧ 1#2 = 1 ∧ (rcv nb).beadDead 77 = false ∧ (rcv nb).beadValue 77 < 3) ∧
    (nbd.netServes = true ∧ nbd.receive hd true = some (rcv nbd) ∧ ((rcv nbd).vid ((rcv nbd).connCtx 7) 5).fst = some 77 ∧ (((rcv nbd).connMay 7 4 && if 1 = 0 then ((rcv nbd).vid ((rcv nbd).connCtx 7) 5).snd.testBit 17 else decide (1 < 3) && ((rcv nbd).vid ((rcv nbd).connCtx 7) 5).snd.testBit 18) = true) ∧ (rcv nbd).beadDead 77 = true) :=
  ⟨by decide +kernel,
   by decide +kernel,
   by decide +kernel,
   by decide +kernel,
   by decide +kernel,
   by decide +kernel⟩


end Peers

namespace Replies

def rb (n : Nat) (dop : Nat) : Cmd := { nop n with record := recd 0x71 4, phase := .waiting, desc := natLE 1 dop ++ [0] ++ natLE 2 7 ++ natLE 60 0, aux := [7,1,0,0] }
def ns (dop : Nat) : State := {nb with rings := [(64,{cmds := [nop 2, rb 3 dop]})]}
def hc : GctHdr := {hd with conn := 4080}
def ctl : State := let s := nb; { s with mem := nb.mem ++ cells 19 0xFC00 (entry 1 0 0 0 0 0 2 900), conns := [(4080,{peerEpoch := 800, rxSeq := 3})], start := {s.start with items := (2,4,0,2+2^18) :: s.start.items}}
def rc : State := (ctl.receive hc true).getD ctl
def ch : Cmd := { nop 3 with record := recd 0x71 4, phase := .waiting, desc := natLE 64 0, limit := 5 }
def chs : State := {nb with rings := [(64,{cmds := [nop 2, ch]})]}
def cid : CmdId := { ctx := 1, ring := 0, count := 3 }
def w1 := {chs with clk := {ivl := 2}}
def wst (x : WinEnd × State) : List Byte := match x.1 with | .done b => b | _ => [7,7,7]
def wx := State.winAccess ((rcv nb).connCtx 7) 0xFF0 2 (some bytes2) (winFuel 2) (rcv nb) [] []
theorem witness_PeerRepliesAndTransfers :
    ((ns 0).netUp = true ∧ (ns 0).receive hd true = some (rcv (ns 0)) ∧ (rcv (ns 0)).waiterOf 7 1 = some (64, rb 3 0) ∧ (rb 3 0).opcode = 113 ∧ (rcv (ns 0)).cmdAt 64 (rb 3 0).count = some (rb 3 0) ∧ (rb 3 0).lost = [] ∧ (rb 3 0).dataLoss = false ∧ (rb 3 0).seeds = [] ∧ (rb 3 0).fatal = none ∧ BeadReply.done = BeadReply.done ∧ fieldAt (rb 3 0).desc 0 0 2 = 0) ∧
    ((ns 1).netUp = true ∧ (ns 1).receive hd true = some (rcv (ns 1)) ∧ (rcv (ns 1)).waiterOf 7 1 = some (64, rb 3 1) ∧ (rb 3 1).opcode = 113 ∧ (rcv (ns 1)).cmdAt 64 (rb 3 1).count = some (rb 3 1) ∧ (rb 3 1).lost = [] ∧ (rb 3 1).dataLoss = false ∧ (rb 3 1).seeds = [] ∧ (rb 3 1).fatal = none ∧ replyFailure BeadReply.broken = some St.beadBroken) ∧
    ((ns 1).netUp = true ∧ (ns 1).receive hd true = some (rcv (ns 1)) ∧ (rcv (ns 1)).waiterOf 7 1 = some (64, rb 3 1) ∧ (rb 3 1).opcode = 113 ∧ (rcv (ns 1)).cmdAt 64 (rb 3 1).count = some (rb 3 1) ∧ (rb 3 1).lost = [] ∧ (rb 3 1).dataLoss = false ∧ (rb 3 1).seeds = [] ∧ (rb 3 1).fatal = none ∧ replyFailure BeadReply.refused = some St.faultPermission) ∧
    ((ns 1).netUp = true ∧ (ns 1).receive hd true = some (rcv (ns 1)) ∧ (rcv (ns 1)).waiterOf 7 1 = some (64, rb 3 1) ∧ (rb 3 1).opcode = 113 ∧ (rcv (ns 1)).cmdAt 64 (rb 3 1).count = some (rb 3 1)) ∧
    (ctl.fromController hc = some (0, rc) ∧ (rc.ctrlRights 0).testBit 2 = false) ∧
    (ctl.fromController hc = some (0, rc) ∧ (rc.ctrlRights 0).testBit 1 = true ∧ rc.serving = true ∧ rc.ctxEnabled 1 = true ∧ rc.flag F.ctxRingCfg_ENABLE (ringKey 1 0) = true ∧ rc.parkedDeep = false ∧ (5 + 2 ^ 32 - rc.rd F.ctxRingStatus_HEAD (ringKey 1 0)) % 2 ^ 32 ≤ 2 ^ rc.rd F.ctxRingCfg_LOG2 (ringKey 1 0)) ∧
    (chs.cmd cid = some ch ∧ ch.heldOnConn = true ∧ chs.timedOut ch = true ∧ ch.opcode ≠ 114 ∧ ch.lost = [] ∧ ch.seeds = []) ∧
    (w1.cmd cid = some ch ∧ ch.heldOnConn = true ∧ w1.timedOut ch = false) ∧
    (nb.netServes = true ∧ nb.receive hd (0 != 0) = some (rcv nb) ∧ (rcv nb).inWindow 7 0 65535 bytes2.length = false) ∧
    (nb.netServes = true ∧ nb.receive hd (1 != 0) = some (rcv nb) ∧ 1 ≠ 0 ∧ (((rcv nb).vid ((rcv nb).connCtx 7) 6).fst = none ∨ ((rcv nb).vid ((rcv nb).connCtx 7) 6).snd.testBit 17 = false)) ∧
    (nb.netServes = true ∧ nb.receive hd (0 != 0) = some (rcv nb) ∧ 0 = 0 ∧ (rcv nb).inWindow 7 0 4080 bytes2.length = true ∧ State.winAccess ((rcv nb).connCtx 7) 4080 bytes2.length (some bytes2) (winFuel bytes2.length) (rcv nb) [] [] = (WinEnd.done (wst wx), wx.snd)) ∧
    (nb.netServes = true ∧ nb.receive hd (1 != 0) = some (rcv nb) ∧ 1 ≠ 0 ∧ ((rcv nb).vid ((rcv nb).connCtx 7) 5).fst = some 77 ∧ ((rcv nb).vid ((rcv nb).connCtx 7) 5).snd.testBit 17 = true ∧ (rcv nb).addCheck 77 1 = AddEnd.done ∧ (rcv nb).inWindow 7 0 4080 bytes2.length = true ∧ State.winAccess ((rcv nb).connCtx 7) 4080 bytes2.length (some bytes2) (winFuel bytes2.length) (rcv nb) [] [] = (WinEnd.done (wst wx), wx.snd) ∧ wx.snd.addCheck 77 1 = AddEnd.done) :=
  ⟨by decide +kernel,
   by decide +kernel,
   by decide +kernel,
   by decide +kernel,
   by decide +kernel,
   by decide +kernel,
   by decide +kernel,
   by decide +kernel,
   by decide +kernel,
   by decide +kernel,
   by decide +kernel,
   by decide +kernel⟩
def g1 : Group := {ctx:=1,id:=2,phase:=1,conns:=[7,0xFFFF],self:=1}
def ngr : State := {nb with groups := [g1,{ctx:=1,id:=3,phase:=1,conns:=[8,0xFFFF],self:=1}]}
def cl : Cmd := { nop 3 with record := recd 0x70 4, phase := .waiting, desc := natLE 6 0 ++ natLE 58 2, aux := [1,5], limit := 5 }
def cls : State := {ngr with rings := [(64,{cmds := [nop 2, cl]})]}
def tr : Cmd := { cl with desc := natLE 1 0 ++ natLE 1 5 ++ natLE 4 0 ++ natLE 58 2 }
def trs : State := {ngr with rings := [(64,{cmds := [nop 2, tr]})]}
def w2 := {cls with clk := {ivl := 2}}
theorem witness_GroupMessages :
    (ngr.netUp = true ∧ ngr.receive hd true = some (rcv ngr) ∧ (∀ (g : Group), (rcv ngr).group ((rcv ngr).connCtx 7) 9 = some g → g.phase ≠ 0)) ∧
    (ngr.netUp = true ∧ ngr.receive hd true = some (rcv ngr) ∧ (rcv ngr).group ((rcv ngr).connCtx 7) 2 = some g1 ∧ 7 ∈ g1.conns ∧ (rcv ngr).groupCmds g1.ctx g1.id = []) ∧
    (ngr.netUp = true ∧ ngr.receive hd true = some (rcv ngr) ∧ (rcv ngr).memberOf 7 2 = some (g1, 0) ∧ (rcv ngr).collCmd g1.ctx g1.id 5 = none) ∧
    (cls.cmd cid = some cl ∧ cl.opcode = 112 ∧ fieldAt cl.desc 1 0 4 ≠ 5 ∧ (cl.phase = Phase.waiting ∨ cl.phase = Phase.stalled) ∧ cl.aux ≠ [] ∧ cls.timedOut cl = true ∧ cls.group 1 cl.collGroup = some g1) ∧
    (trs.cmd cid = some tr ∧ tr.opcode = 112 ∧ fieldAt tr.desc 1 0 4 = 5 ∧ (tr.phase = Phase.waiting ∨ tr.phase = Phase.stalled) ∧ tr.aux ≠ [] ∧ trs.timedOut tr = true ∧ tr.lost = [] ∧ tr.seeds = []) ∧
    (w2.cmd cid = some cl ∧ w2.timedOut cl = false) :=
  ⟨by decide +kernel,
   by decide +kernel,
   by decide +kernel,
   by decide +kernel,
   by decide +kernel,
   by decide +kernel⟩


end Replies

namespace StepRounds

def cid : CmdId := { ctx := 1, ring := 0, count := 3 }
def g1 : Group := {ctx:=1,id:=2,phase:=1,conns:=[7,0xFFFF],self:=1}
/-- a record of round (T=9, attempt 1), at VA 0x8000, of context 1 with step group 2 -/
def recOf (dec ready : Nat) : List Byte := natLE 2 2 ++ natLE 2 0 ++ natLE 4 2 ++ natLE 8 9 ++ natLE 2 1 ++ natLE 1 dec ++ natLE 45 0 ++ natLE 128 ready ++ [1,1]
def recCells (dec : BitVec 8) : Mem :=
  [(1099511631872, 2), (1099511631876, 2), (1099511631880, 9), (1099511631888, 1)] ++
  (if dec = 0 then [] else [(1099511631890, dec)]) ++
  [(1099511631936, 1), (1099511632064, 1), (1099511632065, 1)]
theorem rec_cells : recCells 0 = cells 1 0x1000 (recOf 0 1) ∧ recCells 2 = cells 1 0x1000 (recOf 2 1) := by decide +kernel
def ss (dec : Nat) : State :=
  let s := sets nb [(F.ctxStepRec_RECORD_ADDR,1,0x8000),(F.ctxStepCfg_COLL_GROUP,1,2)]
  { s with groups := [g1], mem := ptab0 ++ recCells (BitVec.ofNat 8 dec) ++ conn7 ++ ptab }
/-- The record as it stands in memory. -/
def recAll (dec : Nat) : List Byte := recOf dec 1 ++ List.replicate 1086 0
def m (t a d : Nat) : StepMsg := ⟨2, BitVec.ofNat 64 t, BitVec.ofNat 16 a, 0, BitVec.ofNat 2 d, 0⟩
/-- The record in a page that MIGRATE keeps out of memory. -/
def held : State :=
  { sets nb [(F.ctxStepRec_RECORD_ADDR,1,0x20000),(F.ctxStepCfg_COLL_GROUP,1,2)] with
    groups := [g1], mem := ptab0 ++ conn7 ++ ptab ++ [(16492674416657, 4)] }
def rd (dec : Nat) : State := ((rcv (ss dec)).stepRec 1).2
def later : Option (List Byte) × State := ((rd 0).newRound 1 (msgRound (m 9 2 1))).stepRec 1
def ssd : State := { (ss 0).wr F.ctxStepState_STATE 1 3 with ctxs := [(1, { doubt := some (9, 1) })] }
def sc (stage : Nat) : Cmd := { nop 3 with record := recd 0x61 4, phase := .waiting, desc := natLE 2 0 ++ natLE 2 1 ++ natLE 4 0 ++ natLE 8 9 ++ natLE 48 0, aux := [3,stage,5], limit := 5 }
def st (stage : Nat) : State := {ss 0 with rings := [(64,{cmds := [nop 2, sc stage]})]}
def sth : State := (st 1).wr F.ctxState_STATE 1 Ctx.preempted
def stq : State := ((st 1).stepRec 1).2
theorem witness_StepCommitProtocol_1 :
    held.stepServes = true ∧ held.receive hd true = some (rcv held) ∧ held.stepFrom 7 (m 9 1 0) = some (1, g1, 0) ∧ (Instr.gctQuery hd (m 9 1 0) = Instr.gctQuery hd (m 9 1 0) ∨ Instr.gctQuery hd (m 9 1 0) = Instr.gctReady hd (m 9 1 0) ∨ Instr.gctQuery hd (m 9 1 0) = Instr.gctPropose hd (m 9 1 0) ∨ Instr.gctQuery hd (m 9 1 0) = Instr.gctCommitReply hd (m 9 1 0)) ∧ (held.recHeld 1).fst = true :=
  by decide +kernel
theorem stepRec_of_1 : (rcv (ss 0)).stepRec 1 = (some (recAll 0), rd 0) := (by delta rd; exact pair_of (by decide +kernel))
theorem witness_StepCommitProtocol_2 :
    (rcv (ss 0)).stepRec 1 = (some (recAll 0), rd 0) ∧ (ss 0).stepServes = true ∧ (ss 0).receive hd true = some (rcv (ss 0)) ∧ (ss 0).stepFrom 7 (m 9 1 0) = some (1, g1, 0) ∧ ((ss 0).recHeld 1).fst = false ∧ laterRound (msgRound (m 9 1 0)) (recRound (recAll 0)) = false :=
  ⟨stepRec_of_1, by decide +kernel⟩
theorem witness_StepCommitProtocol_3 :
    (rcv (ss 0)).stepRec 1 = (some (recAll 0), rd 0) ∧ (ss 0).stepServes = true ∧ (ss 0).receive hd true = some (rcv (ss 0)) ∧ (ss 0).stepFrom 7 (m 9 2 0) = some (1, g1, 0) ∧ ((ss 0).recHeld 1).fst = false ∧ laterRound (msgRound (m 9 2 0)) (recRound (recAll 0)) = true :=
  ⟨stepRec_of_1, by decide +kernel⟩
theorem witness_StepCommitProtocol_4 :
    (rcv (ss 0)).stepRec 1 = (some (recAll 0), rd 0) ∧ (ss 0).stepServes = true ∧ (ss 0).receive hd true = some (rcv (ss 0)) ∧ (ss 0).stepFrom 7 (m 9 1 1) = some (1, g1, 0) ∧ ((ss 0).recHeld 1).fst = false ∧ ((m 9 1 1).decision = 1 ∨ (m 9 1 1).decision = 2) ∧ msgRound (m 9 1 1) = recRound (recAll 0) ∧ recDecision (recAll 0) = 0 :=
  ⟨stepRec_of_1, by decide +kernel⟩
theorem stepRec_of_2 : (rcv (ss 2)).stepRec 1 = (some (recAll 2), rd 2) := (by delta rd; exact pair_of (by decide +kernel))
theorem witness_StepCommitProtocol_5 :
    (rcv (ss 2)).stepRec 1 = (some (recAll 2), rd 2) ∧ (ss 2).stepServes = true ∧ (ss 2).receive hd true = some (rcv (ss 2)) ∧ (ss 2).stepFrom 7 (m 9 1 1) = some (1, g1, 0) ∧ ((ss 2).recHeld 1).fst = false ∧ ((m 9 1 1).decision = 1 ∨ (m 9 1 1).decision = 2) ∧ msgRound (m 9 1 1) = recRound (recAll 2) ∧ recDecision (recAll 2) ≠ 0 :=
  ⟨stepRec_of_2, by decide +kernel⟩
theorem witness_StepCommitProtocol_6 :
    (rcv (ss 2)).stepRec 1 = (some (recAll 2), rd 2) ∧ (ss 2).stepServes = true ∧ (ss 2).receive hd true = some (rcv (ss 2)) ∧ (ss 2).stepFrom 7 (m 9 2 1) = some (1, g1, 0) ∧ ((ss 2).recHeld 1).fst = false ∧ ((m 9 2 1).decision = 1 ∨ (m 9 2 1).decision = 2) ∧ laterRound (msgRound (m 9 2 1)) (recRound (recAll 2)) = true :=
  ⟨stepRec_of_2, by decide +kernel⟩
theorem witness_StepCommitProtocol_7 :
    (rcv (ss 2)).stepRec 1 = (some (recAll 2), rd 2) ∧ (ss 2).stepServes = true ∧ (ss 2).receive hd true = some (rcv (ss 2)) ∧ (ss 2).stepFrom 7 (m 9 1 0) = some (1, g1, 0) ∧ ((ss 2).recHeld 1).fst = false ∧ ((m 9 1 0).decision = 0 ∨ (m 9 1 0).decision = 3) :=
  ⟨stepRec_of_2, by decide +kernel⟩
theorem witness_StepCommitProtocol_8 :
    (rcv (ss 2)).stepRec 1 = (some (recAll 2), rd 2) ∧ (ss 2).stepServes = true ∧ (ss 2).receive hd true = some (rcv (ss 2)) ∧ (ss 2).stepFrom 7 (m 9 1 1) = some (1, g1, 0) ∧ ((ss 2).recHeld 1).fst = false ∧ ((rcv (ss 2)).ctx 1).doubt = none ∧ msgRound (m 9 1 1) = recRound (recAll 2) ∧ (recReady (recAll 2)).testBit 0 = true :=
  ⟨stepRec_of_2, by decide +kernel⟩
theorem stepRec_of_3 : ((rd 0).newRound 1 (msgRound (m 9 2 1))).stepRec 1 = (some (later.fst.getD []), later.snd) := (by delta later; exact pair_of (by decide +kernel))
theorem witness_StepCommitProtocol_9 :
    (rcv (ss 0)).stepRec 1 = (some (recAll 0), rd 0) ∧ ((rd 0).newRound 1 (msgRound (m 9 2 1))).stepRec 1 = (some (later.fst.getD []), later.snd) ∧ (ss 0).stepServes = true ∧ (ss 0).receive hd true = some (rcv (ss 0)) ∧ (ss 0).stepFrom 7 (m 9 2 1) = some (1, g1, 0) ∧ ((ss 0).recHeld 1).fst = false ∧ ((rcv (ss 0)).ctx 1).doubt = none ∧ laterRound (msgRound (m 9 2 1)) (recRound (recAll 0)) = true :=
  ⟨stepRec_of_1, stepRec_of_3, by decide +kernel⟩
theorem witness_StepCommitProtocol_10 :
    (rcv (ss 2)).stepRec 1 = (some (recAll 2), rd 2) ∧ (ss 2).stepServes = true ∧ (ss 2).receive hd true = some (rcv (ss 2)) ∧ (ss 2).stepFrom 7 (m 8 2 1) = some (1, g1, 0) ∧ ((ss 2).recHeld 1).fst = false ∧ ((rcv (ss 2)).ctx 1).doubt = none ∧ msgRound (m 8 2 1) ≠ recRound (recAll 2) ∧ laterRound (msgRound (m 8 2 1)) (recRound (recAll 2)) = false :=
  ⟨stepRec_of_2, by decide +kernel⟩
theorem witness_StepCommitProtocol_11 :
    ssd.stepServes = true ∧ ssd.receive hd true = some (rcv ssd) ∧ ssd.stepFrom 7 (m 10 1 1) = some (1, g1, 0) ∧ (ssd.recHeld 1).fst = false ∧ ((rcv ssd).ctx 1).doubt = some (9, 1) ∧ (rcv ssd).inDoubt 1 = true ∧ laterRound (msgRound (m 10 1 1)) (9, 1) = true ∧ ((rcv ssd).stepCmd 1 fun x => x.stepStage == 0) = none :=
  by decide +kernel
theorem witness_StepCommitProtocol_12 :
    sth.stepServes = true ∧ sth.receive hd true = some (rcv sth) ∧ sth.stepFrom 7 (m 9 1 1) = some (1, g1, 0) ∧ (sth.recHeld 1).fst = false ∧ ((rcv sth).stepCmd 1 fun x => (x.stepStage == 1 || x.stepStage == 2 && (m 9 1 1).decision != 0) && stepRound x == msgRound (m 9 1 1)) = some (64, sc 1) ∧ (rcv sth).cmdAt 64 (sc 1).count = some (sc 1) ∧ (rcv sth).ctxHeld 1 = true :=
  by decide +kernel
theorem witness_StepCommitProtocol_13 :
    ((st 0).stepCmd 1 fun x => x.stepStage == 0 && (st 0).timedOut x) = some (64, sc 0) ∧ (st 0).stepGroup 1 = some g1 ∧ (st 0).ctxHeld 1 = false ∧ (st 0).cmdAt 64 (sc 0).count = some (sc 0) ∧ (stepReplies (sc 0) 1 g1.conns.length).length + 1 < g1.conns.length ∧ 64 / 64 = 1 :=
  by decide +kernel
theorem stepRec_of_4 : (st 1).stepRec 1 = (some (recAll 0), stq) := (by delta stq; exact pair_of (by decide +kernel))
theorem witness_StepCommitProtocol_14 :
    (st 1).stepRec 1 = (some (recAll 0), stq) ∧ ((st 1).stepCmd 1 fun x => x.stepStage != 0 && decide ((st 1).ivl - x.aux.getD 2 0 ≥ stepWindow)) = some (64, sc 1) ∧ (st 1).stepGroup 1 = some g1 ∧ (st 1).ctxHeld 1 = false ∧ 64 / 64 = 1 ∧ ((st 1).recHeld 1).fst = false ∧ stq.cmdAt 64 (sc 1).count = some (sc 1) ∧ recRound (recAll 0) = stepRound (sc 1) ∧ recApplied (recAll 0) = false ∧ (sc 1).lost = [] ∧ (sc 1).seeds = [] ∧ ((sc 1).stepStage = 1 ∧ stepWant (recAll 0) g1 (stepReplies (sc 1) 1 g1.conns.length) = Dec.none ∨ (sc 1).stepStage ≠ 1 ∧ stepHeld (recAll 0) g1 (stepReplies (sc 1) 2 g1.conns.length) = none) :=
  ⟨stepRec_of_4, by decide +kernel⟩


end StepRounds

namespace Loans

def cid : CmdId := { ctx := 1, ring := 0, count := 3 }
def lw (st : Nat) : State := sets nb [(F.netLoanWin_STATE,2,st),(F.netLoanWin_CONN,2,7),(F.netLoanWin_OFFSET_GIB,2,4),(F.netLoanWin_SIZE_GIB,2,2)]
def ld : State := {(sets nb [(F.netLendCfg_ENABLE,0,1),(F.netLendCfg_CTX,0,1),(F.netLendCfg_BASE_GIB,0,1),(F.netLendCfg_SIZE_GIB,0,8)]) with grants := [{conn:=7,base:=5,size:=1}]}
def ld2 : State := {(ld.writePhys 0x40000000 (List.replicate 128 7)).2 with ecc := [(0x33333*64,{bad:=1})]}
theorem witness_LoanWindowsAndGrants :
    ((lw 2).rd F.netLoanWin_STATE 2 ≠ 0) ∧
    ((lw 0).rd F.netLoanWin_STATE 2 = 0 ∧ (lw 0).gctOpen ((lw 0).rd F.netLoanWin_CONN 2) = true ∧ (lw 0).connVer ((lw 0).rd F.netLoanWin_CONN 2) 3 ≠ 0) ∧
    (((lw 0).wr F.netLoanWin_CONN 2 10).rd F.netLoanWin_STATE 2 = 0 ∧ ((lw 0).wr F.netLoanWin_CONN 2 10).gctOpen (((lw 0).wr F.netLoanWin_CONN 2 10).rd F.netLoanWin_CONN 2) = false) ∧
    ((lw 0).rd F.netLoanWin_STATE 2 = 0) ∧
    ((lw 2).noLoanUse) ∧
    ((lw 3).noLoanUse) ∧
    ((lw 2).netUp = true ∧ (lw 2).receive hd true = some (rcv (lw 2)) ∧ ((rcv (lw 2)).rd F.netLoanWin_STATE 2 ≠ 1 ∨ (rcv (lw 2)).rd F.netLoanWin_CONN 2 ≠ 7)) ∧
    ((lw 1).netUp = true ∧ (lw 1).receive hd true = some (rcv (lw 1)) ∧ (rcv (lw 1)).rd F.netLoanWin_STATE 2 = 1 ∧ (rcv (lw 1)).rd F.netLoanWin_CONN 2 = 7) ∧
    ((rcv (lw 1)).noLoanUse ∧ (lw 1).netUp = true ∧ (lw 1).receive hd true = some (rcv (lw 1)) ∧ (rcv (lw 1)).rd F.netLoanWin_STATE 2 = 1 ∧ (rcv (lw 1)).rd F.netLoanWin_CONN 2 = 7) ∧
    (ld.netServes = true ∧ ld.receive hd true = some (rcv ld) ∧ (rcv ld).grantCause 7 5 1 = some 0) ∧
    (ld2.netServes = true ∧ ld2.receive hd true = some (rcv ld2) ∧ (rcv ld2).grantCause 7 0 1 = none) ∧
    (ld.netServes = true ∧ ld.receive hd true = some (rcv ld)) :=
  ⟨by decide +kernel,
   by decide +kernel,
   by decide +kernel,
   by decide +kernel,
   (by unfold State.noLoanUse; decide +kernel),
   (by unfold State.noLoanUse; decide +kernel),
   by decide +kernel,
   by decide +kernel,
   ⟨(by unfold State.noLoanUse; decide +kernel), by decide +kernel⟩,
   by decide +kernel,
   by decide +kernel,
   by decide +kernel⟩
def off5 : Word := BitVec.ofNat 64 (5*2^30)
def rp := (rcv ld).readPhys ((rcv ld).lendAddr off5.toNat) 64
def ack : Option (List Byte) := some []
def noBytes : Option (List Byte) := none
def data : Option (List Byte) := some bytes1
def off4 : Word := BitVec.ofNat 64 (4*2^30+64)
def lx : State := {lw 2 with rings := [(64,{cmds := [nop 2, {nop 3 with loanOut := [0x0A0000000000+2*2^36+64,7]}]})]}
def lm (op t g : Nat) : LoanStepMsg := {op:=BitVec.ofNat 2 op, target:=BitVec.ofNat 64 t, group:=BitVec.ofNat 16 g, fields:=[], bytes:=[]}
/-- The lender's record of group 0 at the start of the grant: version 4 is held, and version 5 pending. -/
def lv : State := ld.setRec 0x180000000 (4, true)
def lost : State := { lv with cache := [], ecc := [(((lv.key (lv.place 0x180000000)).getD 0), { poison := true })] }
def held (s : State) (m : LoanStepMsg) : State := ((rcv s).checkGran ((loanEntry m).recordAt 6442450944)).2
/-- a LOAN_STEP COMMIT in flight on group 0 of lender 7 -/
def pg : List Byte := natLE 100 0 ++ natLE 2 7 ++ natLE 26 0
def lc : Cmd := { nop 3 with record := recd 0x72 4, phase := .waiting, desc := natLE 1 1 ++ natLE 1 1 ++ natLE 4 0 ++ natLE 2 1 ++ natLE 8 5 ++ natLE 48 0, tables := [pg], aux := [2,2,0], limit := 5 }
def lcs : State := {nb with rings := [(64,{cmds := [nop 2, lc]})]}
def lr : LoanReplyMsg := {op := 1, target := 5, group := 0, status := 0, fields := [], bytes := []}
def w1 := {lcs with clk := {ivl := 1}}
theorem witness_LoanTraffic :
    (ld.netServes = true ∧ ld.receive hd false = some (rcv ld) ∧ (rcv ld).grantOf 7 0 64 = none) ∧
    (ld.netServes = true ∧ ld.receive hd false = some (rcv ld) ∧ (rcv ld).grantOf 7 (BitVec.toNat off5) 64 ≠ none ∧ (rcv ld).readPhys ((rcv ld).lendAddr (BitVec.toNat off5)) 64 = (rp.fst, [], rp.snd.snd)) ∧
    (ld.netServes = true ∧ ld.receive hd false = some (rcv ld) ∧ (rcv ld).grantOf 7 (BitVec.toNat off5) bytes3.length ≠ none) ∧
    (ld.netServes = true ∧ ld.receive hd false = some (rcv ld) ∧ (rcv ld).grantOf 7 0 bytes3.length = none) ∧
    ((lw 2).netUp = true ∧ (lw 2).receive hd true = some (rcv (lw 2)) ∧ (rcv (lw 2)).loanAddr 7 0 = none) ∧
    (lx.netUp = true ∧ lx.receive hd true = some (rcv lx) ∧ (rcv lx).loanAddr 7 (BitVec.toNat off4) = some (10995116277760 + 2 * 2 ^ 36 + 64) ∧ ack = some []) ∧
    (lx.netUp = true ∧ lx.receive hd true = some (rcv lx) ∧ (rcv lx).loanAddr 7 (BitVec.toNat off4) = some (10995116277760 + 2 * 2 ^ 36 + 64) ∧ data = some bytes1 ∧ bytes1 ≠ []) ∧
    (lx.netUp = true ∧ lx.receive hd true = some (rcv lx) ∧ (rcv lx).loanAddr 7 (BitVec.toNat off4) = some (10995116277760 + 2 * 2 ^ 36 + 64) ∧ noBytes = none) ∧
    (nb.netServes = true ∧ nb.receive hd true = some (rcv nb) ∧ (rcv nb).lentAt 7 (lm 1 5 0) = none) ∧
    ((rcv lost).checkGran ((loanEntry (lm 1 5 0)).recordAt 6442450944) = (true, held lost (lm 1 5 0)) ∧ lost.netServes = true ∧ lost.receive hd true = some (rcv lost) ∧ (rcv lost).lentAt 7 (lm 1 5 0) = some 6442450944) ∧
    ((rcv ld).checkGran ((loanEntry (lm 1 5 3)).recordAt 6442450944) = (false, held ld (lm 1 5 3)) ∧ ld.netServes = true ∧ ld.receive hd true = some (rcv ld) ∧ (rcv ld).lentAt 7 (lm 1 5 3) = some 6442450944 ∧ (lm 1 5 3).op = 1 ∧ (held ld (lm 1 5 3)).getRec ((loanEntry (lm 1 5 3)).recordAt 6442450944) = none) ∧
    ((rcv lv).checkGran ((loanEntry (lm 1 4 0)).recordAt 6442450944) = (false, held lv (lm 1 4 0)) ∧ lv.netServes = true ∧ lv.receive hd true = some (rcv lv) ∧ (rcv lv).lentAt 7 (lm 1 4 0) = some 6442450944 ∧ (held lv (lm 1 4 0)).getRec ((loanEntry (lm 1 4 0)).recordAt 6442450944) = some (4, true) ∧ (lm 1 4 0).op = 1 ∧ BitVec.toNat (lm 1 4 0).target = 4) ∧
    ((rcv lv).checkGran ((loanEntry (lm 1 5 0)).recordAt 6442450944) = (false, held lv (lm 1 5 0)) ∧ lv.netServes = true ∧ lv.receive hd true = some (rcv lv) ∧ (rcv lv).lentAt 7 (lm 1 5 0) = some 6442450944 ∧ (held lv (lm 1 5 0)).getRec ((loanEntry (lm 1 5 0)).recordAt 6442450944) = some (4, true) ∧ (lm 1 5 0).op = 1 ∧ BitVec.toNat (lm 1 5 0).target = 4 + 1 ∧ true = true) ∧
    ((rcv lv).checkGran ((loanEntry (lm 0 8 0)).recordAt 6442450944) = (false, held lv (lm 0 8 0)) ∧ lv.netServes = true ∧ lv.receive hd true = some (rcv lv) ∧ (rcv lv).lentAt 7 (lm 0 8 0) = some 6442450944 ∧ (held lv (lm 0 8 0)).getRec ((loanEntry (lm 0 8 0)).recordAt 6442450944) = some (4, true) ∧ ((lm 0 8 0).op = 0 ∧ BitVec.toNat (lm 0 8 0).target ≠ 4 + 1 ∧ ¬(BitVec.toNat (lm 0 8 0).target = 4 + 2 ∧ true = true) ∨ (lm 0 8 0).op = 2 ∧ BitVec.toNat (lm 0 8 0).target ≠ 4)) ∧
    ((rcv lv).checkGran ((loanEntry (lm 2 8 0)).recordAt 6442450944) = (false, held lv (lm 2 8 0)) ∧ lv.netServes = true ∧ lv.receive hd true = some (rcv lv) ∧ (rcv lv).lentAt 7 (lm 2 8 0) = some 6442450944 ∧ (held lv (lm 2 8 0)).getRec ((loanEntry (lm 2 8 0)).recordAt 6442450944) = some (4, true) ∧ ((lm 2 8 0).op = 0 ∧ BitVec.toNat (lm 2 8 0).target ≠ 4 + 1 ∧ ¬(BitVec.toNat (lm 2 8 0).target = 4 + 2 ∧ true = true) ∨ (lm 2 8 0).op = 2 ∧ BitVec.toNat (lm 2 8 0).target ≠ 4)) ∧
    (lcs.netUp = true ∧ lcs.receive hd true = some (rcv lcs) ∧ (rcv lcs).loanCmd 7 lr = some (64, lc, 0)) ∧
    (nb.netUp = true ∧ nb.receive hd true = some (rcv nb) ∧ (rcv nb).loanCmd 7 lr = none) ∧
    (lcs.cmd cid = some lc ∧ lc.opcode = 114 ∧ (lc.phase = Phase.waiting ∨ lc.phase = Phase.stalled) ∧ lc.aux ≠ [] ∧ lc.unanswered ≠ [] ∧ lcs.timedOut lc = true ∧ lc.lost = [] ∧ lc.seeds = []) ∧
    (w1.cmd cid = some lc ∧ w1.timedOut lc = false) :=
  ⟨by decide +kernel,
   by decide +kernel,
   by decide +kernel,
   by decide +kernel,
   by decide +kernel,
   by decide +kernel,
   by decide +kernel,
   by decide +kernel,
   by decide +kernel,
   ⟨(by delta held; exact pair_of (by decide +kernel)), by decide +kernel⟩,
   ⟨(by delta held; exact pair_of (by decide +kernel)), by decide +kernel⟩,
   ⟨(by delta held; exact pair_of (by decide +kernel)), by decide +kernel⟩,
   ⟨(by delta held; exact pair_of (by decide +kernel)), by decide +kernel⟩,
   ⟨(by delta held; exact pair_of (by decide +kernel)), by decide +kernel⟩,
   ⟨(by delta held; exact pair_of (by decide +kernel)), by decide +kernel⟩,
   by decide +kernel,
   by decide +kernel,
   by decide +kernel,
   by decide +kernel⟩


end Loans

namespace MediaRows

def cid : CmdId := { ctx := 1, ring := 0, count := 3 }
def dg (id frame off total : Nat) (len : Nat) : List Byte := natLE 4 0x4C584247 ++ natLE 2 id ++ natLE 1 1 ++ natLE 1 0 ++ natLE 4 frame ++ natLE 4 off ++ natLE 8 0x77 ++ natLE 4 total ++ natLE 4 0 ++ List.replicate len 5
def lv (en : Nat) : State := sets nb [(F.kfeLiveCfg_ENABLE,3,en),(F.kfeLiveCfg_STREAM_ID,3,77),(F.kfeLiveCfg_QUEUE,3,20),(F.kfeLiveCfg_FRAME_MAX_KIB,3,4),(F.kfeLiveCfg_FRAME_SLOTS,3,5),(F.kfeLiveBuf_BASE,3,1)]
def lf : LiveFrame := {stream:=3,frame:=6,slot:=1,total:=10,got:=[(0,5)],firstAt:=7,capture:=0,codec:=0}
def lfs : State := {lv 1 with kfe := {frames := [{lf with frame := 8}, lf]}}
def w1 := {lfs with clk := {ivl := 8}}
def ku : State := {sets nb [(F.kfeStatus_UP,2,1),(F.kfeStatus_TABLE_VALID,2,1)] with kfe := {tables := [(2,{ctx:=1,addr:=0,pages:=[],bytes:=[]})]}}
def w2 := {ku with kfe := {resetting := [2]}}
def md : List Byte := natLE 1 1 ++ natLE 1 4 ++ natLE 2 0 ++ natLE 4 3 ++ natLE 64 0 ++ natLE 4 20 ++ natLE 4 0 ++ natLE 4 5 ++ natLE 44 0
def mc : Cmd := {nop 3 with record := recd 0x80 4, phase := .waiting, desc := md, aux := [1,5], tables := [natLE 1 15]}
def mcs : State := {nb with rings := [(64,{cmds := [nop 2, mc]})]}
def w3 := {mcs with clk := {ivl := 6}}
def sl (u : Nat) (k : StallKind) : Stall := {unit := u, src := Unit.kfe 0, kind := k, va := 0, pte := 0x3000, entry := 0x10007, since := 0}
def ms : Cmd := {mc with phase := .stalled, stalls := [sl 2 .cow]}
def mss : State := {nb with rings := [(64,{cmds := [nop 2, ms]})]}
def w4 := {mss with clk := {ivl := 6}}
theorem witness_LiveAndFrontEnds :
    ((nb.wr F.hubState_STATE 0 9).netServes = false ∨ (nb.wr F.hubState_STATE 0 9).lpUp 0 = false ∨ (dg 77 1 0 10 5).length < 32 ∨ fieldAt (dg 77 1 0 10 5) 0 0 32 ≠ 1280852551 ∨ fieldAt (dg 77 1 0 10 5) 7 0 8 ≠ 0 ∨ fieldAt (dg 77 1 0 10 5) 28 0 32 ≠ 0) ∧
    ((lv 0).netServes = true ∧ (lv 0).lpUp 0 = true ∧ 32 ≤ (dg 77 1 0 10 5).length ∧ fieldAt (dg 77 1 0 10 5) 0 0 32 = 1280852551 ∧ fieldAt (dg 77 1 0 10 5) 7 0 8 = 0 ∧ fieldAt (dg 77 1 0 10 5) 28 0 32 = 0 ∧ (∃ k, k < 4 ∧ (lv 0).kfeFitted k = true) ∧ (lv 0).liveStream (fieldAt (dg 77 1 0 10 5) 4 0 16) = some 3 ∧ (lv 0).flag F.kfeLiveCfg_ENABLE 3 = false) ∧
    ((lv 1).netServes = true ∧ (lv 1).lpUp 0 = true ∧ 32 ≤ (dg 77 6 0 10 5).length ∧ fieldAt (dg 77 6 0 10 5) 0 0 32 = 1280852551 ∧ fieldAt (dg 77 6 0 10 5) 7 0 8 = 0 ∧ fieldAt (dg 77 6 0 10 5) 28 0 32 = 0 ∧ (∃ k, k < 4 ∧ (lv 1).kfeFitted k = true) ∧ (lv 1).liveStream (fieldAt (dg 77 6 0 10 5) 4 0 16) = some 3 ∧ (lv 1).flag F.kfeLiveCfg_ENABLE 3 = true ∧ fieldAt (dg 77 6 0 10 5) 24 0 32 ≤ (lv 1).rd F.kfeLiveCfg_FRAME_MAX_KIB 3 * 1024 ∧ (lv 1).rd F.kfeLiveCfg_FRAME_SLOTS 3 ≠ 0 ∧ (∀ (f : LiveFrame), f ∈ (lv 1).kfe.frames → f.stream = 3 → f.frame ≠ fieldAt (dg 77 6 0 10 5) 8 0 32 ∧ (f.slot ≠ fieldAt (dg 77 6 0 10 5) 8 0 32 % (lv 1).rd F.kfeLiveCfg_FRAME_SLOTS 3 ∨ f.dead = true)) ∧ (lv 1).slotPinned 3 (fieldAt (dg 77 6 0 10 5) 8 0 32 % (lv 1).rd F.kfeLiveCfg_FRAME_SLOTS 3) = false ∧ 0 < (dg 77 6 0 10 5).length - 32 ∧ fieldAt (dg 77 6 0 10 5) 12 0 32 + ((dg 77 6 0 10 5).length - 32) ≤ fieldAt (dg 77 6 0 10 5) 24 0 32 ∧ (fieldAt (dg 77 6 0 10 5) 12 0 32 ≠ 0 ∨ (dg 77 6 0 10 5).length - 32 < fieldAt (dg 77 6 0 10 5) 24 0 32)) ∧
    ((lv 1).netServes = true ∧ (lv 1).lpUp 0 = true ∧ 32 ≤ (dg 77 6 4 10 6).length ∧ fieldAt (dg 77 6 4 10 6) 0 0 32 = 1280852551 ∧ fieldAt (dg 77 6 4 10 6) 7 0 8 = 0 ∧ fieldAt (dg 77 6 4 10 6) 28 0 32 = 0 ∧ (∃ k, k < 4 ∧ (lv 1).kfeFitted k = true) ∧ (lv 1).liveStream (fieldAt (dg 77 6 4 10 6) 4 0 16) = some 3 ∧ (lv 1).flag F.kfeLiveCfg_ENABLE 3 = true ∧ fieldAt (dg 77 6 4 10 6) 24 0 32 ≤ (lv 1).rd F.kfeLiveCfg_FRAME_MAX_KIB 3 * 1024 ∧ (lv 1).rd F.kfeLiveCfg_FRAME_SLOTS 3 ≠ 0 ∧ (∀ (f : LiveFrame), f ∈ (lv 1).kfe.frames → f.stream = 3 → f.frame ≠ fieldAt (dg 77 6 4 10 6) 8 0 32 ∧ (f.slot ≠ fieldAt (dg 77 6 4 10 6) 8 0 32 % (lv 1).rd F.kfeLiveCfg_FRAME_SLOTS 3 ∨ f.dead = true)) ∧ (lv 1).slotPinned 3 (fieldAt (dg 77 6 4 10 6) 8 0 32 % (lv 1).rd F.kfeLiveCfg_FRAME_SLOTS 3) = false ∧ 0 < (dg 77 6 4 10 6).length - 32 ∧ fieldAt (dg 77 6 4 10 6) 12 0 32 + ((dg 77 6 4 10 6).length - 32) ≤ fieldAt (dg 77 6 4 10 6) 24 0 32 ∧ (fieldAt (dg 77 6 4 10 6) 12 0 32 ≠ 0 ∨ (dg 77 6 4 10 6).length - 32 < fieldAt (dg 77 6 4 10 6) 24 0 32)) ∧
    (List.find? (fun f => f.stream == 3 && f.frame == 6) lfs.kfe.frames = some lf ∧ lf.firstAt + 10000000 ≤ lfs.ivl) ∧
    (List.find? (fun f => f.stream == 3 && f.frame == 6) w1.kfe.frames = some lf ∧ w1.ivl < lf.firstAt + 10000000) ∧
    (ku.kfeFitted 2 = true ∧ ku.flag F.kfeStatus_UP 2 = true ∧ ku.samplesOn 2 = []) ∧
    (2 ∈ w2.kfe.resetting) ∧
    (w3.cmd cid = some mc ∧ w3.ivl - mc.aux.getD 1 0 < mc.media.liveWait * 1000) ∧
    (mcs.cmd cid = some mc ∧ mc.opcode = 128 ∧ mc.phase = Phase.waiting ∧ mc.media.live = true ∧ mcs.ctxHeld 1 = false ∧ mc.aux.getD 1 0 + mc.media.liveWait * 1000 ≤ mcs.ivl ∧ mc.aux.getD 0 0 + 1 < mc.media.slots ∧ 0 < mc.media.liveWait ∧ (mcs.que mc.media.queue).head = none) ∧
    (mss.cmd cid = some ms ∧ ms.opcode = 128 ∧ ms.phase = Phase.stalled ∧ 2 < ms.media.slots ∧ mss.ctxHeld 1 = false ∧ (∃ st, st ∈ ms.stalls ∧ st.unit = 2 ∧ st.dispatch = false) ∧ ms.issuedAt + mss.limits.ns ≤ mss.ivl) ∧
    (w4.cmd cid = some ms ∧ w4.ivl - ms.issuedAt < w4.limits.ns) :=
  ⟨by decide +kernel,
   by decide +kernel,
   by decide +kernel,
   by decide +kernel,
   by decide +kernel,
   by decide +kernel,
   by decide +kernel,
   by decide +kernel,
   by decide +kernel,
   by decide +kernel,
   by decide +kernel,
   by decide +kernel⟩
def sx (k : StallKind) (e : Nat) : Cmd := {nop 3 with record := recd 0x10 4, phase := .stalled, desc := [0], stalls := [{sl 2 k with entry := e}]}
def sxs (k : StallKind) (e : Nat) : State := {nb with rings := [(64,{cmds := [nop 2, sx k e]})]}
def sa (k : StallKind) (e : Nat) : StallAt := .unit (sx k e) {sl 2 k with entry := e}
def sxp : State := (sxs .cow 5).wr F.ctxFramePool_ADDR 1 0
def pool : State := ((sxs .cow 5).writePhys 0x10100 (natLE 4 1)).2.setReg Reg.ctxFramePool 1 0x100
/-- A frame that can be popped is enough for the fault to be resolved. -/
theorem replay_of {s : State} {c : Nat} {st : Stall}
    (h : (s.popFrame { cache := some (48 + resolver st.src), ctx := c, root := s.root c } (s.rd F.ctxFramePool_ADDR c)).1.isSome = true) :
    (s.resolveCow c st).1 = .replay := by
  cases e : s.popFrame { cache := some (48 + resolver st.src), ctx := c, root := s.root c } (s.rd F.ctxFramePool_ADDR c) with
  | mk p t =>
    cases p with
    | none => rw [e] at h; cases h
    | some p =>
      simp only [State.resolveCow, e]
      split <;> rfl
def pr := pool.resolveCow 1 (sa .cow 5).stall
def polled (s : State) : State := (s.checkGran (sa .migrate 5).stall.pte).2
def mg0 : State := ((sxs .migrate 5).writePhys 0x3000 (natLE 8 0)).2
def w5 := {sxs .migrate 5 with clk := {ivl := 6}}
def compl : State := {nb with rings := [(64,{cmds := [nop 2, nop 3], complStall := some {sl 3 .migrate with dispatch := true}})]}
def fetching : State := {nb.wr F.ctxRingStatus_HEAD 64 3 with rings := [(64,{fetchStall := some (sl 3 .migrate)})]}
def lwin (st : Nat) (s : State) : State := sets s [(F.netLoanWin_STATE,2,st),(F.netLoanWin_CONN,2,7),(F.netLoanWin_OFFSET_GIB,2,4),(F.netLoanWin_SIZE_GIB,2,2)]
def la : Nat := (0x0A0000000000+2*2^36) + 2*256
def kx : Cmd := {nop 3 with record := recd 0x50 4, phase := .stalled, desc := [0], stalls := [{sl 2 .kvCow with pte := 0x40, entry := 0}]}
def kxs : State := {nb with rings := [(64,{cmds := [nop 2, kx]})]}
def ok := State.ownerCow 1 kx.kvPool.1 (((kx.kvPool.2[0 / 2 ^ 32]?).map (·.pt)).getD 0) 0x40 0 8 kxs
def oka : Sys2Proof.Machine.Acc := match ok.1 with | some (_, a) => a | none => {s := kxs, root := 0}
def w6 := {sl 2 .kvCow with pte := 0x40, entry := 0}
def kw : Cmd := {nop 3 with record := recd 0x50 4, phase := .stalled, desc := [0], stalls := [{sl 2 .kvWalk with entry := 50, va := 1}]}
def kws : State := {nb with rings := [(64,{cmds := [nop 2, kw]})]}
def w7 := {sl 2 .kvWalk with entry := 50, va := 1}
theorem witness_FaultResolutions :
    ((sxs StallKind.cow 5).stallAt cid 2 = some (sa StallKind.cow 5) ∧ (sxs StallKind.cow 5).resolves 1 = true ∧ (sa StallKind.cow 5).stall.kind = StallKind.cow ∧ (sxs StallKind.cow 5).rd F.ctxFramePool_ADDR 1 = 0) ∧
    (pool.resolveCow 1 (sa StallKind.cow 5).stall = (CowEnd.replay, pr.snd) ∧ pool.stallAt cid 2 = some (sa StallKind.cow 5) ∧ pool.resolves 1 = true ∧ (sa StallKind.cow 5).stall.kind = StallKind.cow) ∧
    ((sxs StallKind.migrate 5).checkGran (sa StallKind.migrate 5).stall.pte = (false, polled (sxs StallKind.migrate 5)) ∧ (sxs StallKind.migrate 5).stallAt cid 2 = some (sa StallKind.migrate 5) ∧ (sxs StallKind.migrate 5).resolves 1 = true ∧ (sa StallKind.migrate 5).stall.kind = StallKind.migrate ∧ false = false ∧ Pte.valid ((polled (sxs StallKind.migrate 5)).peek64 (sa StallKind.migrate 5).stall.pte) = true) ∧
    (mg0.checkGran (sa StallKind.migrate 5).stall.pte = (false, polled mg0) ∧ mg0.stallAt cid 2 = some (sa StallKind.migrate 5) ∧ mg0.resolves 1 = true ∧ (sa StallKind.migrate 5).stall.kind = StallKind.migrate ∧ (false = true ∨ Pte.valid ((polled mg0).peek64 (sa StallKind.migrate 5).stall.pte) = false)) ∧
    ((sxs StallKind.migrate 5).stallAt cid 2 = some (sa StallKind.migrate 5) ∧ (sxs StallKind.migrate 5).resolves 1 = true ∧ (sa StallKind.migrate 5).stall.kind = StallKind.migrate ∧ (sxs StallKind.migrate 5).rd F.ctxFaultCfg_MIGRATE_WAIT 1 * 1000000 ≤ (sxs StallKind.migrate 5).migrateSpent (sa StallKind.migrate 5).stall) ∧
    (w5.stallAt cid 2 = some (sa StallKind.migrate 5) ∧ w5.resolves 1 = true ∧ (sa StallKind.migrate 5).stall.kind = StallKind.migrate ∧ w5.migrateSpent (sa StallKind.migrate 5).stall < w5.rd F.ctxFaultCfg_MIGRATE_WAIT 1 * 1000000) ∧
    (compl.stallAt cid 2 = some (StallAt.compl (nop 3) (let __src := sl 3 StallKind.migrate; { unit := __src.unit, src := __src.src, kind := __src.kind, va := __src.va, pte := __src.pte, entry := __src.entry, since := __src.since, spent := __src.spent, write := __src.write, dispatch := true })) ∧ compl.resolves 1 = true ∧ StallAt.compl (nop 3) (let __src := sl 3 StallKind.migrate; { unit := __src.unit, src := __src.src, kind := __src.kind, va := __src.va, pte := __src.pte, entry := __src.entry, since := __src.since, spent := __src.spent, write := __src.write, dispatch := true }) = StallAt.compl (nop 3) (let __src := sl 3 StallKind.migrate; { unit := __src.unit, src := __src.src, kind := __src.kind, va := __src.va, pte := __src.pte, entry := __src.entry, since := __src.since, spent := __src.spent, write := __src.write, dispatch := true })) ∧
    (fetching.stallAt cid 2 = some (StallAt.fetch (sl 3 StallKind.migrate)) ∧ fetching.resolves 1 = true ∧ StallAt.fetch (sl 3 StallKind.migrate) = StallAt.fetch (sl 3 StallKind.migrate)) ∧
    ((lwin 2 (sxs StallKind.loan la)).stallAt cid 2 = some (sa StallKind.loan la) ∧ (lwin 2 (sxs StallKind.loan la)).resolves 1 = true ∧ (sa StallKind.loan la).stall.kind = StallKind.loan ∧ (lwin 2 (sxs StallKind.loan la)).rd F.netLoanWin_STATE (((lwin 2 (sxs StallKind.loan la)).stallWindow (sa StallKind.loan la).stall).getD 16) = 2) ∧
    ((lwin 3 (sxs StallKind.loan la)).stallAt cid 2 = some (sa StallKind.loan la) ∧ (lwin 3 (sxs StallKind.loan la)).resolves 1 = true ∧ (sa StallKind.loan la).stall.kind = StallKind.loan ∧ ((lwin 3 (sxs StallKind.loan la)).rd F.netLoanWin_STATE (((lwin 3 (sxs StallKind.loan la)).stallWindow (sa StallKind.loan la).stall).getD 16) = 0 ∨ (lwin 3 (sxs StallKind.loan la)).rd F.netLoanWin_STATE (((lwin 3 (sxs StallKind.loan la)).stallWindow (sa StallKind.loan la).stall).getD 16) = 3)) ∧
    ((lwin 1 (sxs StallKind.loan la)).stallAt cid 2 = some (sa StallKind.loan la) ∧ (lwin 1 (sxs StallKind.loan la)).resolves 1 = true ∧ (sa StallKind.loan la).stall.kind = StallKind.loan ∧ (lwin 1 (sxs StallKind.loan la)).rd F.netLoanWin_STATE (((lwin 1 (sxs StallKind.loan la)).stallWindow (sa StallKind.loan la).stall).getD 16) = 1) ∧
    (kxs.stallAt cid 2 = some (StallAt.unit kx w6) ∧ w6.kind = StallKind.kvCow ∧ kxs.resolves 1 = true ∧ State.ownerCow 1 kx.kvPool.fst ((Option.map (fun x => x.pt) kx.kvPool.snd[w6.va / 2 ^ 32]?).getD 0) w6.pte w6.entry 8 kxs = (some (KvCowEnd.replay, oka), ok.snd) ∧ oka.fault = none) ∧
    (kws.cmd cid = some kw ∧ kws.resolves 1 = true ∧ List.filter (fun st => st.kind == StallKind.kvWalk && st.va == 1 && decide (kws.ivl - st.since ≥ st.entry)) kw.stalls = [w7]) ∧
    (kws.cmd cid = some kw ∧ kws.resolves 1 = true ∧ List.filter (fun st => st.kind == StallKind.kvWalk && st.va == 2 && decide (kws.ivl - st.since ≥ st.entry)) kw.stalls = []) :=
  ⟨by decide +kernel,
   ⟨(by delta pr; exact pair_of (replay_of (by decide +kernel))), by decide +kernel⟩,
   ⟨(by delta polled; exact pair_of (by decide +kernel)), by decide +kernel⟩,
   ⟨(by delta polled; exact pair_of (by decide +kernel)), by decide +kernel⟩,
   by decide +kernel,
   by decide +kernel,
   by decide +kernel,
   by decide +kernel,
   by decide +kernel,
   by decide +kernel,
   by decide +kernel,
   by decide +kernel,
   by decide +kernel,
   by decide +kernel⟩
def rd : List Byte := natLE 1 1 ++ natLE 1 1 ++ natLE 1 2 ++ natLE 1 0 ++ natLE 4 0 ++ natLE 8 0x1001 ++ natLE 48 0 ++ natLE 6 5 ++ natLE 2 0 ++ natLE 6 7 ++ natLE 2 1
def rx : Cmd := {nop 3 with record := recd 0xA1 4, phase := .waiting, desc := rd}
def rxs : State := {nb with rings := [(64,{cmds := [rx]}),(130,{cmds := [nop 5]})]}
def rxn : State := {nb with rings := [(64,{cmds := [rx]}),(65,{cmds := [nop 5]})]}
theorem witness_RemapEnds :
    (rx.untouched ∧ rxs.cmd cid = some rx ∧ rx.opcode = 161 ∧ rx.phase = Phase.waiting ∧ rxs.remapDrained (CmdKey cid) rx = true ∧ rxs.ctxState 1 = Ctx.active ∧ fieldAt rx.desc 3 0 8 = 0 ∧ (List.map (fun x => x.fst) (remapBinds rx.desc)).Nodup) ∧
    (rxn.cmd cid = some rx ∧ rx.opcode = 161 ∧ rx.phase = Phase.waiting ∧ rxn.remapDrained (CmdKey cid) rx = false) :=
  ⟨⟨(by unfold Cmd.untouched; decide +kernel), by decide +kernel⟩,
   by decide +kernel⟩


end MediaRows

namespace Mailbox

def bpre : List Byte := natLE 4 0x43584247 ++ natLE 4 0 ++ natLE 8 128 ++ natLE 8 0 ++ List.replicate 40 0 ++ natLE 2 0xFFFF ++ natLE 6 0 ++ natLE 8 7 ++ natLE 8 128 ++ natLE 8 0
def blob0 : List Byte := bpre ++ sha3 bpre
def hs : State := {up with host := Mem.writeN [] 0x1000 blob0, life := Mem.writeN [] 20 [1,2,3]}
def hold : State := hs.wr F.hubState_STATE 0 Dev.cfgHold
def busy : State := {hs with mbox := some {cmd := 1, args := []}}
def lows : State := devAt Dev.aon
def args (c : Instr) := (mboxRow c).getD (0,[])
def waits : State := {hs with rel := {halted := [(0,1,5)]}}
def mc (c : Instr) := args c
theorem witness_MailboxCommands :
    (mboxRow (Instr.diagFindings 5#64) = some ((args (Instr.diagFindings 5#64)).fst, (args (Instr.diagFindings 5#64)).snd) ∧ lows.dev < Dev.rom) ∧
    (mboxRow (Instr.diagFindings 5#64) = some ((args (Instr.diagFindings 5#64)).fst, (args (Instr.diagFindings 5#64)).snd) ∧ Dev.rom ≤ busy.dev ∧ busy.mbox ≠ none) ∧
    (mboxRow (Instr.diagFindings 5#64) = some ((args (Instr.diagFindings 5#64)).fst, (args (Instr.diagFindings 5#64)).snd) ∧ Dev.rom ≤ hs.dev ∧ hs.mbox = none) ∧
    (mboxRow (Instr.diagFindings 5#64) = some ((args (Instr.diagFindings 5#64)).fst, (args (Instr.diagFindings 5#64)).snd) ∧ Dev.rom ≤ hs.dev ∧ hs.mbox = none ∧ hs.dutyHeld 0 = false) ∧
    (mboxRow (Instr.diagFindings 5#64) = some ((args (Instr.diagFindings 5#64)).fst, (args (Instr.diagFindings 5#64)).snd) ∧ Dev.rom ≤ waits.dev ∧ waits.mbox = none ∧ waits.dutyHeld 0 = true) ∧
    (mboxRow (Instr.cfgLoad 4096#64 128#64) = some ((args (Instr.cfgLoad 4096#64 128#64)).fst, (args (Instr.cfgLoad 4096#64 128#64)).snd) ∧ Dev.rom ≤ hs.dev ∧ hs.mbox = none ∧ hs.dutyHeld 0 = false) ∧
    (mboxRow Instr.mboxResume = some ((args Instr.mboxResume).fst, (args Instr.mboxResume).snd) ∧ Dev.rom ≤ hs.dev ∧ hs.mbox = none ∧ hs.dutyHeld 0 = false) ∧
    (mboxRow (Instr.cfgCommit true) = some ((args (Instr.cfgCommit true)).fst, (args (Instr.cfgCommit true)).snd) ∧ Dev.rom ≤ hold.dev ∧ hold.mbox = none ∧ hold.dutyHeld 0 = false) ∧
    (mboxRow (Instr.lifeRead true 3 4 5) = some ((args (Instr.lifeRead true 3 4 5)).fst, (args (Instr.lifeRead true 3 4 5)).snd) ∧ Dev.rom ≤ hs.dev ∧ hs.mbox = none ∧ hs.dutyHeld 0 = false) ∧
    (mboxRow (Instr.mboxAttest 3 [1, 2]) = some ((args (Instr.mboxAttest 3 [1, 2])).fst, (args (Instr.mboxAttest 3 [1, 2])).snd) ∧ Dev.rom ≤ hs.dev ∧ hs.mbox = none ∧ hs.dutyHeld 0 = false) ∧
    (mboxRow Instr.diagRestart = some ((args Instr.diagRestart).fst, (args Instr.diagRestart).snd) ∧ Dev.rom ≤ hs.dev ∧ hs.mbox = none ∧ hs.dutyHeld 0 = false) ∧
    (mboxRow (Instr.diagNotices 7) = some ((args (Instr.diagNotices 7)).fst, (args (Instr.diagNotices 7)).snd) ∧ Dev.rom ≤ hs.dev ∧ hs.mbox = none ∧ hs.dutyHeld 0 = false) ∧
    (mboxRow (Instr.activateStage ActSrc.mailbox 7 9) = some ((args (Instr.activateStage ActSrc.mailbox 7 9)).fst, (args (Instr.activateStage ActSrc.mailbox 7 9)).snd) ∧ Dev.rom ≤ hs.dev ∧ hs.mbox = none ∧ hs.dutyHeld 0 = false) ∧
    (mboxRow (Instr.activateNow ActSrc.mailbox) = some ((args (Instr.activateNow ActSrc.mailbox)).fst, (args (Instr.activateNow ActSrc.mailbox)).snd) ∧ Dev.rom ≤ hs.dev ∧ hs.mbox = none ∧ hs.dutyHeld 0 = false) ∧
    (mboxRow (Instr.activateCancel ActSrc.mailbox) = some ((args (Instr.activateCancel ActSrc.mailbox)).fst, (args (Instr.activateCancel ActSrc.mailbox)).snd) ∧ Dev.rom ≤ hs.dev ∧ hs.mbox = none ∧ hs.dutyHeld 0 = false) ∧
    (mboxRow (Instr.activateSchedule ActSrc.mailbox 7 9 2 true) = some ((args (Instr.activateSchedule ActSrc.mailbox 7 9 2 true)).fst, (args (Instr.activateSchedule ActSrc.mailbox 7 9 2 true)).snd) ∧ Dev.rom ≤ hs.dev ∧ hs.mbox = none ∧ hs.dutyHeld 0 = false) :=
  ⟨by decide +kernel,
   by decide +kernel,
   by decide +kernel,
   by decide +kernel,
   by decide +kernel,
   by decide +kernel,
   by decide +kernel,
   by decide +kernel,
   by decide +kernel,
   by decide +kernel,
   by decide +kernel,
   by decide +kernel,
   by decide +kernel,
   by decide +kernel,
   by decide +kernel,
   by decide +kernel⟩
def df : State := {hs with start := {hs.start with findings := [{reason:=3,copy:=1,section_:=4,offset:=7},{reason:=4,copy:=1,section_:=4,offset:=8}]}}
def brc : State := sets hs [(F.hubState_STATE,0,Dev.braced),(F.mgtBraceStatus_PHASE,0,6)]
def w1 := {brc with pins := {braceLow := true}}
def jb (l : Bool) : MboxJob := {cmd := 1, args := [], begun := true, result := 3, detail := 77, lost := l}
def w2 := {busy with mbox := some (jb true)}
def w3 := {busy with mbox := some (jb false)}
theorem witness_MailboxResults :
    (Dev.rom ≤ hs.dev ∧ hs.mbox = none ∧ hs.dutyHeld 0 = false ∧ (hs.serving = true ∨ hs.dev = Dev.cfgHold) ∧ 128 ≤ blobMax) ∧
    (Dev.rom ≤ hs.dev ∧ hs.mbox = none ∧ hs.dutyHeld 0 = false ∧ (hs.serving = true ∨ hs.dev = Dev.cfgHold) ∧ 127 ≤ blobMax) ∧
    (Dev.rom ≤ hold.dev ∧ hold.mbox = none ∧ hold.dutyHeld 0 = false ∧ hold.dev = Dev.cfgHold ∧ hold.start.staged = none) ∧
    (Dev.rom ≤ hs.dev ∧ hs.mbox = none ∧ hs.dutyHeld 0 = false ∧ hs.serving = true ∧ 18 + 6 ≤ 24576) ∧
    (Dev.rom ≤ df.dev ∧ df.mbox = none ∧ df.dutyHeld 0 = false ∧ df.dev ≠ Dev.paused) ∧
    (Dev.rom ≤ df.dev ∧ df.mbox = none ∧ df.dutyHeld 0 = false ∧ df.dev ≠ Dev.braced) ∧
    (Dev.rom ≤ w1.dev ∧ w1.mbox = none ∧ w1.dutyHeld 0 = false ∧ w1.dev = Dev.braced ∧ w1.pins.braceLow = true) ∧
    (Dev.rom ≤ brc.dev ∧ brc.mbox = none ∧ brc.dutyHeld 0 = false ∧ brc.dev = Dev.braced ∧ brc.pins.braceLow = false ∧ brc.start.held = none ∧ brc.rd F.mgtBraceStatus_PHASE = 6 ∧ brc.brace.ctxs = []) ∧
    (hs.mbox = none ∨ hs.dutyHeld 0 = true) ∧
    (w2.mbox = some (jb true) ∧ (jb true).begun = true ∧ (jb true).writes = none ∧ w2.dutyHeld 0 = false ∧ (jb true).lost = true) ∧
    (w3.mbox = some (jb false) ∧ (jb false).begun = true ∧ (jb false).writes = none ∧ w3.dutyHeld 0 = false ∧ (jb false).lost = false) :=
  ⟨by decide +kernel,
   by decide +kernel,
   by decide +kernel,
   by decide +kernel,
   by decide +kernel,
   by decide +kernel,
   by decide +kernel,
   by decide +kernel,
   by decide +kernel,
   by decide +kernel,
   by decide +kernel⟩


end Mailbox

namespace Activations

def base (st dev : Nat) : State :=
  let s := sets nb [(F.hubState_STATE,0,dev),(F.secActStatus_STATE,0,st),(F.secFwStaged_VALID,0,1),(F.secFwStaged_RELEASE,0,12),(F.secFwRunning_RELEASE,0,11),(F.secFwStaged_SECURITY_VERSION,0,5)]
  {s with start := {s.start with items := (8,3,0,1) :: s.start.items}, sec := {liveMin := 1, liveMax := 20, stagedParts := [(1,[3])], pausedFrom := 7, drainLimit := 50, pausedAt := 100}}
def good : SwapReport := { failing := none, rollbackFails := false, ns := 5 }
def bad : SwapReport := { failing := some 2, rollbackFails := false, ns := 5 }
def bp : State := {base 3 7 with sec := {(base 3 7).sec with boundary := true}}
theorem witness_Activation :
    ((base 0 7).serving = true ∧ (base 0 7).mbox = none ∧ (base 0 7).dutyHeld 0 = false ∧ (base 0 7).liveMethod = true ∧ (base 0 7).rd F.secActStatus_STATE = 0 ∧ (base 0 7).flag F.secFwStaged_VALID = true ∧ (base 0 7).liveOk = true ∧ (base 0 7).time ≤ 6000 ∧ 9#16 ≠ 0) ∧
    ((base 2 7).serving = true ∧ (base 2 7).mbox = none ∧ (base 2 7).dutyHeld 0 = false ∧ (base 2 7).rd F.secActStatus_STATE ≠ 0) ∧
    ((base 0 7).serving = true ∧ (base 0 7).mbox = none ∧ (base 0 7).dutyHeld 0 = false ∧ (base 0 7).liveMethod = true ∧ (base 0 7).flag F.secFwStaged_VALID = true ∧ (base 0 7).liveOk = true) ∧
    ((base 3 8).serving = true ∧ (base 3 8).mbox = none ∧ (base 3 8).dutyHeld 0 = false ∧ (base 3 8).liveMethod = true ∧ (base 3 8).flag F.secFwStaged_VALID = true ∧ (base 3 8).liveOk = true) ∧
    ((base 1 7).rd F.secActStatus_STATE = 1 ∧ true = true ∧ (base 1 7).rel.halted = []) ∧
    ((base 1 7).rd F.secActStatus_STATE ≠ 1 ∨ false = false ∨ (base 1 7).rel.halted ≠ []) ∧
    ((base 2 7).rd F.secActStatus_STATE = 2 ∧ (base 2 7).rd F.secActTime_TIME ≤ (base 2 7).time) ∧
    ((base 1 7).rd F.secActStatus_STATE ≠ 2 ∨ (base 1 7).time < (base 1 7).rd F.secActTime_TIME) ∧
    (bp.serving = true ∧ bp.rd F.secActStatus_STATE = 3 ∧ bp.sec.boundary = true) ∧
    ((base 4 10).dev = Dev.paused ∧ (base 4 10).sec.heldDisable = [] ∧ (base 4 10).sec.braceWaiting = false ∧ (base 4 10).rel.halted = [] ∧ good.failing = none) ∧
    ((base 4 10).dev = Dev.paused ∧ (base 4 10).sec.heldDisable = [] ∧ (base 4 10).sec.braceWaiting = false ∧ (base 4 10).rel.halted = [] ∧ (∃ p, bad.failing = some p) ∧ bad.rollbackFails = false) ∧
    ((base 4 7).dev ≠ Dev.paused ∨ (base 4 7).ivl - (base 4 7).sec.pausedAt < (base 4 7).sec.drainLimit) ∧
    ((base 4 10).dev = Dev.paused ∧ (base 4 10).sec.pausedAt + (base 4 10).sec.drainLimit ≤ (base 4 10).ivl ∧ (base 4 10).sec.heldDisable = [] ∧ (base 4 10).sec.braceWaiting = false) ∧
    (1 ≤ ((base 3 7).wr F.secActTime_TIME 0 9000).rd F.secActStatus_STATE ∧ ((base 3 7).wr F.secActTime_TIME 0 9000).rd F.secActStatus_STATE ≤ 3 ∧ ((base 3 7).wr F.secActTime_TIME 0 9000).sec.boundary = false ∧ ((base 3 7).wr F.secActTime_TIME 0 9000).time < ((base 3 7).wr F.secActTime_TIME 0 9000).rd F.secActTime_TIME + ((base 3 7).wr F.secActTime_TIME 0 9000).rd F.secActStatus_WINDOW_MS * 1000000) ∧
    (1 ≤ (base 3 7).rd F.secActStatus_STATE ∧ (base 3 7).rd F.secActStatus_STATE ≤ 3 ∧ (base 3 7).sec.boundary = false ∧ (base 3 7).rd F.secActTime_TIME + (base 3 7).rd F.secActStatus_WINDOW_MS * 1000000 ≤ (base 3 7).time ∧ (base 3 7).flag F.secActStatus_FALLBACK = false) ∧
    (1 ≤ ((base 3 7).wr F.secActStatus_FALLBACK 0 1).rd F.secActStatus_STATE ∧ ((base 3 7).wr F.secActStatus_FALLBACK 0 1).rd F.secActStatus_STATE ≤ 3 ∧ ((base 3 7).wr F.secActStatus_FALLBACK 0 1).sec.boundary = false ∧ ((base 3 7).wr F.secActStatus_FALLBACK 0 1).rd F.secActTime_TIME + ((base 3 7).wr F.secActStatus_FALLBACK 0 1).rd F.secActStatus_WINDOW_MS * 1000000 ≤ ((base 3 7).wr F.secActStatus_FALLBACK 0 1).time ∧ ((base 3 7).wr F.secActStatus_FALLBACK 0 1).flag F.secActStatus_FALLBACK = true ∧ ((base 3 7).wr F.secActStatus_FALLBACK 0 1).rd F.secActStatus_STATE ≠ 1 ∧ ((base 3 7).wr F.secActStatus_FALLBACK 0 1).serving = true) :=
  ⟨by decide +kernel,
   by decide +kernel,
   by decide +kernel,
   by decide +kernel,
   by decide +kernel,
   by decide +kernel,
   by decide +kernel,
   by decide +kernel,
   by decide +kernel,
   by decide +kernel,
   by decide +kernel,
   by decide +kernel,
   by decide +kernel,
   by decide +kernel,
   by decide +kernel,
   by decide +kernel⟩
def hc : GctHdr := {hd with conn := 4080}
def ctl (r : Nat) : State := let s := nb; { s with mem := nb.mem ++ cells 19 0xFC00 (entry 1 0 0 0 0 0 2 900), conns := [(4080,{peerEpoch := 800, rxSeq := 3})], start := {s.start with items := (2,4,0,r) :: s.start.items}}
def rc (r : Nat) : State := ((ctl r).receive hc true).getD (ctl r)
theorem witness_ControllerRequests :
    ((ctl 0).fromController hc = some (0, rc 0) ∧ ((rc 0).ctrlRights 0).testBit 18 = false) ∧
    ((ctl 262144).fromController hc = some (0, rc 262144) ∧ ((rc 262144).ctrlRights 0).testBit 18 = true) ∧
    ((ctl 262144).fromController hc = some (0, rc 262144)) ∧
    ((devAt 1).dev < Dev.rom ∨ (devAt 1).pins.perst = true) ∧
    (Dev.rom ≤ nb.dev ∧ nb.pins.perst = false) ∧
    (Dev.rom ≤ (devAt 2).dev ∧ (devAt 2).pins.perst = false ∧ ((devAt 2).dev = Dev.rom ∨ (devAt 2).dev = Dev.halted ∨ (devAt 2).dev = Dev.paused)) ∧
    (Dev.rom ≤ nb.dev ∧ nb.pins.perst = false ∧ (nb.serving = true ∨ nb.dev = Dev.cfgHold ∨ nb.dev = Dev.bringup ∨ nb.dev = Dev.braced) ∧ nb.sec.xi = none) :=
  ⟨by decide +kernel,
   by decide +kernel,
   by decide +kernel,
   by decide +kernel,
   by decide +kernel,
   by decide +kernel,
   by decide +kernel⟩


end Activations

namespace RingRows

def cm (op lane : Nat) : Cmd := { nop 3 with armed := true, record := recd op 4 (natLE 1 lane ++ natLE 27 0 ++ natLE 8 0x2000) }
/-- Command `x` in ring 0 of context 1, its descriptor at virtual address 0x2000. -/
def issuing (x : Cmd) (desc : List Byte) : State :=
  { nb with mem := ptab0 ++ beadMap ++ conn7 ++ conn8 ++ ptab.take 4 ++ cells 14 0 desc ++ ptab.drop 4
            rings := [(64, { eff := 0xFFFFFFFFFFFF, cmds := [x, nop 4] })] }
def n3 : Cmd := { nop 3 with armed := true }
def add : Cmd := cm 0x90 0
def addSt : State := issuing add (natLE 1 0 ++ natLE 1 0 ++ natLE 2 5 ++ natLE 4 0 ++ natLE 8 41 ++ natLE 48 0)
def addBad : State := issuing add (natLE 1 0 ++ natLE 1 9 ++ natLE 62 0)
def pegSt (op : Nat) : State := issuing (cm 0x91 0) (natLE 1 op ++ natLE 1 0 ++ natLE 2 4095 ++ natLE 60 0)
def brSt : State := issuing (cm 0xA0 2) (natLE 1 3 ++ natLE 1 2 ++ natLE 1 3 ++ natLE 1 0 ++ natLE 4 9 ++ natLE 56 0)
def bsSt : State := issuing (cm 0xC0 2) (natLE 64 0)
/-- The addition as a filler before a NOP of the main lane, and a copy on a ring with no tiles. -/
def addF : Cmd := cm 0x90 1
def addFSt : State := issuing addF (natLE 1 0 ++ natLE 1 0 ++ natLE 2 5 ++ natLE 4 0 ++ natLE 8 41 ++ natLE 48 0)
def copy : Cmd := cm 0x10 0
def copySt : State := { issuing copy (natLE 8 1 ++ natLE 8 0x10000 ++ natLE 8 0x20000 ++ natLE 8 64) with rings := [(64, { cmds := [copy] })] }
theorem witness_CommandsIssue :
    ((issuing n3 []).issues cid 1 n3 (eng 1) (descOf (prepared (issuing n3 []) n3 1)) (tabsOf (prepared (issuing n3 []) n3 1)) (prepared (issuing n3 []) n3 1).snd ∧ ringRow (issuing n3 []) (Instr.nop cid) = some (cid, 1, true) ∧ true = true) ∧
    (ringRow nb (Instr.nop cid) = some (cid, 1, true) ∧ nb.cmd cid = none) ∧
    (ringRow addSt (Instr.nop cid) = some (cid, 1, true) ∧ addSt.cmd cid = some add ∧ (add.opcode ≠ 1 ∨ addSt.issuable (CmdKey cid) add = false)) ∧
    (ringRow addBad (Instr.beadOpAdd cid) = some (cid, 144, addBad.isRow cid 0 0 2 [0, 1, 2] 0) ∧ addBad.isRow cid 0 0 2 [0, 1, 2] 0 = true ∧ engineOf 144 = some (eng 144) ∧ addBad.prepRun (CmdKey cid) add (eng 144) = (Except.error (statusOf (prepared addBad add 144)), (prepared addBad add 144).snd) ∧ (prepared addBad add 144).snd.fault = none ∧ (prepared addBad add 144).snd.lost = [] ∧ addBad.cmd cid = some add ∧ add.opcode = 144 ∧ addBad.issuable (CmdKey cid) add = true ∧ ((eng 144).tiled = true → addBad.asleep (CmdKey cid) = [])) ∧
    (ringRow addFSt (Instr.beadOpAdd cid) = some (cid, 144, addFSt.isRow cid 0 0 2 [0, 1, 2] 0) ∧ addFSt.isRow cid 0 0 2 [0, 1, 2] 0 = true ∧ engineOf 144 = some (eng 144) ∧ addFSt.prepRun (CmdKey cid) addF (eng 144) = (Except.ok (descOf (prepared addFSt addF 144), tabsOf (prepared addFSt addF 144)), (prepared addFSt addF 144).snd) ∧ (prepared addFSt addF 144).snd.fault = none ∧ (prepared addFSt addF 144).snd.lost = [] ∧ (addFSt.admits (CmdKey cid) ((eng 144).judged addFSt (CmdKey cid) addF (descOf (prepared addFSt addF 144)) (tabsOf (prepared addFSt addF 144))) engineOf = false ∨ addFSt.itsTurn (CmdKey cid) ((eng 144).judged addFSt (CmdKey cid) addF (descOf (prepared addFSt addF 144)) (tabsOf (prepared addFSt addF 144))) engineOf = false) ∧ addFSt.cmd cid = some addF ∧ addF.opcode = 144 ∧ addFSt.issuable (CmdKey cid) addF = true ∧ ((eng 144).tiled = true → addFSt.asleep (CmdKey cid) = [])) ∧
    (engineOf 16 = some (eng 16) ∧ copySt.prepRun (CmdKey cid) copy (eng 16) = (Except.ok (descOf (prepared copySt copy 16), tabsOf (prepared copySt copy 16)), (prepared copySt copy 16).snd) ∧ (prepared copySt copy 16).snd.fault = none ∧ (prepared copySt copy 16).snd.lost = [] ∧ copySt.admits (CmdKey cid) ((eng 16).judged copySt (CmdKey cid) copy (descOf (prepared copySt copy 16)) (tabsOf (prepared copySt copy 16))) engineOf = true ∧ copySt.itsTurn (CmdKey cid) ((eng 16).judged copySt (CmdKey cid) copy (descOf (prepared copySt copy 16)) (tabsOf (prepared copySt copy 16))) engineOf = true ∧ (eng 16).gone copySt (CmdKey cid) ((eng 16).judged copySt (CmdKey cid) copy (descOf (prepared copySt copy 16)) (tabsOf (prepared copySt copy 16))) = true ∧ ringRow copySt (Instr.dmaCopy cid) = some (cid, 16, true) ∧ true = true ∧ copySt.cmd cid = some copy ∧ copy.opcode = 16 ∧ copySt.issuable (CmdKey cid) copy = true ∧ ((eng 16).tiled = true → copySt.asleep (CmdKey cid) = [])) :=
  ⟨⟨(issues_of_now (by decide +kernel)), by decide +kernel⟩,
   by decide +kernel,
   by decide +kernel,
   ⟨rfl, (by delta State.isRow State.peekDesc State.dispAcc State.fetchDie; generalize Config.fetchDie _ _ _ = d; revert d; decide +kernel), rfl, (prep_error _ (by delta State.prepRun State.dispAcc State.fetchDie; generalize Config.fetchDie _ _ _ = d; revert d; decide +kernel)), (by delta prepared State.prepRun State.dispAcc State.fetchDie; generalize Config.fetchDie _ _ _ = d; revert d; decide +kernel), (by delta prepared State.prepRun State.dispAcc State.fetchDie; generalize Config.fetchDie _ _ _ = d; revert d; decide +kernel), by decide +kernel⟩,
   ⟨rfl, (by delta State.isRow State.peekDesc State.dispAcc State.fetchDie; generalize Config.fetchDie _ _ _ = d; revert d; decide +kernel), rfl, (prep_ok _ (by delta State.prepRun State.dispAcc State.fetchDie; generalize Config.fetchDie _ _ _ = d; revert d; decide +kernel)), (by delta prepared State.prepRun State.dispAcc State.fetchDie; generalize Config.fetchDie _ _ _ = d; revert d; decide +kernel), (by delta prepared State.prepRun State.dispAcc State.fetchDie; generalize Config.fetchDie _ _ _ = d; revert d; decide +kernel), (by delta prepared State.prepRun State.dispAcc State.fetchDie; generalize Config.fetchDie _ _ _ = d; revert d; decide +kernel), by decide +kernel⟩,
   ⟨rfl, (prep_ok _ (by delta State.prepRun State.dispAcc State.fetchDie; generalize Config.fetchDie _ _ _ = d; revert d; decide +kernel)), (by delta prepared State.prepRun State.dispAcc State.fetchDie; generalize Config.fetchDie _ _ _ = d; revert d; decide +kernel), (by delta prepared State.prepRun State.dispAcc State.fetchDie; generalize Config.fetchDie _ _ _ = d; revert d; decide +kernel), (by delta prepared State.prepRun State.dispAcc State.fetchDie; generalize Config.fetchDie _ _ _ = d; revert d; decide +kernel), (by delta prepared State.prepRun State.dispAcc State.fetchDie; generalize Config.fetchDie _ _ _ = d; revert d; decide +kernel), (by delta prepared State.prepRun State.dispAcc State.fetchDie; generalize Config.fetchDie _ _ _ = d; revert d; decide +kernel), by decide +kernel⟩⟩
theorem witness_DispatcherCommands :
    (n3.untouched ∧ (issuing n3 []).issues cid 1 n3 (eng 1) (descOf (prepared (issuing n3 []) n3 1)) (tabsOf (prepared (issuing n3 []) n3 1)) (prepared (issuing n3 []) n3 1).snd) ∧
    (add.untouched ∧ addSt.issues cid 144 add (eng 144) (descOf (prepared addSt add 144)) (tabsOf (prepared addSt add 144)) (prepared addSt add 144).snd ∧ addSt.isRow cid 0 0 2 [0, 1, 2] 0 = true ∧ fieldAt (descOf (prepared addSt add 144)) 0 0 2 = 0 ∧ ((prepared addSt add 144).snd.s.vid 1 (fieldAt (descOf (prepared addSt add 144)) 2 0 16)).fst = some 77 ∧ (prepared addSt add 144).snd.s.addCheck 77 (fieldAt (descOf (prepared addSt add 144)) 8 0 64) = AddEnd.done) ∧
    ((cm 145 0).untouched ∧ (pegSt 0).issues cid 145 (cm 145 0) (eng 145) (descOf (prepared (pegSt 0) (cm 145 0) 145)) (tabsOf (prepared (pegSt 0) (cm 145 0) 145)) (prepared (pegSt 0) (cm 145 0) 145).snd ∧ (pegSt 0).isRow cid 0 0 2 [0, 1, 2, 3] (if true = true then 0 else 1) = true ∧ (fieldAt (descOf (prepared (pegSt 0) (cm 145 0) 145)) 0 0 2 = if true = true then 0 else 1)) ∧
    ((cm 145 0).untouched ∧ (pegSt 1).issues cid 145 (cm 145 0) (eng 145) (descOf (prepared (pegSt 1) (cm 145 0) 145)) (tabsOf (prepared (pegSt 1) (cm 145 0) 145)) (prepared (pegSt 1) (cm 145 0) 145).snd ∧ (pegSt 1).isRow cid 0 0 2 [0, 1, 2, 3] (if false = true then 0 else 1) = true ∧ (fieldAt (descOf (prepared (pegSt 1) (cm 145 0) 145)) 0 0 2 = if false = true then 0 else 1)) ∧
    ((cm 160 2).untouched ∧ brSt.issues cid 160 (cm 160 2) (eng 160) (descOf (prepared brSt (cm 160 2) 160)) (tabsOf (prepared brSt (cm 160 2) 160)) (prepared brSt (cm 160 2) 160).snd ∧ (prepared brSt (cm 160 2) 160).snd.s.tilePresent (fieldAt (descOf (prepared brSt (cm 160 2) 160)) 1 0 8) = true) ∧
    ((cm 192 2).untouched ∧ bsSt.issues cid 192 (cm 192 2) (eng 192) (descOf (prepared bsSt (cm 192 2) 192)) (tabsOf (prepared bsSt (cm 192 2) 192)) (prepared bsSt (cm 192 2) 192).snd) :=
  ⟨⟨(by unfold Cmd.untouched; decide +kernel), (issues_of_now (by decide +kernel))⟩,
   ⟨(by unfold Cmd.untouched; decide +kernel), (issues_of_now (by decide +kernel)), (by delta State.isRow State.peekDesc State.dispAcc State.fetchDie; generalize Config.fetchDie _ _ _ = d; revert d; decide +kernel), (by delta prepared State.prepRun State.dispAcc State.fetchDie; generalize Config.fetchDie _ _ _ = d; revert d; decide +kernel), (by delta prepared State.prepRun State.dispAcc State.fetchDie; generalize Config.fetchDie _ _ _ = d; revert d; decide +kernel), (by delta prepared State.prepRun State.dispAcc State.fetchDie; generalize Config.fetchDie _ _ _ = d; revert d; decide +kernel)⟩,
   ⟨(by unfold Cmd.untouched; decide +kernel), (issues_of_now (by decide +kernel)), (by delta State.isRow State.peekDesc State.dispAcc State.fetchDie; generalize Config.fetchDie _ _ _ = d; revert d; decide +kernel), (by delta prepared State.prepRun State.dispAcc State.fetchDie; generalize Config.fetchDie _ _ _ = d; revert d; decide +kernel)⟩,
   ⟨(by unfold Cmd.untouched; decide +kernel), (issues_of_now (by decide +kernel)), (by delta State.isRow State.peekDesc State.dispAcc State.fetchDie; generalize Config.fetchDie _ _ _ = d; revert d; decide +kernel), (by delta prepared State.prepRun State.dispAcc State.fetchDie; generalize Config.fetchDie _ _ _ = d; revert d; decide +kernel)⟩,
   ⟨(by unfold Cmd.untouched; decide +kernel), (issues_of_now (by decide +kernel)), (by delta prepared State.prepRun State.dispAcc State.fetchDie; generalize Config.fetchDie _ _ _ = d; revert d; decide +kernel)⟩,
   ⟨(by unfold Cmd.untouched; decide +kernel), (issues_of_now (by decide +kernel))⟩⟩

end RingRows

namespace Rows

/-- A command whose descriptor stands at address 0x8000. -/
def cm (op : Nat) : Cmd := { nop 3 with armed := true, record := recd op 4 (natLE 28 0 ++ natLE 8 0x8000) }
/-- A pool at 0x4000; the sequence at 0x4080 has no tokens. -/
def poolTab : Mem := [(4096, 10), (4102, 1), (4104, 16), (4106, 10), (4108, 1)]
/-- A tensor reference at 0x4100, its group at 0x4140. -/
def gemmTab : Mem := [(4352, 10), (4356, 1), (4360, 1), (4370, 2), (4416, 1)]
/-- The member table of a group of one at 0x4180. -/
def formTab : Mem := [(4480, 255), (4481, 255)]
/-- A parameter group at 0x4200. -/
def groupTab : Mem := [(4608, 1), (4612, 1), (4613, 10), (4626, 5), (4632, 1), (4636, 1), (4656, 4)]
/-- A parameter group that a lender holds, at 0x4280. -/
def loanTab : Mem := [(4736, 1), (4740, 17), (4741, 10), (4754, 5), (4760, 1), (4764, 1), (4770, 6), (4778, 7), (4784, 4), (4836, 7), (4842, 1)]
/-- A level of a batch at 0x4300. -/
def levelTab : Mem := [(4864, 10), (4868, 1), (4872, 1), (4882, 4), (4929, 128), (4930, 4), (4936, 8)]
/-- A pool of mode TREE at 0x4380. -/
def treeTab : Mem := [(4992, 10), (4998, 1), (5000, 16), (5002, 10), (5004, 1), (5064, 10)]
/-- A step record at 0x4800. -/
def stepTab : Mem := [(6144, 2), (6148, 2), (6152, 9), (6160, 1), (6208, 1), (6336, 1), (6337, 1)]
/-- A row: its prefix-sharing mode, opcode, command, the bytes of its descriptor that are not zero, and its tables. -/
structure Row where
  kv : Nat
  op : Nat
  c : Instr
  d : List (Nat × Nat)
  t : Mem
def Row.cmd (r : Row) : Cmd := cm r.op
/-- The row's command in ring 0 of context 1, its descriptor and the tables in memory. -/
def Row.state (r : Row) : State :=
  let s := sets (bmRegs pages) [(F.ctxPgroup_TABLE_ADDR,1,0x4200),(F.ctxPgroup_LAST,1,1),(F.queCfg_ENABLE,20,1),(F.queCfg_PUT_EN,20,1),
    (F.queCfg_CTX,20,1),(F.ctxStepRec_RECORD_ADDR,1,0x4800),(F.ctxStepCfg_COLL_GROUP,1,2),(F.kfeStatus_UP,0,1),(F.ctxVersion_CURRENT,1,8),
    (F.kfeLiveCfg_ENABLE,3,1),(F.kfeLiveCfg_QUEUE,3,20),(F.kfeLiveCfg_CTX,3,1)]
  { s with mem := ptab0 ++ r.t ++ r.d.map (fun e => (1099511631872 + e.1, BitVec.ofNat 8 e.2)) ++ beadMap ++ ptab
           start := { s.start with items := s.start.items ++ [(4,1,1,r.kv)] }
           groups := [{ctx:=1,id:=2,phase:=1,conns:=[7,0xFFFF],self:=1}]
           rings := [(64, { eff := 1, cmds := [r.cmd] })] }
/-- The command of the row may issue. -/
def Row.may (r : Row) : Prop := Issuing r.state r.cmd r.op
def Row.ready (r : Row) : Bool := issuesNow r.state r.cmd r.op
theorem Row.may_of {r : Row} (h : r.ready = true) : r.may := issues_of_now h
theorem rows_may {l : List Row} (h : l.all Row.ready = true) : ∀ r, r ∈ l → r.may :=
  fun r m => Row.may_of (List.all_eq_true.mp h r m)

def dmaCopy : Row := ⟨0, 0x10, .dmaCopy cid, [(0, 1), (10, 1), (18, 2), (24, 64)], []⟩
def dmaScatter : Row := ⟨0, 0x11, .dmaScatter cid, [(0, 1), (4, 64), (10, 1), (18, 2), (24, 1), (34, 3)], []⟩
def dmaGather : Row := ⟨0, 0x12, .dmaGather cid, [(0, 1), (4, 64), (10, 1), (18, 2), (24, 1), (34, 3)], []⟩
theorem witness_EveryRowCompletes_dma : ∀ r, r ∈ [dmaCopy, dmaScatter, dmaGather] → r.may := rows_may (by decide +kernel)
def gemm : Row := ⟨0, 0x20, .gemm cid, [(0, 5), (64, 10), (68, 1), (72, 1), (82, 1), (128, 10), (132, 1), (136, 1), (146, 2), (256, 10), (260, 1), (264, 1), (274, 3)], []⟩
theorem witness_EveryRowCompletes_gemm : ∀ r, r ∈ [gemm] → r.may := rows_may (by decide +kernel)
def gemmGrouped : Row := ⟨0, 0x21, .gemmGrouped cid, [(0, 5), (64, 10), (68, 1), (72, 1), (82, 1), (129, 65), (136, 64), (137, 65), (144, 1), (146, 1), (256, 10), (260, 1), (264, 1), (274, 3)], gemmTab⟩
theorem witness_EveryRowCompletes_grouped : ∀ r, r ∈ [gemmGrouped] → r.may := rows_may (by decide +kernel)
def conv : Row := ⟨0, 0x30, .conv cid, [(0, 6), (1, 4), (14, 1), (16, 1), (20, 1), (24, 1), (28, 1), (32, 1), (34, 1), (36, 1), (40, 1), (42, 1), (44, 1), (48, 1), (50, 1), (52, 1), (128, 10), (132, 1), (136, 2), (146, 1), (192, 10), (196, 1), (200, 32), (210, 2), (256, 10), (260, 1), (264, 1), (274, 3)], []⟩
theorem witness_EveryRowCompletes_conv : ∀ r, r ∈ [conv] → r.may := rows_may (by decide +kernel)
def pool : Row := ⟨0, 0x31, .pool cid, [(0, 5), (1, 8), (16, 1), (20, 1), (24, 1), (28, 1), (32, 1), (34, 1), (36, 1), (40, 1), (42, 1), (44, 1), (48, 1), (50, 1), (52, 1), (128, 10), (132, 1), (136, 1), (146, 1), (192, 10), (196, 1), (200, 1), (210, 2)], []⟩
def vec : Row := ⟨0, 0x40, .vec cid, [(0, 5), (2, 1), (3, 64), (8, 10), (9, 5)], []⟩
theorem witness_EveryRowCompletes_lanes : ∀ r, r ∈ [pool, vec] → r.may := rows_may (by decide +kernel)
def scan : Row := ⟨0, 0x41, .scan cid, [(0, 6), (64, 10), (68, 1), (72, 1), (82, 1), (256, 10), (260, 1), (264, 1), (274, 3)], []⟩
theorem witness_EveryRowCompletes_scan : ∀ r, r ∈ [scan] → r.may := rows_may (by decide +kernel)
def reduce : Row := ⟨0, 0x42, .reduce cid, [(0, 6), (64, 10), (68, 1), (72, 1), (82, 1), (256, 10), (260, 1), (264, 1), (274, 3)], []⟩
def convert : Row := ⟨0, 0x48, .convert cid, [(0, 3), (64, 10), (68, 1), (72, 1), (82, 1), (128, 10), (132, 1), (136, 1), (146, 3)], []⟩
theorem witness_EveryRowCompletes_reduce : ∀ r, r ∈ [reduce, convert] → r.may := rows_may (by decide +kernel)
def attnFwd : Row := ⟨0, 0x50, .attnFwd cid, [(0, 4), (2, 1), (4, 1), (8, 1), (16, 128), (17, 64), (25, 64), (32, 1), (64, 10), (68, 1), (72, 16), (82, 1), (128, 10), (132, 1), (136, 16), (146, 2), (192, 12), (196, 1), (200, 1), (210, 3)], poolTab⟩
theorem witness_EveryRowCompletes_attn : ∀ r, r ∈ [attnFwd] → r.may := rows_may (by decide +kernel)
def attnBwd : Row := ⟨0, 0x51, .attnBwd cid, [(0, 8), (2, 1), (4, 1), (8, 1), (16, 128), (17, 64), (25, 64), (32, 1), (64, 10), (68, 1), (72, 16), (82, 1), (128, 10), (132, 1), (136, 16), (146, 2), (192, 10), (196, 1), (200, 16), (210, 4), (256, 12), (260, 1), (264, 1), (274, 3), (320, 10), (324, 1), (328, 16), (338, 5), (384, 10), (388, 1), (392, 16), (402, 6), (448, 10), (452, 1), (456, 16), (466, 7)], poolTab⟩
theorem witness_EveryRowCompletes_grad : ∀ r, r ∈ [attnBwd] → r.may := rows_may (by decide +kernel)
def kvAppendScatter : Row := ⟨0, 0x52, .kvAppendScatter cid, [(0, 3), (73, 64), (80, 128), (81, 64), (88, 1), (128, 10), (132, 1), (136, 16), (146, 1)], poolTab⟩
def kvAlloc : Row := ⟨1, 0x53, .kvAlloc cid, [(0, 1), (9, 64), (16, 64), (28, 1)], poolTab⟩
theorem witness_EveryRowCompletes_append : ∀ r, r ∈ [kvAppendScatter, kvAlloc] → r.may := rows_may (by decide +kernel)
def optStep : Row := ⟨0, 0x60, .optStep cid, [(0, 1), (2, 10), (6, 1), (8, 9), (26, 128), (27, 63), (30, 128), (31, 63)], groupTab⟩
def digest : Row := ⟨0, 0x62, .digest cid, [(0, 1), (6, 1)], groupTab⟩
def stateExport : Row := ⟨0, 0x63, .stateExport cid, [(0, 1), (6, 1), (17, 16)], groupTab⟩
theorem witness_EveryRowCompletes_training : ∀ r, r ∈ [optStep, digest, stateExport] → r.may := rows_may (by decide +kernel)
def branch : Row := ⟨0, 0xA0, .branch cid, [(4, 1)], []⟩
def queuePut : Row := ⟨0, 0xB0, .queuePut cid, [(0, 20), (2, 1)], []⟩
def braceSet : Row := ⟨0, 0xC0, .braceSet cid, [], []⟩
theorem witness_EveryRowCompletes_dispatcher : ∀ r, r ∈ [branch, queuePut, braceSet] → r.may := rows_may (by decide +kernel)
def remap : Row := ⟨0, 0xA1, .remap cid, [(0, 6), (1, 1)], []⟩
theorem witness_EveryRowCompletes_remap : ∀ r, r ∈ [remap] → r.may := rows_may (by decide +kernel)
def loanStepStep : Row := ⟨0, 0x72, .loanStepStep cid, [(0, 1), (2, 10), (4, 1), (6, 1), (8, 9), (26, 128), (27, 63), (30, 128), (31, 63)], loanTab⟩
theorem witness_EveryRowCompletes_loan : ∀ r, r ∈ [loanStepStep] → r.may := rows_may (by decide +kernel)
def stepCommit : Row := ⟨0, 0x61, .stepCommit cid, [(0, 1), (2, 2), (8, 9)], stepTab⟩
theorem witness_EveryRowCompletes_step : ∀ r, r ∈ [stepCommit] → r.may := rows_may (by decide +kernel)
def collectiveAllReduce : Row := ⟨0, 0x70, .collectiveAllReduce cid, [(0, 1), (2, 10), (3, 10), (6, 2), (24, 1)], []⟩
def remoteBeadAdd : Row := ⟨0, 0x71, .remoteBeadAdd cid, [(2, 7), (8, 1)], []⟩
def beadOpAdd : Row := ⟨0, 0x90, .beadOpAdd cid, [(2, 5), (8, 41)], []⟩
def pegSet : Row := ⟨0, 0x91, .pegSet cid, [], []⟩
theorem witness_EveryRowCompletes_signals : ∀ r, r ∈ [collectiveAllReduce, remoteBeadAdd, beadOpAdd, pegSet] → r.may := rows_may (by decide +kernel)
def mediaBatch : Row := ⟨0, 0x80, .mediaBatch cid, [(0, 2), (2, 1), (3, 1), (4, 1), (12, 1), (16, 1), (20, 1), (33, 68), (49, 144), (57, 67)], levelTab⟩
theorem witness_EveryRowCompletes_media : ∀ r, r ∈ [mediaBatch] → r.may := rows_may (by decide +kernel)
/-- The rows that a field of the descriptor tells apart are these rows, and the front ends are awake. -/
theorem witness_EveryRowCompletes_fields :
    kvAlloc.state.isRow cid 0 0 8 [1, 2, 3, 4, 5, 6] 1 = true ∧
    loanStepStep.state.isRow cid 1 0 2 [0, 1, 2] 0 = true ∧
    stepCommit.state.isRow cid 1 0 2 [0, 1, 2, 3] 0 = true ∧
    collectiveAllReduce.state.isRow cid 1 0 4 [0, 1, 2, 3, 4, 5, 8, 9] 0 = true ∧
    remoteBeadAdd.state.isRow cid 0 0 2 [0, 1, 2] 0 = true ∧
    beadOpAdd.state.isRow cid 0 0 2 [0, 1, 2] 0 = true ∧
    pegSet.state.isRow cid 0 0 2 [0, 1, 2, 3] 0 = true ∧
    mediaBatch.state.isRow cid 1 2 1 [0, 1] 0 = true ∧
    mediaBatch.state.kfeAsleep 64 mediaBatch.cmd = [] := by
  delta State.kfeAsleep State.isRow State.peekDesc State.dispAcc State.fetchDie
  and_intros <;> generalize Config.fetchDie _ _ _ = d <;> revert d <;> decide +kernel
def ac : State := sets up [(F.ctxState_STATE,3,1),(F.ctxState_STATE,4,5),(F.mgtCores_UP,0,15)]
def waitCmd (op : Nat) : Cmd := { nop 3 with record := recd op 4, phase := .waiting, armed := true, desc := [2,0,5], since := some 0, limit := 1000 }
def waitSt (op : Nat) : State := bm {paged with rings := [(64,{cmds := [waitCmd op, nop 4]})]}
theorem witness_EveryRowCompletes :
    (Dev.rom ≤ ac.dev ∧ ac.dev ≠ Dev.paused ∧ ac.ctxState 3 ≠ Ctx.disabling) ∧
    (Dev.rom ≤ ac.dev ∧ ac.dev ≠ Dev.paused ∧ ac.ctxState 4 = Ctx.disabling ∧ (ac.ctx 4).disabledAt + 20000000 ≤ ac.ivl) ∧
    (up.mayRestart = true ∧ (∀ (j : MboxJob), up.mbox = some j → j.writes = none)) ∧
    (ac.coreRuns 1 = true ∧ ac.rel.held = []) ∧
    (up.stackUp 2 = true) ∧
    ((waitSt 144).cmd cid = some (waitCmd 144) ∧ (waitCmd 144).limit ≤ (waitSt 144).waited (waitCmd 144) ∧ (waitSt 144).rd F.ctxRingCfg_LOG2 (CmdKey cid) ≤ 16 ∧ (waitSt 144).awaitsBead 1 (waitCmd 144) = true) ∧
    ((waitSt 145).cmd cid = some (waitCmd 145) ∧ (waitCmd 145).limit ≤ (waitSt 145).waited (waitCmd 145) ∧ (waitSt 145).rd F.ctxRingCfg_LOG2 (CmdKey cid) ≤ 16 ∧ (waitSt 145).awaitsPeg 1 (waitCmd 145) = true) ∧
    (netted.entryHeld 8 ∧ netted.quietQueues ∧ netted.netUp = true ∧ netted.connCmds 8 = [] ∧ (∀ (w : Nat), w < 16 → netted.rd F.netLoanWin_CONN w ≠ 8) ∧ (∀ (g : Grant), g ∈ netted.grants → g.conn ≠ 8) ∧ netted.roceOpen 8 = true) ∧
    (netted.entryHeld 7 ∧ netted.quietQueues ∧ netted.netUp = true ∧ netted.connCmds 7 = [] ∧ (∀ (w : Nat), w < 16 → netted.rd F.netLoanWin_CONN w ≠ 7) ∧ (∀ (g : Grant), g ∈ netted.grants → g.conn ≠ 7) ∧ netted.gctOpen 7 = true ∧ netted.lossDue (netted.conn 7) (netted.conn 7).heardAt = true) ∧
    (netted.entryHeld 7 ∧ netted.quietQueues ∧ netted.netUp = true ∧ netted.connCmds 7 = [] ∧ (∀ (w : Nat), w < 16 → netted.rd F.netLoanWin_CONN w ≠ 7) ∧ (∀ (g : Grant), g ∈ netted.grants → g.conn ≠ 7) ∧ netted.gctOpen 7 = true ∧ Option.map (fun x : BitVec 32 => x.toNat) none ≠ some (netted.conn 7).peerEpoch) ∧
    (Fn.reaches (Fn.vf 1) 1 = true ∧ up.unitGone Reg.ctxKvCounts 1 = false) ∧
    (up.unitGone Reg.memEccCount 3 = false) ∧
    (up.queReach Fn.pf0 7 = true ∧ up.unitGone Reg.queLost 7 = false) ∧
    (up.unitGone Reg.kfeCounts 1 = false) ∧
    (up.unitGone Reg.kfeLiveCount 1 = false) ∧
    (up.unitGone Reg.netPortStatus 0 = false) ∧
    (up.unitGone Reg.pwrDomStatus 2 = false) ∧
    (up.unitGone Reg.pwrTemp 0 = false) ∧
    (Dev.rom ≤ up.dev ∧ up.mbox = none ∧ up.dutyHeld 0 = false) :=
  ⟨by decide +kernel,
   by decide +kernel,
   by decide +kernel,
   by decide +kernel,
   by decide +kernel,
   by decide +kernel,
   by decide +kernel,
   ⟨(by unfold State.entryHeld; exact ⟨by decide +kernel, by decide +kernel, 4, 49664, by decide +kernel⟩), (by unfold State.quietQueues; decide +kernel), by decide +kernel⟩,
   ⟨(by unfold State.entryHeld; exact ⟨by decide +kernel, by decide +kernel, 4, 49600, by decide +kernel⟩), (by unfold State.quietQueues; decide +kernel), by decide +kernel⟩,
   ⟨(by unfold State.entryHeld; exact ⟨by decide +kernel, by decide +kernel, 4, 49600, by decide +kernel⟩), (by unfold State.quietQueues; decide +kernel), by decide +kernel⟩,
   by decide +kernel,
   by decide +kernel,
   by decide +kernel,
   by decide +kernel,
   by decide +kernel,
   by decide +kernel,
   by decide +kernel,
   by decide +kernel,
   by decide +kernel⟩

end Rows

end Sys2Proof.Tests
end

section
/-!
Number formats (R37 to R45, R61, R62): the narrower formats lie within X36, so a conversion into X36 keeps every value;
what an overflow, an infinity and a rounding to nothing come to in every unscaled format.
-/
namespace Sys2Proof.Machine

/-! ### The length of a number -/

theorem bitLen_of_ne_zero {m : Nat} (h : m ≠ 0) : bitLen m = Nat.log2 m + 1 := if_neg h

theorem bitLen_le {m k : Nat} (h : m < 2 ^ k) : bitLen m ≤ k := by
  by_cases h0 : m = 0
  · simp [bitLen, h0]
  · rw [bitLen_of_ne_zero h0]
    exact (Nat.log2_lt h0).mpr h

/-- A magnitude moved up to fill `p` places. -/
theorem shiftLeft_bitLen_bounds {m p : Nat} (h0 : m ≠ 0) (h : m < 2 ^ (p + 1)) :
    2 ^ p ≤ m <<< (p + 1 - bitLen m) ∧ m <<< (p + 1 - bitLen m) < 2 ^ (p + 1) := by
  have hl := bitLen_le h
  have lo : 2 ^ Nat.log2 m ≤ m := Nat.log2_self_le h0
  have hi : m < 2 ^ bitLen m := by rw [bitLen_of_ne_zero h0]; exact Nat.lt_log2_self
  rw [bitLen_of_ne_zero h0] at *
  rw [Nat.shiftLeft_eq]
  constructor
  · calc 2 ^ p = 2 ^ Nat.log2 m * 2 ^ (p + 1 - (Nat.log2 m + 1)) := by rw [← Nat.pow_add]; congr 1; omega
      _ ≤ _ := Nat.mul_le_mul_right _ lo
  · calc m * 2 ^ (p + 1 - (Nat.log2 m + 1)) < 2 ^ (Nat.log2 m + 1) * 2 ^ (p + 1 - (Nat.log2 m + 1)) :=
          Nat.mul_lt_mul_of_pos_right hi (Nat.two_pow_pos _)
      _ = 2 ^ (p + 1) := by rw [← Nat.pow_add]; congr 1; omega

/-! ### Order -/

/-- A magnitude moved up with its exponent moved down is the same value. -/
theorem cmp_shiftLeft_self (n : Bool) (m k : Nat) (e : Int) :
    (Num.fin n (m <<< k) (e - k)).cmp (.fin n m e) = some .eq := by
  by_cases h : m = 0
  · simp [Num.cmp, align, h]
  · simp [Num.cmp, align, h]

theorem cmp_zero_zero (n n' : Bool) (e e' : Int) : (Num.fin n 0 e).cmp (.fin n' 0 e') = some .eq := by
  simp [Num.cmp, align, sgn]

/-- A zero is not above the largest finite value. -/
theorem zero_cmp_maxNum (f : Fmt) (q : Int) : (Num.fin false 0 q).cmp f.maxNum ≠ some .gt := by
  simp only [Num.cmp, Fmt.maxNum, align, if_true, sgn, Bool.false_eq_true, if_false, ne_eq, Option.some.injEq,
    compare_gt_iff_gt]
  omega

/-- Nothing on the places of a format, with an exponent of the format, is above its largest finite value. -/
theorem cmp_maxNum_of_le {f : Fmt} {m : Nat} {q : Int} (hm : m < 2 ^ (f.mb + 1))
    (hq : q ≤ (f.topField : Int) - f.bias - f.mb) : (Num.fin false m q).cmp f.maxNum ≠ some .gt := by
  by_cases h0 : m = 0
  · exact h0 ▸ zero_cmp_maxNum f q
  have hM : 2 ^ (f.mb + 1) - 1 ≠ 0 := by omega
  have hs : m ≤ (2 ^ (f.mb + 1) - 1) <<< ((f.topField : Int) - f.bias - f.mb - q).toNat :=
    calc m ≤ 2 ^ (f.mb + 1) - 1 := by omega
      _ ≤ _ := by rw [Nat.shiftLeft_eq]; exact Nat.le_mul_of_pos_right _ (Nat.two_pow_pos _)
  simp only [Num.cmp, Fmt.maxNum, align, if_neg h0, if_neg hM, if_pos hq, sgn, Bool.false_eq_true, if_false, ne_eq,
    Option.some.injEq, compare_gt_iff_gt]
  omega

/-! ### Rounding to an unscaled format (R61, R62) -/

section
variable {f : Fmt} {c : Cvt} {draw : Option Nat} {neg : Bool} {m m' : Nat} {e q : Int}

theorem round_fin_of_gt (hr : f.roundMag (if f = .x36 ∨ !c.stoch then none else draw) m e = (m', q))
    (hgt : (Num.fin false m' q).cmp f.maxNum = some .gt) :
    f.round c draw (.fin neg m e) =
      if c.sat then (.fin neg (2 ^ (f.mb + 1) - 1) ((f.topField : Int) - f.bias - f.mb), { saturated := true })
      else (.inf neg, { overflow := true }) := by
  simp only [Fmt.round, hr, if_pos hgt]
  rfl

theorem round_fin_of_le (hr : f.roundMag (if f = .x36 ∨ !c.stoch then none else draw) m e = (m', q))
    (hle : (Num.fin false m' q).cmp f.maxNum ≠ some .gt) (hn : m' = 0 ∨ 2 ^ f.mb ≤ m') :
    f.round c draw (.fin neg m e) = (.fin neg m' q, {}) := by
  simp only [Fmt.round, hr, if_neg hle]
  rw [if_neg]
  rintro ⟨-, h0, hlt⟩
  omega

/-- A magnitude that the places of the format hold is only moved up to fill them. -/
theorem roundMag_of_fits (hm : m < 2 ^ (f.mb + 1)) (he : f.emin ≤ e - (f.mb + 1 - bitLen m : Nat)) :
    f.roundMag draw m e = (m <<< (f.mb + 1 - bitLen m), e - (f.mb + 1 - bitLen m : Nat)) := by
  have hl := bitLen_le hm
  have hq : max ((bitLen m : Int) + e - (f.mb + 1)) f.emin = e - (f.mb + 1 - bitLen m : Nat) := by omega
  have hk : (e - (e - (f.mb + 1 - bitLen m : Nat))).toNat = f.mb + 1 - bitLen m := by omega
  simp only [Fmt.roundMag, hq, hk]
  rw [if_pos (by omega)]

end

/-! ### The values of the narrower formats within X36 (R41) -/

/-- A value that X36 holds with all of its 25 places, whatever the length of its magnitude. -/
def Num.fitsX36 : Num → Prop
  | .fin _ m e => m < 2 ^ 25 ∧ -1021 ≤ e ∧ e ≤ 999
  | _ => True

/-- The same value with its magnitude moved up to fill the 25 places of X36. -/
def Num.widened : Num → Num
  | .fin n m e => .fin n (m <<< (25 - bitLen m)) (e - (25 - bitLen m : Nat))
  | x => x

/-- The mantissa and the exponents of every narrower format lie within those of X36 (R37). -/
theorem narrow_format_bounds {f : Fmt} (hf : f ≠ .x36) :
    f.mb ≤ 23 ∧ -149 ≤ f.emin ∧ f.emin + (2 ^ f.eb : Nat) ≤ 999 := by
  revert hf
  cases f <;> decide

theorem decode_fitsX36 {f : Fmt} (hf : f ≠ .x36) (code : Nat) : (f.decode code).fitsX36 := by
  obtain ⟨hmb, hmin, htop⟩ := narrow_format_bounds hf
  have hpow : 2 ^ f.mb ≤ 2 ^ 23 := Nat.pow_le_pow_right (by decide) hmb
  have hex := bitsOf_lt code f.mb f.eb
  have hm := bitsOf_lt code 0 f.mb
  simp only [Fmt.decode]
  split
  · split <;> trivial
  · split
    · exact ⟨by omega, by omega, by omega⟩
    · exact ⟨by omega, by omega, by omega⟩

theorem cmp_widened {x : Num} (hx : x ≠ .nan) : x.widened.cmp x = some .eq := by
  cases x with
  | nan => exact absurd rfl hx
  | inf n => simp [Num.widened, Num.cmp]
  | fin n m e => exact cmp_shiftLeft_self n m _ e

theorem widened_bounds {m : Nat} (hm : m < 2 ^ 25) :
    m <<< (25 - bitLen m) < 2 ^ 25 ∧ (m <<< (25 - bitLen m) = 0 ∨ 2 ^ 24 ≤ m <<< (25 - bitLen m)) := by
  by_cases h0 : m = 0
  · simp [h0]
  · obtain ⟨lo, hi⟩ := shiftLeft_bitLen_bounds (p := 24) h0 hm
    exact ⟨hi, .inr lo⟩

/-- A conversion into X36 keeps a value that fits, under every control and draw. -/
theorem round_x36_of_fits {x : Num} (hx : x.fitsX36) (c : Cvt) (draw : Option Nat) :
    Fmt.x36.round c draw x = (x.widened, {}) := by
  cases x with
  | nan => rfl
  | inf n => rfl
  | fin n m e =>
    obtain ⟨hm, hlo, hhi⟩ := hx
    obtain ⟨hlt, hn⟩ := widened_bounds hm
    have hmin : Fmt.x36.emin = -1046 := rfl
    have htop : (Fmt.x36.topField : Int) - Fmt.x36.bias - Fmt.x36.mb = 999 := rfl
    exact round_fin_of_le (roundMag_of_fits hm (by rw [hmin]; show _ ≤ e - (25 - bitLen m : Nat); omega))
      (cmp_maxNum_of_le hlt (by rw [htop]; show e - (25 - bitLen m : Nat) ≤ _; omega)) hn

/-! ### The X36 code of a value -/

theorem x36Of_nanCode : x36Of Fmt.x36.nanCode = .nan := by decide

theorem x36Of_infCode (n : Bool) : x36Of (Fmt.x36.infCode n) = .inf n := by cases n <;> decide

/-- Sign, exponent field and mantissa of an X36 code read back. -/
theorem x36Of_fields (n : Bool) {ex m : Nat} (h0 : 0 < ex) (hex : ex < 2047) (hm : m < 2 ^ 24) :
    x36Of (b2n n * 2 ^ 35 + ex * 2 ^ 24 + m) = .fin n (m + 2 ^ 24) (-1046 + ex - 1) := by
  have hn : b2n n ≤ 1 := by cases n <;> decide
  have hlt : (b2n n * 2 ^ 35 + ex * 2 ^ 24 + m) % 2 ^ 36 = b2n n * 2 ^ 35 + ex * 2 ^ 24 + m := by omega
  have hs : (b2n n * 2 ^ 35 + ex * 2 ^ 24 + m) / 2 ^ 35 % 2 = b2n n := by omega
  have hx : (b2n n * 2 ^ 35 + ex * 2 ^ 24 + m) / 2 ^ 24 % 2 ^ 11 = ex := by omega
  have hl : (b2n n * 2 ^ 35 + ex * 2 ^ 24 + m) % 2 ^ 24 = m := by omega
  have hb : bit (b2n n * 2 ^ 35 + ex * 2 ^ 24 + m) 35 = n := by
    rw [bit, Nat.testBit_eq_decide_div_mod_eq, hs]; cases n <;> rfl
  simp only [x36Of, hlt, Fmt.decode, Fmt.bits, Fmt.eb, Fmt.mb, bitsOf, Nat.shiftRight_eq_div_pow, hx, Nat.pow_zero,
    Nat.div_one, hl]
  rw [if_neg (by simp; omega), if_neg (by omega)]
  exact congrArg (Num.fin · _ _) hb

theorem x36Of_pack_zero (n : Bool) (q : Int) : x36Of (Fmt.x36.pack n 0 q) = .fin n 0 (-1046) := by
  have hp : Fmt.x36.pack n 0 q = b2n n * 2 ^ 35 := by simp [Fmt.pack, Fmt.bits, Fmt.eb, Fmt.mb]
  rw [hp]
  cases n <;> decide

theorem pack_normal {f : Fmt} (n : Bool) {m : Nat} (q : Int) (hm : 2 ^ f.mb ≤ m) (hm' : m < 2 ^ (f.mb + 1)) :
    f.pack n m q = b2n n * 2 ^ (f.bits - 1) + (q - f.emin + 1).toNat * 2 ^ f.mb + (m - 2 ^ f.mb) := by
  have h0 : m ≠ 0 := by have := Nat.two_pow_pos f.mb; omega
  simp only [Fmt.pack, if_neg h0, if_neg (Nat.not_lt.mpr hm), if_pos hm']

theorem x36Of_pack_normal (n : Bool) {m : Nat} {q : Int} (hm : 2 ^ 24 ≤ m) (hm' : m < 2 ^ 25) (hq : -1046 ≤ q)
    (hq' : q ≤ 999) : x36Of (Fmt.x36.pack n m q) = .fin n m q := by
  have hp : Fmt.x36.pack n m q = b2n n * 2 ^ 35 + (q - -1046 + 1).toNat * 2 ^ 24 + (m - 2 ^ 24) :=
    pack_normal n q hm hm'
  rw [hp, x36Of_fields n (by omega) (by omega) (by omega)]
  congr <;> omega

/-- A zero keeps its sign, on the exponent of the subnormals. -/
theorem x36Of_code_widened_zero (n : Bool) (e : Int) :
    x36Of (Fmt.x36.code (Num.fin n 0 e).widened) = .fin n 0 (-1046) := by
  rw [Num.widened, Fmt.code, Nat.zero_shiftLeft, x36Of_pack_zero]

theorem x36Of_code_widened_normal (n : Bool) {m : Nat} {e : Int} (hx : (Num.fin n m e).fitsX36) (h0 : m ≠ 0) :
    x36Of (Fmt.x36.code (Num.fin n m e).widened) = (Num.fin n m e).widened := by
  obtain ⟨hm, hlo, hhi⟩ := hx
  obtain ⟨hlt, hge⟩ := widened_bounds hm
  rw [Num.widened, Fmt.code]
  exact x36Of_pack_normal n (hge.resolve_left (by simp [h0])) hlt (by omega) (by omega)

/-- The code that is written for a value that fits holds the same value, with its sign. -/
theorem x36Of_code_widened {x : Num} (hx : x.fitsX36) (hnan : x ≠ .nan) :
    (x36Of (Fmt.x36.code x.widened)).cmp x = some .eq ∧ (x36Of (Fmt.x36.code x.widened)).isNeg = x.isNeg := by
  cases x with
  | nan => exact absurd rfl hnan
  | inf n =>
    rw [show Fmt.x36.code (Num.inf n).widened = Fmt.x36.infCode n from rfl, x36Of_infCode]
    exact ⟨by simp [Num.cmp], rfl⟩
  | fin n m e =>
    by_cases h0 : m = 0
    · rw [h0, x36Of_code_widened_zero]
      exact ⟨cmp_zero_zero n n _ e, rfl⟩
    · rw [x36Of_code_widened_normal n hx h0]
      exact ⟨cmp_widened hnan, rfl⟩

/-! ### The obligation -/

/-- Settles O6: the narrower formats fit in X36, and each case of R62 is a branch of the rounding. -/
theorem conversions : Obligations.Conversions := by
  unfold Obligations.Conversions
  refine ⟨fun f c draw code hf _ => ?_, fun f c draw neg m e => ?_⟩
  · have hfit := decode_fitsX36 hf code
    have hcode : x36Code (f.decode code) = Fmt.x36.code (f.decode code).widened := by
      rw [x36Code, x36, round_x36_of_fits hfit]
    rw [hcode, round_x36_of_fits hfit]
    refine ⟨rfl, fun hnan => ?_, fun hnan => ⟨cmp_widened hnan, x36Of_code_widened hfit hnan⟩⟩
    rw [hnan]
    exact ⟨rfl, x36Of_nanCode⟩
  · refine ⟨fun hsat hgt => ?_, fun hsat hgt => ⟨_, _, rfl, ?_⟩, rfl, fun hzero => ?_⟩
    · rw [round_fin_of_gt rfl hgt, hsat]; rfl
    · rw [round_fin_of_gt rfl hgt, hsat]; rfl
    · rw [round_fin_of_le rfl (hzero ▸ zero_cmp_maxNum f _) (.inl hzero)]
      exact ⟨rfl, _, congrArg (Num.fin neg · _) hzero⟩

end Sys2Proof.Machine
end

section
/-!
The issue of ring commands (R104 to R109, R256, R581): what the event of an issue comes to, case by case, and that every
row of a ring is this event for its own opcode.
-/
namespace Sys2Proof.Machine

/-! ### The event of an issue -/

section
variable {s : State} {id : CmdId} {op : Nat} {x : Cmd} {e : Engine} {a : Acc}

theorem State.issue_of_no_cmd (h : s.cmd id = none) : s.issue id op engineOf = s := by
  simp only [State.issue, h]

theorem State.issue_of_not_issuable (h : s.cmd id = some x) (hn : x.opcode ≠ op ∨ s.issuable (CmdKey id) x = false) :
    s.issue id op engineOf = s := by
  simp only [State.issue, h]
  cases engineOf op with
  | none => rfl
  | some e => exact if_pos (by simpa using hn)

/-- A command that may issue, with the tiles of its ring awake, goes to the dispatcher. -/
theorem State.issue_eq_dispatch (h : s.cmd id = some x) (hop : x.opcode = op) (he : engineOf op = some e)
    (hi : s.issuable (CmdKey id) x = true) (hw : e.tiled = true → s.asleep (CmdKey id) = []) :
    s.issue id op engineOf = s.dispatch (CmdKey id) x e engineOf := by
  simp only [State.issue, h, he]
  rw [if_neg (by simp [hop, hi]), if_neg (fun hc => hc.2 (hw hc.1))]

variable {k : Nat} {d : List Byte} {tabs : List (List Byte)}

theorem State.dispatch_of_failed_check {st : Nat} (hp : s.prepRun k x e = (.error st, a)) (hf : a.fault = none)
    (hl : a.lost = []) : s.dispatch k x e engineOf = a.s.rejectCmd k x.count st := by
  unfold State.prepRun at hp
  simp only [State.dispatch, hp, hf, hl]

/-- A command read whole that passes its checks: held, without its units, or handed over. -/
theorem State.dispatch_of_read (hp : s.prepRun k x e = (.ok (d, tabs), a)) (hf : a.fault = none) (hl : a.lost = []) :
    s.dispatch k x e engineOf =
      if !s.admits k (e.judged s k x d tabs) engineOf || !s.itsTurn k (e.judged s k x d tabs) engineOf then s
      else if e.gone s k (e.judged s k x d tabs) then a.s.rejectCmd k x.count St.unitAbsent
      else a.s.launch k e (e.judged s k x d tabs) := by
  unfold State.prepRun at hp
  simp only [State.dispatch, hp, hf, hl]

theorem State.issue_of_issues (h : s.issues id op x e d tabs a) :
    s.issue id op engineOf = a.s.launch (CmdKey id) e (e.judged s (CmdKey id) x d tabs) := by
  obtain ⟨hx, hop, he, hi, hw, hp, hf, hl, had, hturn, hgone⟩ := h
  rw [State.issue_eq_dispatch hx hop he hi hw, State.dispatch_of_read hp hf hl]
  simp [had, hturn, hgone]

end

/-! ### The rows of a ring -/

theorem State.mediaRow_of_awake {s : State} {id : CmdId} {v : Nat} (hr : s.isRow id 1 2 1 [0, 1] v = true)
    (hw : ((s.cmd id).map (s.kfeAsleep (CmdKey id))).getD [] = []) : s.mediaRow id v = s.issue id 0x0080 engineOf := by
  unfold State.mediaRow
  cases hx : s.cmd id with
  | none => exact (State.issue_of_no_cmd hx).symm
  | some x =>
    rw [hx] at hw
    by_cases hop : x.opcode = 0x0080
    · simp only [hop, hr]
      rw [if_neg (by simp), if_neg (fun hc => hc.2 hw)]
    · simp only [hr]
      rw [if_pos (by simp [hop]), State.issue_of_not_issuable hx (.inl hop)]

theorem State.mediaRow_of_not_issuable {s : State} {id : CmdId} (v : Nat)
    (h : ∀ x, s.cmd id = some x → x.opcode ≠ 0x0080 ∨ s.issuable (CmdKey id) x = false) : s.mediaRow id v = s := by
  unfold State.mediaRow
  cases hx : s.cmd id with
  | none => rfl
  | some x =>
    dsimp only
    split
    · rfl
    · rw [if_neg (fun hc => (h x hx).elim (by simp_all) (by simp [hc.1])), State.issue_of_not_issuable hx (h x hx)]

/-- Every row of a ring is the event of an issue under its opcode, where the command is of the row; the two media rows
wake their front ends first. -/
theorem exec_of_ringRow {s : State} {c : Instr} {id : CmdId} {op : Nat} {row : Bool}
    (h : ringRow s c = some (id, op, row)) :
    exec c s = .next (if row then s.issue id op engineOf else s) ∨
    op = 0x0080 ∧ ∃ v, exec c s = .next (s.mediaRow id v) ∧
      row = (s.isRow id 1 2 1 [0, 1] v && ((s.cmd id).map (s.kfeAsleep (CmdKey id))).getD [] == []) := by
  unfold ringRow at h
  split at h
  case h_56 => cases h
  all_goals
    simp only [Option.some.injEq, Prod.mk.injEq] at h
    obtain ⟨rfl, rfl, rfl⟩ := h
  case h_54 => exact .inr ⟨rfl, 0, rfl, rfl⟩
  case h_55 => exact .inr ⟨rfl, 1, rfl, rfl⟩
  all_goals exact .inl rfl

/-- A command of a row is issued under the row's opcode. -/
theorem exec_eq_issue {s : State} {c : Instr} {id : CmdId} {op : Nat} (h : ringRow s c = some (id, op, true)) :
    exec c s = .next (s.issue id op engineOf) := by
  obtain hc | ⟨rfl, v, hc, hr⟩ := exec_of_ringRow h
  · exact hc
  · simp only [Bool.true_eq, Bool.and_eq_true, beq_iff_eq] at hr
    rw [hc, State.mediaRow_of_awake hr.1 hr.2]

/-- A row leaves a command that it may not issue, and one that is not there. -/
theorem exec_of_not_issuable {s : State} {c : Instr} {id : CmdId} {op : Nat} {row : Bool}
    (h : ringRow s c = some (id, op, row))
    (hn : ∀ x, s.cmd id = some x → x.opcode ≠ op ∨ s.issuable (CmdKey id) x = false) : exec c s = .next s := by
  have hissue : s.issue id op engineOf = s := by
    cases hx : s.cmd id with
    | none => exact State.issue_of_no_cmd hx
    | some x => exact State.issue_of_not_issuable hx (hn x hx)
  obtain hc | ⟨rfl, v, hc, -⟩ := exec_of_ringRow h
  · rw [hc, hissue, ite_self]
  · rw [hc, State.mediaRow_of_not_issuable v hn]

/-- Settles O58: a row is the event of its command's issue, and each clause is a branch of that event. -/
theorem commandsIssue : Obligations.CommandsIssue := by
  unfold Obligations.CommandsIssue
  intro c s id op row hrow
  refine ⟨?_, ?_, ?_, ?_, ?_⟩
  · rintro x e d tabs a rfl hi
    rw [exec_eq_issue hrow, State.issue_of_issues hi]
  · exact fun hx => exec_of_not_issuable hrow (fun x h => by rw [hx] at h; cases h)
  · refine fun x hx hn => exec_of_not_issuable hrow (fun y hy => ?_)
    rw [hx] at hy
    cases hy
    exact hn
  · rintro x e st a rfl hx hop he hi hw hp hf hl
    rw [exec_eq_issue hrow, State.issue_eq_dispatch hx hop he hi hw, State.dispatch_of_failed_check hp hf hl]
  · rintro x e d tabs a rfl hx hop he hi hw hp hf hl y
    rw [exec_eq_issue hrow, State.issue_eq_dispatch hx hop he hi hw, State.dispatch_of_read hp hf hl]
    refine ⟨fun hheld => ?_, fun had hturn hgone => ?_⟩
    · rw [if_pos (by simpa using hheld)]
    · rw [if_neg (by simp [y, had, hturn]), if_pos hgone]

end Sys2Proof.Machine
end

section
/-!
What stands of a command in its ring through the operations that arm and release the commands of rings, and what those
operations leave as it was (R370, R373, R389).
-/
namespace Sys2Proof.Machine

/-! ### Updates of the rings alone -/

/-- A state without what its rings hold. -/
def State.ringless (s : State) : State := { s with rings := [] }

@[simp] theorem State.ringless_updCmd (s : State) (k n : Nat) (f : Cmd → Cmd) :
    (s.updCmd k n f).ringless = s.ringless := rfl
@[simp] theorem State.ringless_release (s : State) : s.release.ringless = s.ringless := rfl

@[simp] theorem State.ringless_armRing (s : State) (k : Nat) : (s.armRing k).ringless = s.ringless := by
  unfold State.armRing
  dsimp only
  split <;> rfl

@[simp] theorem State.ringless_armAll (s : State) : s.armAll.ringless = s.ringless :=
  List.foldlRecOn (motive := fun t : State => t.ringless = s.ringless) _ _ rfl
    (fun t ht k _ => (t.ringless_armRing k).trans ht)

@[simp] theorem State.ringless_finishCmd (s : State) (k n st : Nat) : (s.finishCmd k n st).ringless = s.ringless := by
  simp [State.finishCmd]

section
variable {s t : State} (h : t.ringless = s.ringless)
include h

theorem State.regs_of_ringless : t.regs = s.regs :=
  show t.ringless.regs = s.ringless.regs from congrArg _ h
theorem State.mem_of_ringless : t.mem = s.mem :=
  show t.ringless.mem = s.ringless.mem from congrArg _ h
theorem State.brace_of_ringless : t.brace = s.brace :=
  show t.ringless.brace = s.ringless.brace from congrArg _ h

end

/-! ### A command in its ring -/

theorem State.cmd_eq_unitCmd (s : State) (id : CmdId) : s.cmd id = s.unitCmd (CmdKey id) id.count.toNat := rfl

section
variable {s : State} {k n : Nat} {y : Cmd}

theorem State.count_of_unitCmd (h : s.unitCmd k n = some y) : y.count = n := by
  simpa using List.find?_some h

/-- A command changed, its record count apart. -/
theorem State.unitCmd_updCmd {f : Cmd → Cmd} (h : s.unitCmd k n = some y) (hf : ∀ z, z.count = n → (f z).count = n) :
    (s.updCmd k n f).unitCmd k n = some (f y) := by
  have hp : ((fun z : Cmd => z.count == n) ∘ fun z => if z.count = n then f z else z) = fun z => z.count == n := by
    funext z
    by_cases hz : z.count = n
    · simp [hz, hf z hz]
    · simp [hz]
  have hc := State.count_of_unitCmd h
  unfold State.unitCmd at h ⊢
  simp only [State.updCmd, State.ring_setRing_same, List.find?_map, hp, h, Option.map_some, hc, if_true]

/-- Every command changed, its record count apart. -/
theorem State.unitCmd_mapCmds {f : Nat → Cmd → Cmd} (h : s.unitCmd k n = some y)
    (hf : ∀ j z, (f j z).count = z.count) : (s.mapCmds f).unitCmd k n = some (f k y) := by
  have hr : ((s.mapCmds f).ring k).cmds = (s.ring k).cmds.map (f k) := by
    unfold State.ring State.mapCmds lookD
    dsimp only
    induction s.rings with
    | nil => rfl
    | cons e t ih =>
      simp only [List.map_cons, look]
      split
      next he => simp [he]
      next => exact ih
  have hp : ((fun z : Cmd => z.count == n) ∘ f k) = fun z => z.count == n := by
    funext z
    simp [hf]
  unfold State.unitCmd at h ⊢
  rw [hr, List.find?_map, hp, h, Option.map_some]

theorem State.count_latch (s : State) (c : Nat) (x : Cmd) : (s.latch c x).count = x.count := by
  unfold State.latch
  split <;> rfl

theorem State.count_arm (s : State) (c : Nat) (x : Cmd) : (s.arm c x).count = x.count := s.count_latch c _

theorem find?_count_cons_of_ne {z : Cmd} (h : z.count ≠ n) (l : List Cmd) :
    (z :: l).find? (fun z => z.count == n) = l.find? (fun z => z.count == n) :=
  List.find?_cons_of_neg (by simpa using h)

/-- The arming of a ring leaves its commands in their places, and those that are no longer waiting to issue as they are. -/
theorem State.find?_armList (hy : y.phase ≠ .fetched) (l : List Cmd) (seen : List Nat)
    (h : l.find? (fun z => z.count == n) = some y) :
    (s.armList k l seen).find? (fun z => z.count == n) = some y := by
  induction l generalizing seen with
  | nil => cases h
  | cons x t ih =>
    by_cases hx : x.count = n
    · rw [List.find?_cons_of_pos (by simpa using hx), Option.some.injEq] at h
      subst h
      simp only [State.armList]
      rw [if_pos (.inl hy), List.find?_cons_of_pos (by simpa using hx)]
    · rw [find?_count_cons_of_ne hx] at h
      have ha : (if x.armed then x else s.arm (k / 64) x).count ≠ n := by
        split
        · exact hx
        · rwa [State.count_arm]
      simp only [State.armList]
      generalize (if x.armed then x else s.arm (k / 64) x) = z at ha ⊢
      split
      · exact (find?_count_cons_of_ne hx _).trans (ih seen h)
      · split
        · refine (find?_count_cons_of_ne ?_ _).trans (ih seen h)
          exact ha
        · exact (find?_count_cons_of_ne ha _).trans (ih _ h)

theorem State.unitCmd_armRing (h : s.unitCmd k n = some y) (hy : y.phase ≠ .fetched) (j : Nat) :
    (s.armRing j).unitCmd k n = some y := by
  unfold State.armRing
  dsimp only
  split
  · by_cases hj : k = j
    · subst hj
      unfold State.unitCmd at h ⊢
      rw [State.ring_setRing_same]
      exact State.find?_armList hy _ _ h
    · unfold State.unitCmd at h ⊢
      rwa [State.ring_setRing_other s _ hj]
  · exact h

theorem State.unitCmd_armAll (h : s.unitCmd k n = some y) (hy : y.phase ≠ .fetched) : s.armAll.unitCmd k n = some y :=
  List.foldlRecOn (motive := fun t : State => t.unitCmd k n = some y) _ _ h
    (fun _ ht j _ => State.unitCmd_armRing ht hy j)

/-- The waits that are met end commands that wait, and no other (R373). -/
theorem State.unitCmd_release (h : s.unitCmd k n = some y) (hy : y.phase = .stalled) :
    s.release.unitCmd k n = some y := by
  refine (State.unitCmd_mapCmds h fun j z => ?_).trans (congrArg some ?_)
  · split
    · rfl
    · split
      · split
        · rfl
        · split <;> rfl
      · exact s.count_latch _ z
  · simp [State.latch, hy]

/-- The change of a peg is seen by armed waiters alone (R389). -/
theorem State.unitCmd_pegChange (h : s.unitCmd k n = some y) (hy : y.phase = .stalled) (c p : Nat) (v : Bool) :
    (s.pegChange c p v).unitCmd k n = some y := by
  refine State.unitCmd_release ((State.unitCmd_mapCmds (s := s.setPeg c p v) h fun j z => ?_).trans (congrArg some ?_)) hy
  · dsimp only
    split
    · split
      · rfl
      · split <;> rfl
      · rfl
    · rfl
  · simp [hy]

end

/-! ### The end of a command -/

/-- Command `x` stands in its ring as ended OK, with its record and its time of start. -/
def State.endedOk (t : State) (k : Nat) (x : Cmd) : Prop :=
  ∃ y, t.unitCmd k x.count = some y ∧ y.phase = .ended ∧ y.status = St.ok ∧ y.record = x.record ∧ y.start = x.start

theorem State.endedOk_armRing {t : State} {k : Nat} {x : Cmd} (h : t.endedOk k x) (j : Nat) : (t.armRing j).endedOk k x := by
  obtain ⟨y, hy, hp, hrest⟩ := h
  exact ⟨y, State.unitCmd_armRing hy (by simp [hp]) j, hp, hrest⟩

theorem State.endedOk_armAll {t : State} {k : Nat} {x : Cmd} (h : t.endedOk k x) : t.armAll.endedOk k x := by
  obtain ⟨y, hy, hp, hrest⟩ := h
  exact ⟨y, State.unitCmd_armAll hy (by simp [hp]), hp, hrest⟩

theorem State.endedOk_finishCmd {s : State} {k : Nat} {x z : Cmd} (h : s.unitCmd k x.count = some z)
    (hr : z.record = x.record) (hs : z.start = x.start) : (s.finishCmd k x.count St.ok).endedOk k x :=
  State.endedOk_armRing ⟨z.endWith St.ok s.time,
    State.unitCmd_updCmd (f := fun y => y.endWith St.ok s.time) h fun _ hz => hz, rfl, rfl, hr, hs⟩ k

theorem State.endedOk_of_rings {s t : State} (hr : t.rings = s.rings) {k : Nat} {x : Cmd} (h : s.endedOk k x) :
    t.endedOk k x := by
  unfold State.endedOk State.unitCmd State.ring at *
  rwa [hr]

/-- The unit that finished last is chosen by a free value at most. -/
theorem State.lastUnit_eq (s : State) (x : Cmd) : ∃ u m, s.lastUnit x = (u, { s with nfree := m }) := by
  unfold State.lastUnit
  split
  · exact ⟨_, s.nfree, rfl⟩
  · exact ⟨_, s.nfree, rfl⟩
  · exact ⟨_, _, rfl⟩

/-- The end of a command that has lost nothing and drawn nothing: its unit is named and it is finished. -/
theorem State.endCmd_of_untouched (s : State) (k : Nat) {x : Cmd} (hx : x.untouched) :
    ∃ u m, s.endCmd k x St.ok =
      (({ s with nfree := m }).updCmd k x.count (fun y => { y with unit := u, lossTold := true })).finishCmd k x.count St.ok := by
  obtain ⟨hfatal, hlost, hdata, -, hseeds⟩ := hx
  obtain ⟨u, m, hu⟩ := s.lastUnit_eq x
  refine ⟨u, m, ?_⟩
  simp only [State.endCmd, State.lossNotice, State.advanceSeeds, Cmd.outcome, hlost, hseeds, hfatal, hdata, hu,
    List.foldl_nil, ne_eq, not_true, Bool.false_eq_true, or_self, if_false]

theorem State.endedOk_endCmd {s : State} {k : Nat} {x z : Cmd} (hx : x.untouched) (h : s.unitCmd k x.count = some z)
    (hr : z.record = x.record) (hs : z.start = x.start) : (s.endCmd k x St.ok).endedOk k x := by
  obtain ⟨u, m, he⟩ := s.endCmd_of_untouched k hx
  rw [he]
  exact State.endedOk_finishCmd (State.unitCmd_updCmd (s := { s with nfree := m }) h fun _ hz => hz) hr hs

theorem State.endCmd_frame (s : State) (k : Nat) {x : Cmd} (hx : x.untouched) :
    (s.endCmd k x St.ok).regs = s.regs ∧ (s.endCmd k x St.ok).mem = s.mem ∧ (s.endCmd k x St.ok).brace = s.brace := by
  obtain ⟨u, m, he⟩ := s.endCmd_of_untouched k hx
  have h : (s.endCmd k x St.ok).ringless = ({ s with nfree := m } : State).ringless := by simp [he]
  exact ⟨(State.regs_of_ringless h :), (State.mem_of_ringless h :), (State.brace_of_ringless h :)⟩

end Sys2Proof.Machine
end

section
/-!
The hand-over of the dispatcher's own commands (R104, R581): reading a descriptor leaves the rings as they are, and a command
that runs on no tiles is handed over without anything yielding to it.
-/
namespace Sys2Proof.Machine

/-! ### Reading leaves the rings -/

theorem State.rings_checkGran (s : State) (pa : Nat) : (s.checkGran pa).2.rings = s.rings :=
  ((Told.touch s _ s).trans (Told.judgeGran _ pa _ (s.place_stack_lt (pa / 64 * 64)))).same State.rings fun _ => rfl

theorem State.rings_walkAt (va f tab : Nat) (s : State) : (State.walkAt va f tab s).2.2.rings = s.rings := by
  induction f generalizing tab s with
  | zero => rfl
  | succ f ih =>
    simp only [State.walkAt]
    split
    · have hg := s.rings_checkGran (tab + 8 * bitsOf va (16 + 9 * f) 9)
      split
      next h => rw [h] at hg; exact hg
      next h =>
        rw [h] at hg
        split
        · split <;> exact hg
        · split
          · exact hg
          · split
            · exact hg
            · exact (ih _ _).trans hg
    · rfl

theorem State.rings_victim (s : State) (n size : Nat) : (s.victim n size).2.rings = s.rings := by
  unfold State.victim
  split <;> rfl

theorem State.rings_addTop (s : State) (die c va : Nat) (t : Nat × Nat) : (s.addTop die c va t).rings = s.rings := by
  unfold State.addTop
  dsimp only
  split
  · rfl
  · exact s.rings_victim _ _

theorem State.rings_addLeaf (s : State) (who c va pte entry : Nat) : (s.addLeaf who c va pte entry).rings = s.rings :=
  s.rings_victim _ _

theorem State.rings_walk (s : State) (w : Walker) (va : Nat) : (s.walk w va).2.rings = s.rings := by
  have hw := fun f tab => State.rings_walkAt va f tab s
  have htops : ∀ (die : Nat) (ts : List (Nat × Nat)) (u : State),
      (ts.foldl (fun s t => s.addTop die w.ctx va t) u).rings = u.rings := fun die ts u =>
    List.foldlRecOn (motive := fun t : State => t.rings = u.rings) _ _ rfl fun t ht e _ => (t.rings_addTop die _ va e).trans ht
  unfold State.walk
  dsimp only
  split
  · exact hw _ _
  · exact hw _ _
  · exact ((State.rings_addLeaf _ _ _ _ _ _).trans (htops _ _ _)).trans (hw _ _)
  · exact (htops _ _ _).trans (hw _ _)

theorem State.rings_xlat (s : State) (w : Walker) (va : Nat) (kind : AccKind) : (s.xlat w va kind).2.rings = s.rings := by
  unfold State.xlat
  dsimp only
  split
  · rfl
  · split
    · rfl
    · split
      · rfl
      · have hw := s.rings_walk w va
        split
        all_goals
          next h => rw [h] at hw; exact hw

theorem Acc.rings_addLost (a : Acc) (g : Nat) : (a.addLost g).s.rings = a.s.rings := by
  unfold Acc.addLost
  split <;> rfl

theorem Acc.rings_addFault (a : Acc) (f : Flt) : (a.addFault f).s.rings = a.s.rings := by
  unfold Acc.addFault
  split <;> rfl

theorem Acc.rings_readIn (a : Acc) (va n : Nat) : (a.readIn va n).2.s.rings = a.s.rings := by
  have hx : (a.xlat va .read).2.s.rings = a.s.rings := a.s.rings_xlat _ va .read
  unfold Acc.readIn
  dsimp only
  split
  next h => rw [h] at hx; exact (Acc.rings_addLost _ _).trans hx
  next h => rw [h] at hx; exact (Acc.rings_addFault _ _).trans hx
  next pa _ b h =>
    rw [h] at hx
    have hg := (b.s.rings_checkGran pa).trans hx
    split
    · split
      · exact (Acc.rings_addLost _ _).trans hx
      · split
        · exact hx
        · exact (Acc.rings_addFault _ _).trans hx
    · split
      · exact (Acc.rings_addLost _ _).trans hg
      · exact hg

theorem Acc.rings_read (f : Nat) (a : Acc) (va n : Nat) : (Acc.read f a va n).2.s.rings = a.s.rings := by
  induction f generalizing a va n with
  | zero => rfl
  | succ f ih =>
    cases n with
    | zero => rfl
    | succ n => exact (ih _ _ _).trans (a.rings_readIn va _)

/-- Work that leaves the rings of its state as they are. -/
def KeepsRings {α : Type} (m : U α) : Prop := ∀ a, (m.run a).2.s.rings = a.s.rings

section
variable {α β : Type}

theorem KeepsRings.pure (v : α) : KeepsRings (pure v : U α) := fun _ => rfl

theorem KeepsRings.bind {m : U α} {f : α → U β} (hm : KeepsRings m) (hf : ∀ v, KeepsRings (f v)) : KeepsRings (m >>= f) :=
  fun a => (hf (m.run a).1 (m.run a).2).trans (hm a)

theorem KeepsRings.mapM {f : α → U β} (hf : ∀ v, KeepsRings (f v)) (l : List α) : KeepsRings (l.mapM f) := by
  induction l with
  | nil => rw [List.mapM_nil]; exact .pure _
  | cons v l ih => rw [List.mapM_cons]; exact .bind (hf v) fun _ => .bind ih fun _ => .pure _

end

theorem keepsRings_uRead (va n : Nat) : KeepsRings (uRead va n) := fun a => a.rings_read _ va n

theorem keepsRings_readDesc (x : Cmd) (bytes align : Nat) : KeepsRings (readDesc x bytes align) := by
  unfold readDesc
  split
  · exact .pure _
  · exact .bind (keepsRings_uRead _ _) fun _ => .pure _

theorem keepsRings_uGroups (c first n : Nat) : KeepsRings (uGroups c first n) := by
  refine .bind (fun _ => rfl) fun s => ?_
  split
  · exact .pure _
  · exact .bind (keepsRings_uRead _ _) fun _ => .pure _

/-- A descriptor read and then checked. -/
theorem keepsRings_readDesc_then {x : Cmd} {bytes align : Nat} {f : List Byte → Prep} :
    KeepsRings (do
      match ← readDesc x bytes align with
      | .error e => return .error e
      | .ok d => return f d) := by
  refine .bind (keepsRings_readDesc x bytes align) fun r => ?_
  cases r <;> exact .pure _

theorem keepsRings_uBraceEntry (s : State) (c : Nat) (e : List Byte) : KeepsRings (uBraceEntry s c e) := by
  unfold uBraceEntry
  dsimp only
  split
  · exact .pure _
  · refine .bind (keepsRings_uGroups _ _ _) fun t => ?_
    cases t <;> exact .pure _

theorem keepsRings_bracePrep (s : State) (k : Nat) (x : Cmd) : KeepsRings (bracePrep s k x) := by
  refine .bind (keepsRings_readDesc x 64 64) fun r => ?_
  cases r with
  | error e => exact .pure _
  | ok h =>
    dsimp only
    split
    · exact .pure _
    · refine .bind (keepsRings_uRead _ _) fun b => ?_
      split
      · exact .pure _
      · exact .bind (.mapM (keepsRings_uBraceEntry s _) _) fun _ => .pure _

/-! ### The hand-over of a command that runs on no tiles -/

/-- A command as its engine receives it: it is issued, and START is the device time (R104). -/
def State.handOver (s : State) (k : Nat) (e : Engine) (y : Cmd) : Cmd :=
  { y with phase := .stalled, start := s.time, issuedAt := s.ivl, armed := false, since := none,
           limit := s.waitLimit (k / 64) y, ver := s.rd F.ctxVersion_CURRENT (k / 64), granted := s.rowGrants k y,
           unit := Unit.die (s.fetchDie k), seeds := if e.tiled then s.seedsOf k else [],
           seedGens := if e.tiled then s.seedGensOf k else [] }

/-- The self-tests of the tiles of a command are abandoned (R521). -/
def State.abandonTests (s : State) (y : Cmd) : State :=
  if s.rel.testing == [] then s
  else { s with rel := { s.rel with testing := s.rel.testing.filter (fun t => !y.tiles.contains t) } }

theorem State.launch_eq (s : State) (k : Nat) (e : Engine) (y : Cmd) :
    s.launch k e y = (e.start (((((s.abandonTests (s.handOver k e y)).yieldTo k (s.handOver k e y)).serve k
      (s.handOver k e y))).updCmd k y.count fun _ => s.handOver k e y) k (s.handOver k e y)).armRing k := rfl

section
variable (s : State) (k : Nat) {y : Cmd} (h : y.tiles = [])
include h

theorem State.abandonTests_of_no_tiles : s.abandonTests y = s := by simp [State.abandonTests, h]
theorem State.yieldTo_of_no_tiles : s.yieldTo k y = s := by simp [State.yieldTo, h]
theorem State.serve_of_no_tiles : s.serve k y = s := if_pos h

end

theorem State.launch_of_no_tiles (s : State) (k : Nat) (e : Engine) {y : Cmd} (h : y.tiles = []) :
    s.launch k e y = (e.start (s.updCmd k y.count fun _ => s.handOver k e y) k (s.handOver k e y)).armRing k := by
  have hz : (s.handOver k e y).tiles = [] := h
  rw [State.launch_eq, s.abandonTests_of_no_tiles hz, s.yieldTo_of_no_tiles k hz, s.serve_of_no_tiles k hz]

theorem CmdKey_lt (id : CmdId) : CmdKey id < 1024 := by
  have hc := id.ctx.isLt
  have hr := id.ring.isLt
  unfold CmdKey ringKey
  omega

theorem CmdKey_div (id : CmdId) : CmdKey id / 64 = id.ctx.val := by
  have hr := id.ring.isLt
  unfold CmdKey ringKey
  omega

/-- Command `id` stands ended OK, with the record of `x` and the given START. -/
def State.showsEnded (t : State) (id : CmdId) (x : Cmd) (start : Nat) : Prop :=
  ∃ y, t.cmd id = some y ∧ y.phase = .ended ∧ y.status = St.ok ∧ y.record = x.record ∧ y.start = start

/-- The command that an issue hands over. -/
def handed (s : State) (id : CmdId) (x : Cmd) (e : Engine) (d : List Byte) (tabs : List (List Byte)) (a : Acc) : Cmd :=
  a.s.handOver (CmdKey id) e (e.judged s (CmdKey id) x d tabs)

/-- The state in which its engine finds it. -/
def atEngine (s : State) (id : CmdId) (x : Cmd) (e : Engine) (d : List Byte) (tabs : List (List Byte)) (a : Acc) : State :=
  a.s.updCmd (CmdKey id) x.count fun _ => handed s id x e d tabs a

section
variable {s : State} {id : CmdId} {op : Nat} {x : Cmd} {e : Engine} {d : List Byte} {tabs : List (List Byte)} {a : Acc}

theorem handed_untouched (ht : e.tiled = false) (hx : x.untouched) : (handed s id x e d tabs a).untouched := by
  obtain ⟨hfatal, hlost, hdata, hstalls, -⟩ := hx
  exact ⟨hfatal, hlost, hdata, hstalls, by simp [handed, State.handOver, ht]⟩

theorem State.engineOf_issues (h : s.issues id op x e d tabs a) : engineOf op = some e := by
  obtain ⟨-, -, he, -⟩ := h
  exact he

theorem State.prep_of_issues (h : s.issues id op x e d tabs a) :
    (e.prep s (CmdKey id) x).run (s.dispAcc (CmdKey id) x) = (.ok (d, tabs), a) := by
  obtain ⟨-, -, -, -, -, hp, -⟩ := h
  exact hp

theorem State.count_of_issues (h : s.issues id op x e d tabs a) : x.count = id.count.toNat :=
  State.count_of_unitCmd h.1

theorem ringless_atEngine : (atEngine s id x e d tabs a).ringless = a.s.ringless := rfl

/-- The engine finds the command in its ring. -/
theorem unitCmd_atEngine (h : s.issues id op x e d tabs a) (hk : KeepsRings (e.prep s (CmdKey id) x)) :
    (atEngine s id x e d tabs a).unitCmd (CmdKey id) (handed s id x e d tabs a).count = some (handed s id x e d tabs a) := by
  have hr : a.s.rings = s.rings := by
    have hm := hk (s.dispAcc (CmdKey id) x)
    rwa [State.prep_of_issues h] at hm
  have hcmd : a.s.unitCmd (CmdKey id) x.count = some x := by
    unfold State.unitCmd State.ring
    rw [hr, State.count_of_issues h]
    exact h.1
  exact State.unitCmd_updCmd hcmd fun _ _ => rfl

/-- A row of the dispatcher leads to what its engine's start leaves. -/
theorem leads_of_issues {c : Instr} {P : State → Prop} (hrow : ringRow s c = some (id, op, true))
    (h : s.issues id op x e d tabs a) (ht : e.tiled = false)
    (hP : P ((e.start (atEngine s id x e d tabs a) (CmdKey id) (handed s id x e d tabs a)).armRing (CmdKey id))) :
    leads c s P := by
  refine ⟨_, ?_, hP⟩
  have hy : (e.judged s (CmdKey id) x d tabs).tiles = [] := by simp [Engine.judged, ht]
  rw [exec_eq_issue hrow, State.issue_of_issues h, State.launch_of_no_tiles _ _ _ hy]
  rfl

/-- What the start of an engine has ended stands in its ring as ended. -/
theorem showsEnded_of_endedOk (h : s.issues id op x e d tabs a) {t : State}
    (ht : t.endedOk (CmdKey id) (handed s id x e d tabs a)) : (t.armRing (CmdKey id)).showsEnded id x a.s.time := by
  obtain ⟨y, hy, hrest⟩ := State.endedOk_armRing ht (CmdKey id)
  exact ⟨y, by rw [State.cmd_eq_unitCmd, ← State.count_of_issues h]; exact hy, hrest⟩

end

end Sys2Proof.Machine
end

section
/-!
What the dispatcher's own commands come to (R113, R373, R388, R537, R588): NOP, BEAD_OP ADD, PEG_OP SET and CLEAR, BRANCH
and BRACE_SET, each by what its engine's start changes and what it leaves.
-/
namespace Sys2Proof.Machine

/-! ### Registers that stand -/

section
variable {s t u : State}

theorem State.reg_of_regs (h : t.regs = s.regs) (r i : Nat) : t.reg r i = s.reg r i := by
  simp only [State.reg, h]

theorem keepsRegs.trans {l l' : List Nat} (h : keepsRegs s t l) (h' : keepsRegs t u l') : keepsRegs s u (l ++ l') :=
  fun r i hi hr => by
    rw [List.mem_append, not_or] at hr
    exact (h' r i hi hr.2).trans (h r i hi hr.1)

/-- A state whose registers are those of another but for one copy written. -/
theorem keepsRegs_of_setReg {r i : Nat} {w : Word} (hi : i < 1048576) (h : t.regs = (s.setReg r i w).regs) :
    keepsRegs s t [r] := fun r' j hj hr => by
  rw [State.reg_of_regs h, State.reg_setReg_other]
  rw [Ne, regKey_inj hj hi]
  exact fun he => hr (List.mem_singleton.mpr he.1)

theorem State.regs_armRing (s : State) (k : Nat) : (s.armRing k).regs = s.regs :=
  State.regs_of_ringless (s.ringless_armRing k)

theorem State.mem_armRing (s : State) (k : Nat) : (s.armRing k).mem = s.mem :=
  State.mem_of_ringless (s.ringless_armRing k)

theorem State.brace_armRing (s : State) (k : Nat) : (s.armRing k).brace = s.brace :=
  State.brace_of_ringless (s.ringless_armRing k)

end

/-! ### NOP -/

section
variable {s : State} {id : CmdId} {x : Cmd} {e : Engine} {d : List Byte} {tabs : List (List Byte)} {a : Acc}

/-- NOP reads no descriptor, so that its dispatch leaves the state (R588). -/
theorem state_of_issues_nop (hi : s.issues id 0x0001 x nopEngine d tabs a) : a.s = s :=
  (congrArg (fun r => r.2.s) (State.prep_of_issues hi)).symm

theorem nop_leads (hi : s.issues id 0x0001 x e d tabs a) (hx : x.untouched) :
    leads (.nop id) s (fun t =>
      t.showsEnded id x a.s.time ∧ t.regs = s.regs ∧ t.mem = s.mem ∧ t.brace = s.brace) := by
  obtain rfl : nopEngine = e := Option.some.inj (State.engineOf_issues hi)
  have hy := unitCmd_atEngine hi (.pure _)
  have hu : (handed s id x nopEngine d tabs a).untouched := handed_untouched rfl hx
  obtain ⟨hregs, hmem, hbrace⟩ := (atEngine s id x nopEngine d tabs a).endCmd_frame (CmdKey id) hu
  have ha := state_of_issues_nop hi
  refine leads_of_issues rfl hi rfl ⟨showsEnded_of_endedOk hi (State.endedOk_endCmd hu hy rfl rfl), ?_⟩
  refine ⟨(State.regs_armRing _ _).trans (hregs.trans ?_), (State.mem_armRing _ _).trans (hmem.trans ?_),
    (State.brace_armRing _ _).trans (hbrace.trans ?_)⟩
  · exact (congrArg State.regs ha :)
  · exact (congrArg State.mem ha :)
  · exact (congrArg State.brace ha :)

end

/-! ### BEAD_OP ADD -/

/-- The map entry of a vid does not depend on the rings. -/
theorem State.vid_ringless (s : State) (c v : Nat) : s.ringless.vid c v = s.vid c v := rfl

theorem State.vid_lt {s : State} {c v n : Nat} (h : (s.vid c v).1 = some n) : n < 65536 := by
  unfold State.vid at h
  dsimp only at h
  split at h
  · cases h
  · split at h
    · simp only [Option.some.injEq] at h
      omega
    · cases h

/-- An addition that the bead takes stays within 64 bits (R364). -/
theorem State.lt_of_addCheck_done {s : State} {n m : Nat} (h : s.addCheck n m = .done) : s.beadValue n + m < 2 ^ 64 := by
  unfold State.addCheck at h
  dsimp only at h
  split at h
  · cases h
  · split at h
    · cases h
    next hlt => exact Nat.lt_of_not_le hlt

theorem State.beadAdd_of_done {s : State} {n m : Nat} (h : s.addCheck n m = .done) :
    s.beadAdd n m =
      (.done, ((s.setReg Reg.beadValue n (BitVec.ofNat 64 (s.beadValue n + m))).answerWaits n).release) := by
  simp only [State.beadAdd, h]

theorem State.keepVid_frame (s : State) (c v : Nat) :
    (s.keepVid c v).regs = s.regs ∧ (s.keepVid c v).mem = s.mem ∧ (s.keepVid c v).rings = s.rings := by
  unfold State.keepVid
  split <;> exact ⟨rfl, rfl, rfl⟩

theorem State.sendGct_frame (s : State) (c : Nat) (m : GctMsg) :
    (s.sendGct c m).regs = s.regs ∧ (s.sendGct c m).mem = s.mem ∧ (s.sendGct c m).rings = s.rings := by
  unfold State.sendGct
  dsimp only
  split
  · exact ⟨rfl, rfl, rfl⟩
  · split <;> exact ⟨rfl, rfl, rfl⟩

theorem State.sendGcts_frame (s : State) (f : State → RWait → GctMsg) (l : List RWait) :
    (l.foldl (fun t w => t.sendGct w.conn (f t w)) s).regs = s.regs ∧
    (l.foldl (fun t w => t.sendGct w.conn (f t w)) s).mem = s.mem ∧
    (l.foldl (fun t w => t.sendGct w.conn (f t w)) s).rings = s.rings := by
  induction l generalizing s with
  | nil => exact ⟨rfl, rfl, rfl⟩
  | cons w l ih =>
    obtain ⟨hregs, hmem, hrings⟩ := s.sendGct_frame w.conn (f s w)
    obtain ⟨hregs', hmem', hrings'⟩ := ih (s.sendGct w.conn (f s w))
    exact ⟨hregs'.trans hregs, hmem'.trans hmem, hrings'.trans hrings⟩

/-- The answers to peers that wait on a bead leave registers, memory and rings. -/
theorem State.answerWaits_frame (s : State) (n : Nat) :
    (s.answerWaits n).regs = s.regs ∧ (s.answerWaits n).mem = s.mem ∧ (s.answerWaits n).rings = s.rings :=
  s.sendGcts_frame (fun t w => .beadReply w.req (if t.beadDead n then .broken else .met) (t.beadValue n)) _

theorem State.unitCmd_of_rings {s t : State} (h : t.rings = s.rings) (k n : Nat) : t.unitCmd k n = s.unitCmd k n := by
  simp only [State.unitCmd, State.ring, h]

theorem State.addCheck_keepVid (s : State) (c v n m : Nat) : (s.keepVid c v).addCheck n m = s.addCheck n m := by
  unfold State.keepVid
  split <;> rfl

/-- An addition that the bead takes: its value is written, the waits on it are answered and released, and the command ends
(R373). -/
theorem State.startBeadOp_add {s : State} {k n : Nat} {y : Cmd} (hv : (s.vid (k / 64) (fieldAt y.desc 2 0 16)).1 = some n)
    (hop : fieldAt y.desc 0 0 2 = 0) (hc : s.addCheck n (fieldAt y.desc 8 0 64) = .done) :
    s.startBeadOp k y = ((((s.keepVid (k / 64) (fieldAt y.desc 2 0 16)).setReg Reg.beadValue n
      (BitVec.ofNat 64 (s.beadValue n + fieldAt y.desc 8 0 64))).answerWaits n).release.finishCmd k y.count St.ok).armAll := by
  have hregs := (s.keepVid_frame (k / 64) (fieldAt y.desc 2 0 16)).1
  have hb := State.beadAdd_of_done ((s.addCheck_keepVid (k / 64) (fieldAt y.desc 2 0 16) _ _).trans hc)
  have hval : (s.keepVid (k / 64) (fieldAt y.desc 2 0 16)).beadValue n = s.beadValue n := by
    simp only [State.beadValue, State.reg_of_regs hregs]
  rw [hval] at hb
  unfold State.startBeadOp
  dsimp only
  split
  next h => rw [h] at hv; cases hv
  next m e h =>
    rw [h, Option.some.injEq] at hv
    subst hv
    simp only [hop, hb]

theorem State.startBeadOp_add_spec {s : State} {k n : Nat} {y : Cmd} (hy : s.unitCmd k y.count = some y)
    (hp : y.phase = .stalled) (hv : (s.vid (k / 64) (fieldAt y.desc 2 0 16)).1 = some n)
    (hop : fieldAt y.desc 0 0 2 = 0) (hc : s.addCheck n (fieldAt y.desc 8 0 64) = .done) :
    (s.startBeadOp k y).endedOk k y ∧ (s.startBeadOp k y).mem = s.mem ∧ (s.startBeadOp k y).regs =
      (s.setReg Reg.beadValue n (BitVec.ofNat 64 (s.beadValue n + fieldAt y.desc 8 0 64))).regs := by
  rw [State.startBeadOp_add hv hop hc]
  generalize BitVec.ofNat 64 (s.beadValue n + fieldAt y.desc 8 0 64) = w
  obtain ⟨hregs, hmem, hrings⟩ := s.keepVid_frame (k / 64) (fieldAt y.desc 2 0 16)
  generalize s.keepVid (k / 64) (fieldAt y.desc 2 0 16) = v at hregs hmem hrings
  obtain ⟨hregs', hmem', hrings'⟩ := (v.setReg Reg.beadValue n w).answerWaits_frame n
  generalize (v.setReg Reg.beadValue n w).answerWaits n = b at hregs' hmem' hrings'
  have hframe : ((b.release).finishCmd k y.count St.ok).armAll.ringless = b.ringless := by simp
  refine ⟨State.endedOk_armAll (State.endedOk_finishCmd (State.unitCmd_release ?_ hp) rfl rfl),
    (State.mem_of_ringless hframe).trans (hmem'.trans hmem), (State.regs_of_ringless hframe).trans (hregs'.trans ?_)⟩
  · rw [State.unitCmd_of_rings (hrings'.trans hrings)]
    exact hy
  · simp only [State.setReg, hregs]

/-- The value of a bead that has been written, and those of the others. -/
theorem State.beadValue_of_setReg {s t : State} {n v : Nat} (hn : n < 65536) (hv : v < 2 ^ 64)
    (h : t.regs = (s.setReg Reg.beadValue n (BitVec.ofNat 64 v)).regs) :
    t.beadValue n = v ∧ ∀ m, m < 65536 → m ≠ n → t.beadValue m = s.beadValue m := by
  refine ⟨?_, fun m hm hne => congrArg BitVec.toNat ?_⟩
  · rw [State.beadValue, State.reg_of_regs h, State.reg_setReg_same, BitVec.toNat_ofNat, Nat.mod_eq_of_lt hv]
  · rw [State.reg_of_regs h, State.reg_setReg_other]
    rw [Ne, regKey_inj (by omega) (by omega)]
    exact fun he => hne he.2

section
variable {s : State} {id : CmdId} {x : Cmd} {e : Engine} {d : List Byte} {tabs : List (List Byte)} {a : Acc}

theorem beadOpAdd_leads (hi : s.issues id 0x0090 x e d tabs a) (hr : s.isRow id 0 0 2 [0, 1, 2] 0 = true)
    (hop : fieldAt d 0 0 2 = 0) {n : Nat} (hv : (a.s.vid id.ctx.val (fieldAt d 2 0 16)).1 = some n)
    (hc : a.s.addCheck n (fieldAt d 8 0 64) = .done) :
    leads (.beadOpAdd id) s (fun t =>
      t.showsEnded id x a.s.time ∧
      t.beadValue n = a.s.beadValue n + fieldAt d 8 0 64 ∧ (∀ m, m < 65536 → m ≠ n → t.beadValue m = a.s.beadValue m) ∧
      t.mem = a.s.mem ∧ keepsRegs a.s t [Reg.beadValue]) := by
  obtain rfl : beadOpEngine = e := Option.some.inj (State.engineOf_issues hi)
  have hy := unitCmd_atEngine hi keepsRings_readDesc_then
  have hn := State.vid_lt hv
  have hvid : ((atEngine s id x beadOpEngine d tabs a).vid (CmdKey id / 64) (fieldAt d 2 0 16)).1 = some n := by
    rw [← State.vid_ringless, ringless_atEngine, State.vid_ringless, CmdKey_div, hv]
  obtain ⟨hend, hmem, hregs⟩ := State.startBeadOp_add_spec hy rfl hvid hop hc
  have hregs := (State.regs_armRing _ (CmdKey id)).trans hregs
  obtain ⟨hval, hother⟩ := State.beadValue_of_setReg (s := a.s) hn (State.lt_of_addCheck_done hc) hregs
  exact leads_of_issues (by simp only [ringRow, hr]) hi rfl ⟨showsEnded_of_endedOk hi hend, hval, hother,
    (State.mem_armRing _ _).trans hmem, keepsRegs_of_setReg (by omega) hregs⟩

end

/-! ### PEG_OP SET and CLEAR -/

/-- A peg written, and the others of every context. -/
theorem State.peg_setPeg (s : State) {b c p q : Nat} (hb : b < 16) (hc : c < 16) (hp : p < 4096) (hq : q < 4096) (v : Bool) :
    (s.setPeg c p v).peg b q = if b = c ∧ q = p then v else s.peg b q := by
  unfold State.setPeg State.peg
  by_cases hi : b * 64 + q / 64 = c * 64 + p / 64
  · have hlt := setBits_lt (s.reg Reg.ctxPeg (c * 64 + p / 64)).toNat (p % 64) 1 (b2n v) 64 (BitVec.isLt _) (by omega)
    rw [hi, State.reg_setReg_same, BitVec.toNat_ofNat, Nat.mod_eq_of_lt hlt, testBit_setBits]
    by_cases hpq : q % 64 = p % 64
    · rw [if_pos (by omega), if_pos (by omega), hpq, Nat.sub_self]
      cases v <;> rfl
    · rw [if_neg (by omega), if_neg (by rintro ⟨-, rfl⟩; exact hpq rfl)]
  · rw [State.reg_setReg_other, if_neg (by rintro ⟨rfl, rfl⟩; exact hi rfl)]
    rw [Ne, regKey_inj (by omega) (by omega)]
    exact fun he => hi he.2

theorem State.peg_of_setPeg {s t : State} {b c p q : Nat} {v : Bool} (hb : b < 16) (hc : c < 16) (hp : p < 4096)
    (hq : q < 4096) (h : t.regs = (s.setPeg c p v).regs) : t.peg b q = if b = c ∧ q = p then v else s.peg b q := by
  rw [State.peg, State.reg_of_regs h]
  exact s.peg_setPeg hb hc hp hq v

theorem State.ringless_pegChange (s : State) (c p : Nat) (v : Bool) : (s.pegChange c p v).ringless = (s.setPeg c p v).ringless :=
  rfl

/-- The operation of a PEG_OP that leaves its peg at a level. -/
def pegOpOf (v : Bool) : Nat := if v then 0 else 1

theorem State.startPegOp_change {s : State} {k : Nat} {y : Cmd} {v : Bool} (hop : fieldAt y.desc 0 0 2 = pegOpOf v) :
    s.startPegOp k y = (s.pegChange (k / 64) (fieldAt y.desc 2 0 12) v).finishCmd k y.count St.ok := by
  unfold State.startPegOp
  cases v <;> simp only [hop, pegOpOf, if_true, Bool.false_eq_true, if_false]

theorem State.startPegOp_spec {s : State} {k : Nat} {y : Cmd} {v : Bool} (hy : s.unitCmd k y.count = some y)
    (hp : y.phase = .stalled) (hop : fieldAt y.desc 0 0 2 = pegOpOf v) :
    (s.startPegOp k y).endedOk k y ∧ (s.startPegOp k y).mem = s.mem ∧
      (s.startPegOp k y).regs = (s.setPeg (k / 64) (fieldAt y.desc 2 0 12) v).regs := by
  rw [State.startPegOp_change hop]
  have hframe := (State.ringless_finishCmd (s.pegChange (k / 64) (fieldAt y.desc 2 0 12) v) k y.count St.ok).trans
    (State.ringless_pegChange _ _ _ _)
  exact ⟨State.endedOk_finishCmd (State.unitCmd_pegChange hy hp _ _ v) rfl rfl, (State.mem_of_ringless hframe :),
    State.regs_of_ringless hframe⟩

section
variable {s : State} {id : CmdId} {x : Cmd} {e : Engine} {d : List Byte} {tabs : List (List Byte)} {a : Acc}

theorem pegChange_leads (hi : s.issues id 0x0091 x e d tabs a) (v : Bool)
    (hr : s.isRow id 0 0 2 [0, 1, 2, 3] (pegOpOf v) = true) (hop : fieldAt d 0 0 2 = pegOpOf v) :
    leads (if v then .pegSet id else .pegClear id) s (fun t =>
      t.showsEnded id x a.s.time ∧
      t.peg id.ctx.val (fieldAt d 2 0 12) = v ∧
      (∀ b p, b < 16 → p < 4096 → ¬(b = id.ctx.val ∧ p = fieldAt d 2 0 12) → t.peg b p = a.s.peg b p) ∧
      t.mem = a.s.mem ∧ keepsRegs a.s t [Reg.ctxPeg]) := by
  obtain rfl : pegOpEngine = e := Option.some.inj (State.engineOf_issues hi)
  have hy := unitCmd_atEngine hi keepsRings_readDesc_then
  have hrow : ringRow s (if v then .pegSet id else .pegClear id) = some (id, 0x0091, true) := by
    cases v <;> exact congrArg (fun r => some (id, 0x0091, r)) hr
  have hc := id.ctx.isLt
  have hp : fieldAt d 2 0 12 < 4096 := bitsOf_lt _ 0 12
  have hindex : id.ctx.val * 64 + fieldAt d 2 0 12 / 64 < 1048576 := by omega
  obtain ⟨hend, hmem, hregs⟩ := State.startPegOp_spec hy rfl hop
  have hregs := (State.regs_armRing _ (CmdKey id)).trans hregs
  rw [CmdKey_div] at hregs
  exact leads_of_issues hrow hi rfl ⟨showsEnded_of_endedOk hi hend,
    (State.peg_of_setPeg hc hc hp hp hregs).trans (if_pos ⟨rfl, rfl⟩),
    fun b p hb hq hne => (State.peg_of_setPeg hb hc hp hq hregs).trans (if_neg hne),
    (State.mem_armRing _ _).trans hmem, keepsRegs_of_setReg hindex hregs⟩

end

/-! ### BRANCH -/

/-- The comparison of a BRANCH as it stands (R113). -/
def State.branchGoes (s : State) (k : Nat) (x : Cmd) : Bool :=
  branchTaken (fieldAt x.desc 2 0 3) (x36Of (s.slot (k / 64) (fieldAt x.desc 1 0 8) (fieldAt x.desc 0 0 6)))
    (x36Of (fieldAt x.desc 8 0 36))

/-- HEAD after a BRANCH. -/
def State.branchHead (s : State) (k : Nat) (x : Cmd) : Nat :=
  (x.count + (if s.branchGoes k x then fieldAt x.desc 4 0 32 else 1)) % 2 ^ 32

/-- The state in which a BRANCH has moved HEAD and has ended. -/
def State.branched (s : State) (k : Nat) (x : Cmd) : State :=
  ((s.wr F.ctxRingStatus_HEAD k (s.branchHead k x)).updCmd k x.count
    (fun y => { y with counts := b2n (s.branchGoes k x) })).finishCmd k x.count St.ok

theorem State.startBranch_of_present {s : State} {k : Nat} {x : Cmd} (h : s.tilePresent (fieldAt x.desc 1 0 8) = true) :
    s.startBranch k x = ((s.branched k x).ringDomains k).foldl State.askWake (s.branched k x) :=
  if_neg (by simp [h])

theorem State.lt_of_domFitted {s : State} {d : Nat} (h : s.domFitted d = true) : d < 23 := by
  unfold State.domFitted at h
  split at h
  · unfold State.kfeFitted at h
    simp only [Bool.and_eq_true, decide_eq_true_eq] at h
    omega
  · have := of_decide_eq_true h
    omega

/-- A wake request leaves everything but the power domains (R505, R506). -/
theorem State.askWake_frame (s : State) (d : Nat) :
    keepsRegs s (s.askWake d) [Reg.pwrDomStatus] ∧ (s.askWake d).mem = s.mem ∧ (s.askWake d).rings = s.rings := by
  unfold State.askWake
  dsimp only
  split
  · exact ⟨fun _ _ _ _ => rfl, rfl, rfl⟩
  next h =>
    simp only [Bool.or_eq_true, not_or, Bool.not_eq_true', Bool.not_eq_false] at h
    have hd := State.lt_of_domFitted h.1.2
    exact ⟨keepsRegs_of_setReg (by omega) rfl, rfl, rfl⟩

theorem State.askWakes_frame (s : State) (l : List Nat) : keepsRegs s (l.foldl State.askWake s) [Reg.pwrDomStatus] ∧
    (l.foldl State.askWake s).mem = s.mem ∧ (l.foldl State.askWake s).rings = s.rings :=
  List.foldlRecOn (motive := fun t : State => keepsRegs s t [Reg.pwrDomStatus] ∧ t.mem = s.mem ∧ t.rings = s.rings) _ _
    ⟨fun _ _ _ _ => rfl, rfl, rfl⟩ fun t ht d _ => by
      obtain ⟨hregs, hmem, hrings⟩ := t.askWake_frame d
      exact ⟨fun r i hi hr => (hregs r i hi hr).trans (ht.1 r i hi hr), hmem.trans ht.2.1, hrings.trans ht.2.2⟩

theorem State.startBranch_spec {s : State} {k : Nat} {y : Cmd} (hk : k < 1024) (hy : s.unitCmd k y.count = some y)
    (ht : s.tilePresent (fieldAt y.desc 1 0 8) = true) :
    (s.startBranch k y).endedOk k y ∧ (s.startBranch k y).mem = s.mem ∧
      keepsRegs s (s.startBranch k y) [Reg.ctxRingStatus, Reg.pwrDomStatus] ∧
      (s.startBranch k y).rd F.ctxRingStatus_HEAD k = s.branchHead k y := by
  rw [State.startBranch_of_present ht]
  have hend : (s.branched k y).endedOk k y :=
    State.endedOk_finishCmd (State.unitCmd_updCmd (s := s.wr F.ctxRingStatus_HEAD k (s.branchHead k y)) hy
      fun _ hz => hz) rfl rfl
  have hframe : (s.branched k y).ringless = (s.wr F.ctxRingStatus_HEAD k (s.branchHead k y)).ringless :=
    State.ringless_finishCmd _ _ _ _
  have hbranch : (s.branched k y).rd F.ctxRingStatus_HEAD k = s.branchHead k y := by
    unfold State.rd
    rw [State.reg_of_regs (State.regs_of_ringless hframe)]
    exact (s.rd_wr_same F.ctxRingStatus_HEAD k _ (by decide)).trans (Nat.mod_mod _ _)
  obtain ⟨hregs, hmem, hrings⟩ := (s.branched k y).askWakes_frame ((s.branched k y).ringDomains k)
  refine ⟨State.endedOk_of_rings hrings hend, hmem.trans (State.mem_of_ringless hframe :),
    (keepsRegs_of_setReg (by omega) (State.regs_of_ringless hframe)).trans hregs, ?_⟩
  rw [← hbranch]
  unfold State.rd
  rw [hregs Reg.ctxRingStatus k (by omega) (by decide)]

section
variable {s : State} {id : CmdId} {x : Cmd} {e : Engine} {d : List Byte} {tabs : List (List Byte)} {a : Acc}

theorem branch_leads (hi : s.issues id 0x00A0 x e d tabs a) (ht : a.s.tilePresent (fieldAt d 1 0 8) = true) :
    leads (.branch id) s (fun t =>
      t.showsEnded id x a.s.time ∧
      t.mem = a.s.mem ∧ keepsRegs a.s t [Reg.ctxRingStatus, Reg.pwrDomStatus] ∧
      t.rd F.ctxRingStatus_HEAD (CmdKey id) = (x.count + (if branchTaken (fieldAt d 2 0 3)
        (x36Of (a.s.slot id.ctx.val (fieldAt d 1 0 8) (fieldAt d 0 0 6))) (x36Of (fieldAt d 8 0 36))
        then fieldAt d 4 0 32 else 1)) % 2 ^ 32) := by
  obtain rfl : branchEngine = e := Option.some.inj (State.engineOf_issues hi)
  have hy := unitCmd_atEngine hi keepsRings_readDesc_then
  obtain ⟨hend, hmem, hregs, hhead⟩ := State.startBranch_spec (CmdKey_lt id) hy ht
  refine leads_of_issues rfl hi rfl ⟨showsEnded_of_endedOk hi hend, (State.mem_armRing _ _).trans hmem,
    fun r i hi hr => (State.reg_of_regs (State.regs_armRing _ _) r i).trans (hregs r i hi hr), ?_⟩
  rw [← CmdKey_div]
  refine Eq.trans ?_ hhead
  unfold State.rd
  rw [State.reg_of_regs (State.regs_armRing _ _)]
  rfl

end

/-! ### BRACE_SET -/

/-- A context's brace set replaced by the entries of a descriptor; no entries leave it none (R537). -/
def State.replaceBraceSet (s : State) (c : Nat) (es : List (List Byte)) : State :=
  { s with brace := { s.brace with sets := if es = [] then del s.brace.sets c else put s.brace.sets c es } }

theorem State.startBraceSet_spec {s : State} {k : Nat} {y : Cmd} (hu : y.untouched) (hy : s.unitCmd k y.count = some y) :
    (s.startBraceSet k y).endedOk k y ∧
      (s.startBraceSet k y).brace.sets = (if braceEntries y.desc = [] then del s.brace.sets (k / 64)
        else put s.brace.sets (k / 64) (braceEntries y.desc)) ∧
      (s.startBraceSet k y).mem = s.mem ∧ (s.startBraceSet k y).regs = s.regs := by
  let z : Cmd := { y with counts := (braceEntries y.desc).length }
  have hz : z.untouched := hu
  have hstart : s.startBraceSet k y =
      ((s.replaceBraceSet (k / 64) (braceEntries y.desc)).updCmd k y.count fun _ => z).endCmd k z St.ok := rfl
  have hend : ((s.replaceBraceSet (k / 64) (braceEntries y.desc)).updCmd k y.count fun _ => z).unitCmd k z.count = some z :=
    State.unitCmd_updCmd (s := s.replaceBraceSet _ _) hy fun _ _ => rfl
  rw [hstart]
  obtain ⟨hregs, hmem, hbrace⟩ := State.endCmd_frame
    ((s.replaceBraceSet (k / 64) (braceEntries y.desc)).updCmd k y.count fun _ => z) k hz
  exact ⟨State.endedOk_endCmd hz hend rfl rfl, congrArg Brace.sets hbrace, hmem, hregs⟩

section
variable {s : State} {id : CmdId} {x : Cmd} {e : Engine} {d : List Byte} {tabs : List (List Byte)} {a : Acc}

theorem braceSet_leads (hi : s.issues id 0x00C0 x e d tabs a) (hx : x.untouched) :
    leads (.braceSet id) s (fun t =>
      t.showsEnded id x a.s.time ∧
      t.brace.sets = (if braceEntries d = [] then del a.s.brace.sets id.ctx.val else put a.s.brace.sets id.ctx.val (braceEntries d)) ∧
      t.mem = a.s.mem ∧ t.regs = a.s.regs) := by
  obtain rfl : braceSetEngine = e := Option.some.inj (State.engineOf_issues hi)
  have hy := unitCmd_atEngine hi (keepsRings_bracePrep _ _ _)
  obtain ⟨hend, hsets, hmem, hregs⟩ := State.startBraceSet_spec (handed_untouched rfl hx) hy
  rw [← CmdKey_div]
  exact leads_of_issues rfl hi rfl ⟨showsEnded_of_endedOk hi hend,
    (congrArg Brace.sets (State.brace_armRing _ _)).trans hsets, (State.mem_armRing _ _).trans hmem,
    (State.regs_armRing _ _).trans hregs⟩

end

/-- Settles O59: each command's engine, started on the command as it was handed over, ends it and leaves the rest. -/
theorem dispatcherCommands : Obligations.DispatcherCommands := by
  unfold Obligations.DispatcherCommands
  intro id s x e d tabs a hx
  exact ⟨fun hi => nop_leads hi hx, fun hi hr hop n hv hc => beadOpAdd_leads hi hr hop hv hc,
    fun hi v hr hop => pegChange_leads hi v hr hop, fun hi ht => branch_leads hi ht, fun hi => braceSet_leads hi hx⟩

end Sys2Proof.Machine
end

section
/-!
The resolution of faults (R183, R194, R337 to R339, R342): one rule for each event on the stall that it names,
and what a dispatcher's access that goes on leaves.
-/
namespace Sys2Proof.Machine

/-! ### Copy on write (R337) -/

/-- A context without a frame pool has no frame to pop. -/
theorem State.resolveCow_of_no_pool {s : State} {c : Nat} (h : s.rd F.ctxFramePool_ADDR c = 0) (st : Stall) :
    s.resolveCow c st = (.noFrame, s) := by
  simp [State.resolveCow, State.popFrame, h]

section
variable {s : State} {id : CmdId} {unit : BitVec 32} {a : StallAt} (ha : s.stallAt id unit.toNat = some a)
  (hr : s.resolves id.ctx.val = true)
include ha hr

theorem exec_cowResolve_of_noFrame {q : State} (hk : a.stall.kind = .cow) (hq : s.resolveCow id.ctx.val a.stall = (.noFrame, q)) :
    exec (.cowResolve id unit) s = .next (q.failAt (CmdKey id) a Cause.noFrame) := by
  show execCowResolve id unit s = _
  simp [execCowResolve, ha, hr, hk, hq]

theorem exec_cowResolve_of_replay {q : State} (hk : a.stall.kind = .cow) (hq : s.resolveCow id.ctx.val a.stall = (.replay, q)) :
    exec (.cowResolve id unit) s = .next (q.unstall (CmdKey id) a) := by
  show execCowResolve id unit s = _
  simp [execCowResolve, ha, hr, hk, hq]

/-! ### Migration (R339) -/

theorem exec_migratePoll_of_migrate {gone : Bool} {q : State} (hk : a.stall.kind = .migrate)
    (hq : s.checkGran a.stall.pte = (gone, q)) :
    exec (.migratePoll id unit) s = .next (if !gone ∧ Pte.valid (q.peek64 a.stall.pte) then
      (q.count F.ctxFaultCounts_MIGRATE id.ctx.val 1).unstall (CmdKey id) a else q) := by
  show execMigratePoll id unit s = _
  simp [execMigratePoll, ha, hr, hk, hq]

theorem exec_migrateTimeout_of_migrate (hk : a.stall.kind = .migrate) :
    exec (.migrateTimeout id unit) s = .next (if s.rd F.ctxFaultCfg_MIGRATE_WAIT id.ctx.val * 1000000 ≤ s.migrateSpent a.stall then
      s.failAt (CmdKey id) a Cause.migrateTimeout else s) := by
  show execMigrateTimeout id unit s = _
  simp [execMigrateTimeout, ha, hr, hk]

/-! ### Loans (R338) -/

theorem exec_loanResolve_of_loan (hk : a.stall.kind = .loan) {st : Nat}
    (hst : s.rd F.netLoanWin_STATE ((s.stallWindow a.stall).getD 16) = st) (granted : Bool) :
    exec (.loanResolve id unit granted) s = .next (
      if granted ∧ st = 2 then (s.resolveLoan id.ctx.val a.stall).unstall (CmdKey id) a
      else if !granted ∧ (st = 0 ∨ st = 3) then s.failAt (CmdKey id) a Cause.loanLost else s) := by
  show execLoanResolve id unit granted s = _
  simp [execLoanResolve, ha, hr, hk, hst]

end

/-! ### The accesses of a dispatcher (R342) -/

theorem State.unstall_compl (q : State) (k : Nat) (x : Cmd) (st : Stall) :
    (q.unstall k (.compl x st)).regs = q.regs ∧ (q.unstall k (.compl x st)).mem = q.mem ∧
      ((q.unstall k (.compl x st)).ring k).complStall = none ∧
      ((q.unstall k (.compl x st)).ring k).cmds = (q.ring k).cmds := by
  simp [State.unstall]

theorem State.unstall_fetch (q : State) (k : Nat) (st : Stall) :
    (q.unstall k (.fetch st)).regs = q.regs ∧ (q.unstall k (.fetch st)).mem = q.mem ∧
      ((q.unstall k (.fetch st)).ring k).fetchStall = none ∧
      ((q.unstall k (.fetch st)).ring k).cmds = (q.ring k).cmds := by
  simp [State.unstall]

/-! ### KV copy-on-write and the restart of walks (R183, R194) -/

theorem exec_kvCowResolve_of_replay {id : CmdId} {unit : BitVec 32} {s q : State} {x : Cmd} {st : Stall} {a : Acc}
    (hs : s.stallAt id unit.toNat = some (.unit x st)) (hk : st.kind = .kvCow) (hr : s.resolves id.ctx.val = true)
    (hq : State.ownerCow id.ctx.val x.kvPool.1 (((x.kvPool.2[st.va / 2 ^ 32]?).map (·.pt)).getD 0) st.pte st.entry 8 s =
      (some (.replay, a), q)) (hf : a.fault = none) :
    exec (.kvCowResolve id unit) s = .next ((q.updCmd (CmdKey id) x.count (fun y => { y with
      lossUnit := if y.lost = [] ∧ a.lost ≠ [] then st.src else y.lossUnit, lost := joinLost y.lost a.lost })).replay
        (CmdKey id) x.count st) := by
  show execKvCowResolve id unit s = _
  simp only [execKvCowResolve, hs, hk, hr, and_self, if_true, hq, hf]

/-- The walks of a sequence that have waited out their delay. -/
def State.walksDue (s : State) (x : Cmd) (seq : Nat) : List Stall :=
  x.stalls.filter (fun st => st.kind == .kvWalk && st.va == seq && decide (s.ivl - st.since ≥ st.entry))

theorem exec_kvWalkRestart_of_cmd {id : CmdId} {s : State} {x : Cmd} (hx : s.cmd id = some x)
    (hr : s.resolves id.ctx.val = true) (seq : BitVec 16) :
    exec (.kvWalkRestart id seq) s =
      .next ((s.walksDue x seq.toNat).foldl (fun s st => s.replay (CmdKey id) x.count st) s) := by
  show execKvWalkRestart id seq s = _
  simp only [execKvWalkRestart, hx, hr, if_true]
  rfl

/-! ### The obligation -/

/-- Settles O52: each event by its rule, read at the outcome that the clause names. -/
theorem faultResolutions : Obligations.FaultResolutions := by
  unfold Obligations.FaultResolutions
  refine ⟨fun id unit s a ha hr => ⟨fun hk => ?cow, fun hk => ⟨fun gone q hq => ?poll, ?timeout⟩, fun hk => ?loan,
    fun q x st => ⟨fun h => h ▸ q.unstall_compl _ x st, fun h => h ▸ q.unstall_fetch _ st⟩⟩,
    fun id unit s q x st a hs hk hr => exec_kvCowResolve_of_replay hs hk hr, fun id seq s x hx hr => ?walk⟩
  case cow =>
    exact ⟨fun hpool => exec_cowResolve_of_noFrame ha hr hk (State.resolveCow_of_no_pool hpool _),
      fun q => exec_cowResolve_of_replay ha hr hk⟩
  case poll =>
    rw [exec_migratePoll_of_migrate ha hr hk hq]
    refine ⟨fun h => ?_, fun hgone hvalid => by rw [if_pos (by simp [hgone, hvalid])]⟩
    rcases h with h | h <;> simp [h]
  case timeout =>
    rw [exec_migrateTimeout_of_migrate ha hr hk]
    exact ⟨fun hlt => by rw [if_neg (Nat.not_le.mpr hlt)], fun hle => by rw [if_pos hle]⟩
  case loan =>
    simp only [exec_loanResolve_of_loan ha hr hk rfl]
    exact ⟨fun hst => by simp [hst], fun hst => by simp [hst], fun hst granted => by simp [hst]⟩
  case walk =>
    rw [exec_kvWalkRestart_of_cmd hx hr]
    exact ⟨fun hdue => by rw [State.walksDue, hdue, List.foldl_nil],
      fun st hdue => by rw [State.walksDue, hdue, List.foldl_cons, List.foldl_nil]⟩

end Sys2Proof.Machine
end

section
/-!
Notices in a device none of whose queues rings a doorbell in memory (R404): they leave the memories as they are.
-/
namespace Sys2Proof.Machine

/-- The memories: the device's and the host's bytes, the error marks of granules and the lines of the shared caches. -/
def State.memories (s : State) : Mem × Mem × Tbl Gran × Tbl CLine := (s.mem, s.host, s.ecc, s.cache)

theorem State.mem_of_memories {s t : State} (h : t.memories = s.memories) : t.mem = s.mem := congrArg Prod.fst h

theorem State.quietQueues_of_told {s t : State} (h : Told s t) (hq : s.quietQueues) : t.quietQueues := fun q hlt => by
  rw [h.rd F.queNotify_MODE q (by omega) (by decide)]
  exact hq q hlt

theorem State.memories_interrupt (s : State) (v : Nat) : (s.interrupt v).memories = s.memories := by
  unfold State.interrupt
  split <;> rfl

theorem State.memories_queNotify {s : State} {q : Nat} (h : s.rd F.queNotify_MODE q ≠ 2) (n : Nat) :
    (s.queNotify q n).memories = s.memories := by
  unfold State.queNotify
  split
  · exact s.memories_interrupt _
  next hmode => exact absurd hmode h
  · rfl

theorem State.memories_quePut {s : State} {q : Nat} (hs : s.quietQueues) (hq : q < 256) (prio : Nat)
    (ents : List (List Byte)) (producer : Nat) : (s.quePut q prio ents producer).2.1.memories = s.memories := by
  unfold State.quePut
  dsimp only
  split
  · split
    · split <;> rfl
    · rfl
  · generalize makeRoom (s.queCap q) ents.length prio ((s.que q).pkts.length + 1) (s.que q) 0 0 0 = r
    obtain ⟨y, e, p, lp, stays⟩ := r
    have hcounted : ∃ t : State, (if e = 0 then s else s.countLost q e p) = t ∧ t.quietQueues ∧
        t.memories = s.memories := by
      split
      · exact ⟨s, rfl, hs, rfl⟩
      · exact ⟨_, rfl, State.quietQueues_of_told (Told.countLost s q e p (by omega)) hs, rfl⟩
    obtain ⟨t, ht, htq, htm⟩ := hcounted
    dsimp only
    rw [ht]
    cases stays with
    | false => exact htm
    | true => exact (State.memories_queNotify (s := t.setQue q _) (htq q hq) _).trans htm

theorem State.memories_queReset (s : State) (q : Nat) : (s.queReset q).1.memories = s.memories := by
  unfold State.queReset
  dsimp only
  split <;> rfl

theorem State.memories_noticePut {s : State} {q : Nat} (hs : s.quietQueues) (hq : q < 256) (n : Ntc) (r : List Byte) :
    (s.noticePut q n r).1.memories = s.memories := by
  unfold State.noticePut State.ptrsDiffer
  split
  · exact State.memories_quePut hs hq _ _ _
  · cases Config.ptrMismatch s.nfree with
    | false => exact State.memories_quePut (s := { s with nfree := s.nfree + 1 }) hs hq _ _ _
    | true => exact State.memories_queReset { s with nfree := s.nfree + 1 } q

theorem State.memories_withKept (s : State) (kept : List (List Byte)) :
    ({ s with start := { s.start with kept := kept } } : State).memories = s.memories := rfl

theorem State.memories_deliver {s : State} (hs : s.quietQueues) {n : Ntc} (hn : n.named) :
    (s.deliver n).1.memories = s.memories := by
  have hseen : ∃ t : State, (if n.sev = Sev.fatal then s.wr F.hubHealth_FATAL_SEEN 0 1 else s) = t ∧ t.quietQueues ∧
      t.memories = s.memories := by
    split
    · exact ⟨_, rfl, State.quietQueues_of_told (Told.wr F.hubHealth_FATAL_SEEN 0 1 (by decide) (by decide)) hs, rfl⟩
    · exact ⟨s, rfl, hs, rfl⟩
  obtain ⟨t, ht, htq, htm⟩ := hseen
  unfold State.deliver
  dsimp only
  rw [ht]
  split
  · exact (t.memories_withKept _).trans htm
  · have hfirst := (State.memories_noticePut htq (by decide : 0 < 256) n (n.record t.time)).trans htm
    split
    next c hc _ =>
      have hquiet := State.quietQueues_of_told (Told.noticePut t 0 n (n.record t.time) (by decide)).1 htq
      exact (State.memories_noticePut hquiet (by have := hn c hc; omega) n _).trans hfirst
    next => exact hfirst

theorem State.memories_raiseN (f : Nat) {s : State} (hs : s.quietQueues) {n : Ntc} (hn : n.named) :
    (State.raiseN f s n).memories = s.memories := by
  induction f generalizing s n with
  | zero => rfl
  | succ f ih =>
    obtain ⟨htold, hnamed⟩ := Told.deliver s n hn
    have hfold := List.foldlRecOn (motive := fun t : State => t.quietQueues ∧ t.memories = s.memories)
      (s.deliver n).2 (State.raiseN f) ⟨State.quietQueues_of_told htold hs, State.memories_deliver hs hn⟩
      fun t ⟨hquiet, hmem⟩ m hm => ⟨State.quietQueues_of_told (Told.raiseN f t m (hnamed m hm)) hquiet,
        (ih hquiet (hnamed m hm)).trans hmem⟩
    exact hfold.2

theorem State.memories_raise {s : State} (hs : s.quietQueues) {n : Ntc} (hn : n.named) :
    (s.raise n).memories = s.memories := by
  unfold State.raise
  split
  · dsimp only
    split <;> rfl
  · exact State.memories_raiseN 4 hs hn

end Sys2Proof.Machine
end

section
/-!
Loans in use (R247 to R250, R469): the lender's answers to accesses and to LOAN_STEP, the replies at the borrower, and the
end of a LOAN_STEP whose time has run out.
-/
namespace Sys2Proof.Machine

/-! ### A packet sent -/

/-- A packet sent changes the connections and what the device puts out, and nothing else. -/
theorem State.sendGct_eq (s : State) (c : Nat) (m : GctMsg) :
    ∃ conns out, s.sendGct c m = { s with conns := conns, out := out } := by
  unfold State.sendGct
  split
  · exact ⟨s.conns, s.out, rfl⟩
  · dsimp only
    split <;> exact ⟨_, _, rfl⟩

section
variable (s : State) (c : Nat) (m : GctMsg)

@[simp] theorem State.sendGct_regs : (s.sendGct c m).regs = s.regs := by
  obtain ⟨_, _, h⟩ := s.sendGct_eq c m
  rw [h]
@[simp] theorem State.sendGct_mem : (s.sendGct c m).mem = s.mem := by
  obtain ⟨_, _, h⟩ := s.sendGct_eq c m
  rw [h]
@[simp] theorem State.sendGct_rings : (s.sendGct c m).rings = s.rings := by
  obtain ⟨_, _, h⟩ := s.sendGct_eq c m
  rw [h]
@[simp] theorem State.sendGct_grants : (s.sendGct c m).grants = s.grants := by
  obtain ⟨_, _, h⟩ := s.sendGct_eq c m
  rw [h]

end

/-! ### Accesses at the lender (R469) -/

section
variable {s r : State} {hdr : GctHdr} (hserves : s.netServes = true)
include hserves

theorem exec_loanAccessRequest (hr : s.receive hdr false = some r) (off : Word) (write : Option (List Byte)) :
    exec (.loanAccessRequest hdr off write) s = .next (r.lendAccess hdr.conn.val off.toNat write) := by
  show execLoanAccessRequest hdr off write s = _
  simp [execLoanAccessRequest, hserves, hr]

theorem exec_lenderLoanStep (hr : s.receive hdr true = some r) (m : LoanStepMsg) :
    exec (.lenderLoanStep hdr m) s = .next (r.lendLoanStep hdr.conn.val m) := by
  show execLenderLoanStep hdr m s = _
  simp [execLenderLoanStep, hserves, hr]

end

section
variable {r : State} {c off : Nat}

theorem State.lendAccess_read_of_no_grant (h : r.grantOf c off 64 = none) :
    r.lendAccess c off none = r.sendGct c (.loan 3 [off, 1] []) := by
  simp [State.lendAccess, h]

theorem State.lendAccess_read_of_grant {bs : List Byte} {q : State} (h : r.grantOf c off 64 ≠ none)
    (hq : r.readPhys (r.lendAddr off) 64 = (bs, [], q)) :
    r.lendAccess c off none = q.sendGct c (.loan 3 [off, 0] bs) := by
  unfold State.lendAccess
  generalize r.readPhys (r.lendAddr off) 64 = read at hq
  subst hq
  exact if_neg (by simpa using h)

theorem State.lendAccess_write_of_no_grant {b : List Byte} (h : r.grantOf c off b.length = none) :
    r.lendAccess c off (some b) = r.sendGct c (.loan 4 [off, 1] []) := by
  simp [State.lendAccess, h]

theorem State.lendAccess_write_of_grant {b : List Byte} (h : r.grantOf c off b.length ≠ none) :
    r.lendAccess c off (some b) = (r.writePhys (r.lendAddr off) b).2.sendGct c
      (.loan 4 [off, b2n (!(r.writePhys (r.lendAddr off) b).1)] []) := by
  simp [State.lendAccess, h]

end

/-! ### Replies at the borrower (R248, R469) -/

section
variable {s r : State} {hdr : GctHdr} (hup : s.netUp = true) (hr : s.receive hdr true = some r)
include hup hr

theorem exec_loanAccessReply_of_no_window {off : Word} (h : r.loanAddr hdr.conn.val off.toNat = none)
    (data : Option (List Byte)) : exec (.loanAccessReply hdr off data) s = .next r := by
  show execLoanAccessReply hdr off data s = _
  simp [execLoanAccessReply, hup, hr, h]

theorem exec_loanAccessReply_of_window {off : Word} {pa : Nat} (h : r.loanAddr hdr.conn.val off.toNat = some pa)
    (data : Option (List Byte)) : exec (.loanAccessReply hdr off data) s = .next (r.loanAnswer pa data) := by
  show execLoanAccessReply hdr off data s = _
  simp [execLoanAccessReply, hup, hr, h]

theorem exec_loanReply_of_no_cmd {m : LoanReplyMsg} (h : r.loanCmd hdr.conn.val m = none) :
    exec (.loanReply hdr m) s = .next r := by
  show execLoanReply hdr m s = _
  simp [execLoanReply, hup, hr, h]

/-- A reply is kept as the part of its group, and the command goes on with it. -/
theorem exec_loanReply_of_cmd {m : LoanReplyMsg} {k i : Nat} {x : Cmd} (h : r.loanCmd hdr.conn.val m = some (k, x, i)) :
    exec (.loanReply hdr m) s = .next ((r.updCmd k x.count (fun y => { y with
      parts := put y.parts i (replyPart m), counts := y.counts + 1,
      flags := if m.op = 0 then y.flags ||| (replyPart m).getD 7 0 else y.flags })).settle k x.count (loanPlan k x)) := by
  show execLoanReply hdr m s = _
  simp only [execLoanReply, hup, hr, h, Bool.not_true, Bool.false_eq_true, if_false]

end

/-- Every command changed: the rings as they are then read. -/
theorem State.cmds_mapCmds (s : State) (f : Nat → Cmd → Cmd) (k : Nat) :
    ((s.mapCmds f).ring k).cmds = (s.ring k).cmds.map (f k) := by
  unfold State.ring State.mapCmds lookD
  dsimp only
  induction s.rings with
  | nil => rfl
  | cons e t ih =>
    simp only [List.map_cons, look]
    split
    next he => simp [he]
    next => exact ih

/-- An acknowledgement takes its write out of every command that waits for it. -/
theorem State.loanOut_loanWritten (s : State) (pa : Nat) (lost : Bool) (k : Nat) :
    ((s.loanWritten pa lost).ring k).cmds.map (·.loanOut) = (s.ring k).cmds.map (fun x => x.loanOut.erase pa) := by
  rw [State.loanWritten, State.cmds_mapCmds, List.map_map]
  refine List.map_congr_left fun x _ => ?_
  dsimp only [Function.comp]
  split
  next => rfl
  next hout => exact (List.erase_of_not_mem (by simpa using hout)).symm

/-! ### LOAN_STEP at the lender (R249) -/

section
variable {r q : State} {c pa l : Nat} {p : Bool} {m : LoanStepMsg}

theorem State.lendLoanStep_of_no_grant (h : r.lentAt c m = none) :
    r.lendLoanStep c m = r.loanReply c m St.faultTranslation [] [] := by
  simp only [State.lendLoanStep, h]

variable (hpa : r.lentAt c m = some pa)
include hpa

theorem State.lendLoanStep_of_lost_record (hq : r.checkGran ((loanEntry m).recordAt pa) = (true, q)) :
    r.lendLoanStep c m = (q.lendLoss [(loanEntry m).recordAt pa]).loanReply c m St.dataLoss [] [] := by
  simp only [State.lendLoanStep, hpa, hq, if_true]

variable (hq : r.checkGran ((loanEntry m).recordAt pa) = (false, q))
include hq

theorem State.lendLoanStep_commit_of_no_record (hop : m.op = 1) (hrec : q.getRec ((loanEntry m).recordAt pa) = none) :
    r.lendLoanStep c m =
      (q.setRec ((loanEntry m).recordAt pa) (m.target.toNat, false)).loanReply c m St.ok [] [] := by
  simp [State.lendLoanStep, hpa, hq, hop, hrec]

variable (hrec : q.getRec ((loanEntry m).recordAt pa) = some (l, p))
include hrec

theorem State.lendLoanStep_commit_of_record (hop : m.op = 1) :
    r.lendLoanStep c m =
      if m.target.toNat = l then q.loanReply c m St.ok [] []
      else if m.target.toNat = l + 1 ∧ p then
        (q.setRec ((loanEntry m).recordAt pa) (l + 1, false)).loanReply c m St.ok [] []
      else q.loanMismatch c m l := by
  simp [State.lendLoanStep, hpa, hq, hop, hrec]

theorem State.lendLoanStep_step_of_record (hop : m.op = 0) :
    r.lendLoanStep c m =
      if m.target.toNat = l + 1 ∨ (m.target.toNat = l + 2 ∧ p) then
        q.lendVersion c m ((loanEntry m).atLender pa) ((loanEntry m).recordAt pa)
      else q.loanMismatch c m l := by
  simp [State.lendLoanStep, hpa, hq, hop, hrec]

theorem State.lendLoanStep_fetch_of_record (hop : m.op = 2) :
    r.lendLoanStep c m =
      if m.target.toNat = l then q.lendFetch c m ((loanEntry m).atLender pa) else q.loanMismatch c m l := by
  simp [State.lendLoanStep, hpa, hq, hop, hrec]

theorem State.lendLoanStep_of_mismatch
    (h : (m.op = 0 ∧ m.target.toNat ≠ l + 1 ∧ ¬(m.target.toNat = l + 2 ∧ p = true)) ∨ (m.op = 2 ∧ m.target.toNat ≠ l)) :
    r.lendLoanStep c m = q.loanMismatch c m l := by
  obtain ⟨hop, hnext, hpending⟩ | ⟨hop, hheld⟩ := h
  · rw [State.lendLoanStep_step_of_record hpa hq hrec hop, if_neg (not_or.mpr ⟨hnext, hpending⟩)]
  · rw [State.lendLoanStep_fetch_of_record hpa hq hrec hop, if_neg hheld]

end

theorem netNtc_named (code sev : Nat) {c : Nat} (h : c < 16) (a1 a2 a3 : Nat) :
    (netNtc code sev (some c) a1 a2 a3).named := fun _ hx => Option.some.inj hx ▸ h

/-- A request that does not follow the version held leaves the device but for its notice and its answer. -/
theorem State.loanMismatch_frame (q : State) (c : Nat) (m : LoanStepMsg) (l : Nat) :
    (q.loanMismatch c m l).grants = q.grants ∧ (q.loanMismatch c m l).rings = q.rings ∧
      keepsRegs q (q.loanMismatch c m l) toldRegs ∧ (q.quietQueues → (q.loanMismatch c m l).mem = q.mem) := by
  unfold State.loanMismatch State.loanReply
  have hnamed := netNtc_named 0x0905 Sev.error (q.rd_lt F.netLendCfg_CTX 0) m.group.toNat (l % 2 ^ 32)
    (m.target.toNat % 2 ^ 32)
  have htold := q.raise_told _ hnamed
  have hmem := fun hquiet => State.mem_of_memories (State.memories_raise (s := q) hquiet hnamed)
  simp only [State.sendGct_grants, State.sendGct_rings, State.sendGct_mem]
  exact ⟨htold.same State.grants fun _ => rfl, htold.same State.rings fun _ => rfl,
    fun i j hj hi => (State.reg_of_regs (State.sendGct_regs _ _ _) i j).trans (htold.regs i j hj hi), hmem⟩

/-! ### A LOAN_STEP whose time has run out (R250) -/

/-- The end of a command that has lost nothing and holds no generators. -/
theorem State.endCmd_of_lossless (s : State) (k : Nat) {x : Cmd} (hl : x.lost = []) (hs : x.seeds = []) (own : Nat) :
    ∃ u m, s.endCmd k x own =
      (({ s with nfree := m }).updCmd k x.count (fun y => { y with unit := u, lossTold := true })).finishCmd k x.count
        (x.outcome own) := by
  obtain ⟨u, m, hu⟩ := s.lastUnit_eq x
  refine ⟨u, m, ?_⟩
  simp only [State.endCmd, State.lossNotice, State.advanceSeeds, hl, hs, hu, List.foldl_nil]

/-- A command with the status of a failure; one that came before stands (R587). -/
def Cmd.failWith (x : Cmd) (st : Nat) : Cmd :=
  { x with fatal := x.fatal.orElse (fun _ => some st), stalls := [] }

theorem Cmd.outcome_failWith (x : Cmd) (st own : Nat) : (x.failWith st).outcome own = x.fatal.getD st := by
  cases h : x.fatal <;> simp [Cmd.failWith, Cmd.outcome, h]

section
variable {s : State} {k : Nat} {x : Cmd} (hx : s.unitCmd k x.count = some x) (hp : x.phase ≠ .ended)
include hx hp

theorem State.endOut_of_running (st : Nat) :
    s.endOut k x.count st = (s.updCmd k x.count (fun _ => x.failWith st)).endCmd k (x.failWith st) St.ok := by
  unfold State.endOut
  rw [show s.cmdAt k x.count = some x from hx]
  exact if_neg hp

/-- A command in flight that has lost nothing ends with the status of its failure, unless one came before. -/
theorem State.endOut_spec (hl : x.lost = []) (hs : x.seeds = []) (st : Nat) :
    (∃ y, (s.endOut k x.count st).unitCmd k x.count = some y ∧ y.phase = .ended ∧ y.status = x.fatal.getD st ∧
      y.record = x.record) ∧
    ∃ m, (s.endOut k x.count st).ringless = ({ s with nfree := m } : State).ringless := by
  obtain ⟨u, m, he⟩ := (s.updCmd k x.count (fun _ => x.failWith st)).endCmd_of_lossless k (x := x.failWith st) hl hs St.ok
  rw [State.endOut_of_running hx hp, he, Cmd.outcome_failWith]
  refine ⟨?_, m, by rw [State.ringless_finishCmd]; rfl⟩
  have hfailed : (s.updCmd k x.count fun _ => x.failWith st).unitCmd k x.count = some (x.failWith st) :=
    State.unitCmd_updCmd hx fun _ _ => rfl
  have hnamed := State.unitCmd_updCmd (s := { s.updCmd k x.count (fun _ => x.failWith st) with nfree := m })
    (f := fun y => { y with unit := u, lossTold := true }) hfailed fun _ h => h
  have hended := State.unitCmd_updCmd (f := fun y => y.endWith (x.fatal.getD st) s.time) hnamed fun _ h => h
  exact ⟨_, State.unitCmd_armRing hended (by simp [Cmd.endWith]) k, rfl, rfl, rfl⟩

end

section
variable {s : State} {id : CmdId} {x : Cmd} (hx : s.cmd id = some x)
include hx

theorem exec_loanStepTimeout_of_in_time (ht : s.timedOut x = false) : exec (.loanStepTimeout id) s = .next s := by
  show execLoanStepTimeout id s = _
  simp [execLoanStepTimeout, hx, ht]

theorem exec_loanStepTimeout_of_late (hop : x.opcode = 0x0072) (hp : x.phase = .waiting ∨ x.phase = .stalled)
    (haux : x.aux ≠ []) (hleft : x.unanswered ≠ []) (ht : s.timedOut x = true) :
    exec (.loanStepTimeout id) s = .next (s.loanStepLost (CmdKey id) x) := by
  show execLoanStepTimeout id s = _
  simp only [execLoanStepTimeout, hx]
  rw [if_pos ⟨hop, hp, haux, hleft, ht⟩]

/-- The loss of a LOAN_STEP is told with its first unanswered group, and the command ends LOAN_LOST. -/
theorem State.loanStepLost_spec (hp : x.phase ≠ .ended) (hleft : x.unanswered ≠ []) (hl : x.lost = []) (hs : x.seeds = []) :
    (∃ y, (s.loanStepLost (CmdKey id) x).cmd id = some y ∧ y.phase = .ended ∧ y.status = x.fatal.getD St.loanLost ∧
      y.record = x.record) ∧
    (s.loanStepLost (CmdKey id) x).grants = s.grants ∧ (s.loanStepLost (CmdKey id) x).conns = s.conns ∧
      keepsRegs s (s.loanStepLost (CmdKey id) x) toldRegs := by
  have hcount : x.count = id.count.toNat := State.count_of_unitCmd hx
  obtain ⟨⟨g, lender⟩, rest, hleft⟩ := List.exists_cons_of_ne_nil hleft
  simp only [State.loanStepLost, hleft]
  have htold := s.raise_told _ (netNtc_named 0x0904 Sev.error (by rw [CmdKey_div]; exact id.ctx.isLt :
    CmdKey id / 64 < 16) g ((g, lender) :: rest).length lender)
  generalize s.raise _ = t at htold
  have hunit : t.unitCmd (CmdKey id) x.count = some x := by
    unfold State.unitCmd State.ring
    rw [htold.same State.rings fun _ => rfl, hcount]
    exact hx
  obtain ⟨hend, m, hframe⟩ := State.endOut_spec hunit hp hl hs St.loanLost
  rw [State.cmd_eq_unitCmd, ← hcount]
  exact ⟨hend, (congrArg State.grants hframe :).trans (htold.same State.grants fun _ => rfl),
    (congrArg State.conns hframe :).trans (htold.same State.conns fun _ => rfl),
    fun r i hi hr => (State.reg_of_regs (State.regs_of_ringless hframe) r i).trans (htold.regs r i hi hr)⟩

end

/-! ### The obligation -/

/-- Settles O50: each row by its rule, read at the outcome that the clause names. -/
theorem loanTraffic : Obligations.LoanTraffic := by
  unfold Obligations.LoanTraffic
  refine ⟨⟨fun hdr off s r hserves hr => ?access, fun hdr off data s r hup hr => ?answer⟩,
    fun hdr m s r hserves hr => ?lender, fun hdr m s r hup hr => ?reply, fun id s x hx => ?timeout⟩
  case access =>
    simp only [exec_loanAccessRequest hserves hr]
    exact ⟨fun h => by rw [State.lendAccess_read_of_no_grant h],
      fun h bs q hq => by rw [State.lendAccess_read_of_grant h hq],
      fun b => ⟨fun h => by rw [State.lendAccess_write_of_no_grant h], fun h => by rw [State.lendAccess_write_of_grant h]⟩⟩
  case answer =>
    refine ⟨fun h => exec_loanAccessReply_of_no_window hup hr h data, fun pa h => ?_⟩
    have hexec := exec_loanAccessReply_of_window hup hr h data
    refine ⟨?_, ?_, ?_⟩
    · rintro rfl
      exact ⟨_, hexec, rfl, rfl, r.loanOut_loanWritten pa false⟩
    · rintro b rfl hb
      rw [hexec]
      cases b with
      | nil => exact absurd rfl hb
      | cons v l => rfl
    · rintro rfl
      exact hexec
  case lender =>
    have hexec := exec_lenderLoanStep hserves hr m
    refine ⟨fun h => by rw [hexec, State.lendLoanStep_of_no_grant h], fun pa hpa => ⟨fun q hq => ?_, fun q hq =>
      ⟨fun hop hrec => ?_, fun l p hrec => ⟨fun hop ht => ?_, fun hop ht hp => ?_, fun h => ?_⟩⟩⟩⟩
    · rw [hexec, State.lendLoanStep_of_lost_record hpa hq]
    · rw [hexec, State.lendLoanStep_commit_of_no_record hpa hq hop hrec]
    · rw [hexec, State.lendLoanStep_commit_of_record hpa hq hrec hop, if_pos ht]
    · rw [hexec, State.lendLoanStep_commit_of_record hpa hq hrec hop, if_neg (by omega), if_pos ⟨ht, hp⟩]
    · rw [State.lendLoanStep_of_mismatch hpa hq hrec h] at hexec
      exact ⟨_, hexec, q.loanMismatch_frame _ m l⟩
  case reply =>
    exact ⟨exec_loanReply_of_no_cmd hup hr, fun k x i h => exec_loanReply_of_cmd hup hr h⟩
  case timeout =>
    refine ⟨exec_loanStepTimeout_of_in_time hx, fun hop hp haux hleft ht hl hs => ?_⟩
    have hrunning : x.phase ≠ .ended := by rcases hp with h | h <;> simp [h]
    exact ⟨_, exec_loanStepTimeout_of_late hx hop hp haux hleft ht, State.loanStepLost_spec hx hrunning hleft hl hs⟩

end Sys2Proof.Machine
end

section
/-!
The end of a REMAP's drain (R261): what the bindings leave in the rings and their registers, and the end of a plan without
units.
-/
namespace Sys2Proof.Machine

theorem keepsRegs.mono {s t : State} {l l' : List Nat} (h : keepsRegs s t l) (hl : l ⊆ l') : keepsRegs s t l' :=
  fun r i hi hr => h r i hi fun hmem => hr (hl hmem)

/-! ### The bindings -/

/-- One binding takes effect: the MASK of its ring, and the ring's effective set. -/
def State.bindRing (c : Nat) (s : State) (b : Nat × Nat) : State :=
  (s.wr F.ctxRingTiles_MASK (ringKey c b.1) b.2).setRing (ringKey c b.1)
    { s.ring (ringKey c b.1) with eff := b.2 &&& s.tilesPresent }

theorem State.applyRemap_eq (s : State) (k : Nat) (d : List Byte) :
    s.applyRemap k d =
      if fieldAt d 1 0 1 = 1 then
        ((remapBinds d).foldl (State.bindRing (k / 64)) s).setReg Reg.ctxMmuRoot (k / 64) (BitVec.ofNat 64 (fieldAt d 8 0 64))
      else (remapBinds d).foldl (State.bindRing (k / 64)) s := rfl

/-- The ring and the mask of a binding fit their fields. -/
theorem remapBinds_lt {d : List Byte} {b : Nat × Nat} (h : b ∈ remapBinds d) : b.1 < 64 ∧ b.2 < 2 ^ 48 := by
  obtain ⟨i, -, rfl⟩ := List.mem_map.mp h
  exact ⟨bitsOf_lt _ 48 6, bitsOf_lt _ 0 48⟩

/-- A binding shows in its ring's MASK and effective set. -/
def State.bound (t : State) (c tiles : Nat) (b : Nat × Nat) : Prop :=
  t.rd F.ctxRingTiles_MASK (ringKey c b.1) = b.2 ∧ (t.ring (ringKey c b.1)).eff = b.2 &&& tiles

theorem State.bound_bindRing (c : Nat) (s : State) {b : Nat × Nat} (hb : b.2 < 2 ^ 48) :
    (s.bindRing c b).bound c s.tilesPresent b :=
  ⟨(s.rd_wr_same F.ctxRingTiles_MASK (ringKey c b.1) b.2 (by decide)).trans (Nat.mod_eq_of_lt hb),
    by rw [State.bindRing, State.ring_setRing_same]⟩

theorem State.bound_of_other_bindRing {c tiles : Nat} {s : State} {a b : Nat × Nat} (hne : b.1 ≠ a.1)
    (h : s.bound c tiles b) (hc : c < 16) (ha : a.1 < 64) (hb : b.1 < 64) : (s.bindRing c a).bound c tiles b := by
  have hk : ringKey c b.1 ≠ ringKey c a.1 := by unfold ringKey; omega
  refine ⟨(s.rd_wr_idx F.ctxRingTiles_MASK F.ctxRingTiles_MASK _ _ a.2 hk ?_ ?_).trans h.1, ?_⟩
  · unfold ringKey; omega
  · unfold ringKey; omega
  · rw [State.bindRing, State.ring_setRing_other _ _ hk]
    exact h.2

theorem State.keepsRegs_bindRing {c : Nat} (hc : c < 16) (s : State) {b : Nat × Nat} (hb : b.1 < 64) :
    keepsRegs s (s.bindRing c b) [Reg.ctxRingTiles] :=
  keepsRegs_of_setReg (by unfold ringKey; omega) rfl

/-- A binding leaves every command in its ring. -/
theorem State.unitCmd_bindRing (c : Nat) (s : State) (b : Nat × Nat) (k n : Nat) :
    (s.bindRing c b).unitCmd k n = s.unitCmd k n := by
  unfold State.unitCmd State.bindRing
  by_cases hk : k = ringKey c b.1
  · rw [hk, State.ring_setRing_same]
  · rw [State.ring_setRing_other _ _ hk]
    rfl

section
variable {c : Nat} (hc : c < 16) {l : List (Nat × Nat)} (hl : ∀ b ∈ l, b.1 < 64 ∧ b.2 < 2 ^ 48)
include hc hl

/-- The bindings leave everything but their rings' registers, and each command in its ring. -/
theorem State.bindRings_frame (s : State) :
    keepsRegs s (l.foldl (State.bindRing c) s) [Reg.ctxRingTiles] ∧ (l.foldl (State.bindRing c) s).mem = s.mem ∧
      ∀ k n, (l.foldl (State.bindRing c) s).unitCmd k n = s.unitCmd k n :=
  List.foldlRecOn (motive := fun t : State => keepsRegs s t [Reg.ctxRingTiles] ∧ t.mem = s.mem ∧
      ∀ k n, t.unitCmd k n = s.unitCmd k n) _ _ ⟨fun _ _ _ _ => rfl, rfl, fun _ _ => rfl⟩
    fun t ⟨hregs, hmem, hcmd⟩ b hb => ⟨fun r i hi hr =>
      (State.keepsRegs_bindRing hc t (hl b hb).1 r i hi hr).trans (hregs r i hi hr), hmem,
      fun k n => (t.unitCmd_bindRing c b k n).trans (hcmd k n)⟩

theorem State.bound_of_other_bindRings {tiles : Nat} {s : State} {b : Nat × Nat} (hb : b.1 < 64) (hnot : b.1 ∉ l.map (·.1))
    (h : s.bound c tiles b) : (l.foldl (State.bindRing c) s).bound c tiles b :=
  List.foldlRecOn (motive := fun t : State => t.bound c tiles b) _ _ h fun _ ht a ha =>
    State.bound_of_other_bindRing (fun he => hnot (List.mem_map.mpr ⟨a, ha, he.symm⟩)) ht hc (hl a ha).1 hb

/-- Bindings of distinct rings all show at the end. -/
theorem State.bound_bindRings (hn : (l.map (·.1)).Nodup) (s : State) :
    ∀ b ∈ l, (l.foldl (State.bindRing c) s).bound c s.tilesPresent b := by
  induction l generalizing s with
  | nil => exact fun b hb => nomatch hb
  | cons a l ih =>
    rw [List.map_cons, List.nodup_cons] at hn
    have hl' : ∀ b ∈ l, b.1 < 64 ∧ b.2 < 2 ^ 48 := fun b hb => hl b (List.mem_cons_of_mem a hb)
    obtain ⟨hring, hmask⟩ := hl a List.mem_cons_self
    intro b hb
    rcases List.mem_cons.mp hb with rfl | hb
    · exact State.bound_of_other_bindRings hc hl' hring hn.1 (s.bound_bindRing c hmask)
    · have htiles : (s.bindRing c a).tilesPresent = s.tilesPresent :=
        s.rd_wr_ne F.ctxRingTiles_MASK F.hubCapTiles_PRESENT _ 0 a.2 (by decide) (by unfold ringKey; omega) (by decide)
      rw [← htiles]
      exact ih hl' hn.2 (s.bindRing c a) b hb

end

/-- What the bindings and the view of a REMAP leave (R261 step 4). -/
theorem State.applyRemap_spec (s : State) {k : Nat} (hk : k < 1024) {d : List Byte} (hn : ((remapBinds d).map (·.1)).Nodup) :
    (∀ b ∈ remapBinds d, (s.applyRemap k d).bound (k / 64) s.tilesPresent b) ∧
    (s.applyRemap k d).reg Reg.ctxMmuRoot (k / 64) =
      (if fieldAt d 1 0 1 = 1 then BitVec.ofNat 64 (fieldAt d 8 0 64) else s.reg Reg.ctxMmuRoot (k / 64)) ∧
    keepsRegs s (s.applyRemap k d) [Reg.ctxRingTiles, Reg.ctxMmuRoot] ∧ (s.applyRemap k d).mem = s.mem ∧
    ∀ j n, (s.applyRemap k d).unitCmd j n = s.unitCmd j n := by
  have hc : k / 64 < 16 := by omega
  have hbound := State.bound_bindRings hc (fun _ => remapBinds_lt) hn s
  obtain ⟨hregs, hmem, hcmd⟩ := State.bindRings_frame hc (fun _ => remapBinds_lt (d := d)) s
  rw [State.applyRemap_eq]
  generalize (remapBinds d).foldl (State.bindRing (k / 64)) s = t at hbound hregs hmem hcmd
  split
  · refine ⟨fun b hb => ⟨?_, (hbound b hb).2⟩, State.reg_setReg_same _ _ _ _,
      keepsRegs.trans hregs (keepsRegs_of_setReg (by omega) rfl), hmem, hcmd⟩
    have hring := (remapBinds_lt hb).1
    rw [← (hbound b hb).1]
    unfold State.rd
    rw [State.reg_setReg_other]
    rw [Ne, regKey_inj (by unfold ringKey; omega) (by omega)]
    exact fun he => absurd he.1 (by decide)
  · exact ⟨hbound, hregs _ _ (by omega) (by decide), hregs.mono (by simp), hmem, hcmd⟩

/-! ### The end of a plan without units -/

/-- A plan without units or late units, and with no status of its own, ends its command. -/
theorem State.runPlan_of_no_units {s : State} {k : Nat} {x y : Cmd} {p : Plan} (hu : p.units = []) (hl : p.late = fun _ => [])
    (hf : p.fin = fun _ s => (s, St.ok)) (hy : s.unitCmd k x.count = some y) (hs : y.stalls = []) :
    s.runPlan k x p = s.endCmd k y St.ok := by
  have hlate : s.runLate k x.count p = s := by
    unfold State.runLate
    rw [show (s.ring k).cmds.find? (fun z => z.count == x.count) = some y from hy]
    simp [hl, State.runUnits]
  have hrest : s.runRest k x.count p = s := by
    unfold State.runRest
    rw [hy]
    simp [hu, State.runUnits]
  have hunits : s.runUnits k x.count p p.units = s := by rw [hu]; rfl
  unfold State.runPlan State.settle
  rw [hunits, hrest, hlate, hlate]
  simp [hy, hs, hf]

theorem State.eff_updCmd (s : State) (k n : Nat) (f : Cmd → Cmd) (j : Nat) : ((s.updCmd k n f).ring j).eff = (s.ring j).eff := by
  by_cases hj : j = k
  · rw [hj, State.updCmd, State.ring_setRing_same]
  · rw [State.updCmd, State.ring_setRing_other _ _ hj]

theorem State.eff_armRing (s : State) (k j : Nat) : ((s.armRing k).ring j).eff = (s.ring j).eff := by
  unfold State.armRing
  dsimp only
  split
  · by_cases hj : j = k
    · rw [hj, State.ring_setRing_same]
    · rw [State.ring_setRing_other _ _ hj]
  · rfl

theorem State.eff_endCmd (s : State) (k : Nat) {x : Cmd} (hx : x.untouched) (j : Nat) :
    ((s.endCmd k x St.ok).ring j).eff = (s.ring j).eff := by
  obtain ⟨u, m, he⟩ := s.endCmd_of_untouched k hx
  rw [he, State.finishCmd, State.eff_armRing, State.eff_updCmd, State.eff_updCmd]
  rfl

/-- Wake requests for the domains of rings leave everything but the power domains. -/
theorem State.wakeRings_frame (s : State) (l : List Nat) :
    keepsRegs s (l.foldl (fun s r => (s.ringDomains r).foldl State.askWake s) s) [Reg.pwrDomStatus] ∧
    (l.foldl (fun s r => (s.ringDomains r).foldl State.askWake s) s).mem = s.mem ∧
    (l.foldl (fun s r => (s.ringDomains r).foldl State.askWake s) s).rings = s.rings :=
  List.foldlRecOn (motive := fun t : State => keepsRegs s t [Reg.pwrDomStatus] ∧ t.mem = s.mem ∧ t.rings = s.rings) _ _
    ⟨fun _ _ _ _ => rfl, rfl, rfl⟩ fun t ⟨hregs, hmem, hrings⟩ r _ => by
      obtain ⟨hregs', hmem', hrings'⟩ := t.askWakes_frame (t.ringDomains r)
      exact ⟨fun r i hi hr => (hregs' r i hi hr).trans (hregs r i hi hr), hmem'.trans hmem, hrings'.trans hrings⟩

/-! ### The drain's end -/

/-- The command of a REMAP whose bindings stand, as the rest of the REMAP finds it. -/
def Cmd.remapping (x : Cmd) (tiles : List Nat) : Cmd :=
  { x with phase := .stalled, counts := fieldAt x.desc 2 0 8 * 2 ^ 59, tiles := tiles }

/-- The state in which the bindings of a REMAP stand and its command goes on. -/
def State.remapBound (s : State) (k : Nat) (x : Cmd) : State :=
  let t := ((s.invalidate (k / 64) 0 0).applyRemap k x.desc).updCmd k x.count
    (fun y => { y with phase := .stalled, counts := fieldAt x.desc 2 0 8 * 2 ^ 59 })
  t.updCmd k x.count (fun y => { y with tiles := t.effTiles k })

section
variable {s : State} {k : Nat} {x : Cmd}

theorem State.remapDrainEnd_of_not_drained (h : s.remapDrained k x = false) : s.remapDrainEnd k x = s :=
  if_neg (by simp [h])

theorem remapMoves_of_none (h : fieldAt x.desc 3 0 8 = 0) : remapMoves x.desc = [] := by
  simp [remapMoves, h]

theorem State.unitCmd_remapBound (hx : s.unitCmd k x.count = some x) (hk : k < 1024)
    (hn : ((remapBinds x.desc).map (·.1)).Nodup) :
    ∃ tiles, (s.remapBound k x).unitCmd k x.count = some (x.remapping tiles) := by
  obtain ⟨-, -, -, -, hcmd⟩ := (s.invalidate (k / 64) 0 0).applyRemap_spec hk hn
  have hstalled := State.unitCmd_updCmd ((hcmd k x.count).trans hx)
    (f := fun y => { y with phase := .stalled, counts := fieldAt x.desc 2 0 8 * 2 ^ 59 }) fun _ h => h
  exact ⟨_, State.unitCmd_updCmd hstalled fun _ h => h⟩

/-- A REMAP that moves nothing ends once its bindings stand; then the domains of its rings are asked to wake. -/
theorem State.remapDrainEnd_of_no_moves (hk : k < 1024) (hx : s.unitCmd k x.count = some x) (hu : x.untouched)
    (hop : x.opcode = 0x00A1) (hp : x.phase = .waiting) (hd : s.remapDrained k x = true) (ha : s.ctxState (k / 64) = Ctx.active)
    (hm : fieldAt x.desc 3 0 8 = 0) (hn : ((remapBinds x.desc).map (·.1)).Nodup) :
    ∃ t : State, s.remapDrainEnd k x = (remapRings k x.desc).foldl (fun s r => (s.ringDomains r).foldl State.askWake s) t ∧
      t.endedOk k x ∧ t.regs = ((s.invalidate (k / 64) 0 0).applyRemap k x.desc).regs ∧
      t.mem = ((s.invalidate (k / 64) 0 0).applyRemap k x.desc).mem ∧
      ∀ j, (t.ring j).eff = (((s.invalidate (k / 64) 0 0).applyRemap k x.desc).ring j).eff := by
  obtain ⟨tiles, hy⟩ := State.unitCmd_remapBound hx hk hn
  have hyu : (x.remapping tiles).untouched := hu
  have hstalls : (x.remapping tiles).stalls = [] := by
    obtain ⟨-, -, -, hstalls, -⟩ := hyu
    exact hstalls
  have hplan := State.runPlan_of_no_units (p := remapPlan x.desc ((s.remapBound k x).effTiles k))
    (by simp [remapPlan, remapMoves_of_none hm, tileUnits]) rfl rfl hy hstalls
  obtain ⟨hregs, hmem, -⟩ := (s.remapBound k x).endCmd_frame k hyu
  refine ⟨_, ?_, State.endedOk_endCmd (x := x.remapping tiles) hyu hy rfl rfl, hregs, hmem, fun j =>
    ((State.eff_endCmd _ k hyu j).trans (State.eff_updCmd _ _ _ _ _)).trans (State.eff_updCmd _ _ _ _ _)⟩
  rw [← hplan, State.remapDrainEnd, if_pos ⟨hop, hp, hd, ha⟩]
  dsimp only
  rw [if_neg (fun h => h.1 (remapMoves_of_none hm)), State.remapBound]

/-- What the end of the drain of a REMAP without moves leaves (R261). -/
theorem State.remapDrainEnd_spec (hk : k < 1024) (hx : s.unitCmd k x.count = some x) (hu : x.untouched) (hop : x.opcode = 0x00A1)
    (hp : x.phase = .waiting) (hd : s.remapDrained k x = true) (ha : s.ctxState (k / 64) = Ctx.active)
    (hm : fieldAt x.desc 3 0 8 = 0) (hn : ((remapBinds x.desc).map (·.1)).Nodup) :
    (s.remapDrainEnd k x).endedOk k x ∧
    (∀ b ∈ remapBinds x.desc, (s.remapDrainEnd k x).bound (k / 64) s.tilesPresent b) ∧
    (s.remapDrainEnd k x).reg Reg.ctxMmuRoot (k / 64) =
      (if fieldAt x.desc 1 0 1 = 1 then BitVec.ofNat 64 (fieldAt x.desc 8 0 64) else s.reg Reg.ctxMmuRoot (k / 64)) ∧
    (s.remapDrainEnd k x).mem = s.mem ∧
    keepsRegs s (s.remapDrainEnd k x) [Reg.ctxRingTiles, Reg.ctxMmuRoot, Reg.pwrDomStatus] := by
  obtain ⟨t, ht, hended, hregs, hmem, heff⟩ := State.remapDrainEnd_of_no_moves hk hx hu hop hp hd ha hm hn
  obtain ⟨hbound, hroot, hkept, hmem', -⟩ := (s.invalidate (k / 64) 0 0).applyRemap_spec hk hn
  obtain ⟨hwoken, hmemw, hrings⟩ := t.wakeRings_frame (remapRings k x.desc)
  rw [ht]
  generalize (remapRings k x.desc).foldl (fun s r => (s.ringDomains r).foldl State.askWake s) t = u at hwoken hmemw hrings
  have happlied : keepsRegs ((s.invalidate (k / 64) 0 0).applyRemap k x.desc) u [Reg.pwrDomStatus] := fun r i hi hr =>
    (hwoken r i hi hr).trans (State.reg_of_regs hregs r i)
  refine ⟨State.endedOk_of_rings hrings hended, fun b hb => ⟨?_, ?_⟩, (happlied _ _ (by omega) (by decide)).trans hroot,
    hmemw.trans (hmem.trans hmem'), keepsRegs.trans hkept happlied⟩
  · have hring := (remapBinds_lt hb).1
    rw [← (hbound b hb).1]
    unfold State.rd
    rw [happlied _ _ (by unfold ringKey; omega) (by decide)]
  · rw [State.ring, hrings]
    exact (heff _).trans (hbound b hb).2

end

/-- Settles O53: the drain's end is the bindings, the view, and the end of a plan without units. -/
theorem remapEnds : Obligations.RemapEnds := by
  unfold Obligations.RemapEnds
  intro id s x hx hop hp
  have hexec : exec (.remapDrainEnd id) s = .next (s.remapDrainEnd (CmdKey id) x) := by
    show execRemapDrainEnd id s = _
    simp only [execRemapDrainEnd, hx]
  have hcount : x.count = id.count.toNat := State.count_of_unitCmd hx
  have hunit : s.unitCmd (CmdKey id) x.count = some x := by rw [hcount]; exact hx
  refine ⟨fun hd => by rw [hexec, State.remapDrainEnd_of_not_drained hd], fun hd ha hm hu hn => ⟨_, hexec, ?_⟩⟩
  obtain ⟨⟨y, hy, hphase, hstatus, hrecord, -⟩, hbound, hrest⟩ := State.remapDrainEnd_spec (CmdKey_lt id) hunit hu hop hp hd
    (by rw [CmdKey_div]; exact ha) hm hn
  rw [CmdKey_div] at hbound hrest
  exact ⟨⟨y, by rw [State.cmd_eq_unitCmd, ← hcount]; exact hy, hphase, hstatus, hrecord⟩, hbound, hrest⟩

end Sys2Proof.Machine
end

section
/-!
What an access of the network engine to a context's memory leaves (R332, R337, R452): a translation, the granules read and
written, and the resolution of a fault change the memories, the caches and the counts of faults; rings and the other
registers stand.
-/
namespace Sys2Proof.Machine

/-- The registers that an access through a translation may change. -/
abbrev accessRegs : List Nat := Reg.ctxFaultCounts :: Reg.ctxFaultLog :: Reg.netLoanWin :: toldRegs

/-- `t` is `s` as an access may leave it. -/
structure Accessed (s t : State) : Prop where
  rings : t.rings = s.rings
  regs : keepsRegs s t accessRegs

section
variable {s t u : State}

theorem Accessed.refl (s : State) : Accessed s s := ⟨rfl, fun _ _ _ _ => rfl⟩

theorem Accessed.trans (h : Accessed s t) (k : Accessed t u) : Accessed s u :=
  ⟨k.rings.trans h.rings, fun r i hi hr => (k.regs r i hi hr).trans (h.regs r i hi hr)⟩

theorem Accessed.of_eq (hrings : t.rings = s.rings) (hregs : t.regs = s.regs) : Accessed s t :=
  ⟨hrings, fun r i _ _ => State.reg_of_regs hregs r i⟩

theorem Told.accessed (h : Told s t) : Accessed s t :=
  ⟨h.same State.rings fun _ => rfl, keepsRegs.mono h.regs (by simp)⟩

theorem Accessed.setReg (s : State) {r i : Nat} (w : Word) (hi : i < 1048576) (hr : r ∈ accessRegs) :
    Accessed s (s.setReg r i w) :=
  ⟨rfl, keepsRegs.mono (keepsRegs_of_setReg hi rfl) (by simpa using hr)⟩

theorem Accessed.count (s : State) (f : Fld) {i : Nat} (n : Nat) (hi : i < 1048576) (hf : f.reg ∈ accessRegs) :
    Accessed s (s.count f i n) :=
  .setReg s _ hi hf

theorem Accessed.foldl {α : Type} {f : State → α → State} (hf : ∀ t a, Accessed t (f t a)) (l : List α) (s : State) :
    Accessed s (l.foldl f s) :=
  List.foldlRecOn _ _ (.refl s) fun _ ht a _ => ht.trans (hf _ a)

end

/-! ### Translation (R327 to R333) -/

theorem Accessed.checkGran (s : State) (pa : Nat) : Accessed s (s.checkGran pa).2 :=
  ((Told.touch s _ s).trans (Told.judgeGran _ pa _ (s.place_stack_lt (pa / 64 * 64)))).accessed

theorem Accessed.walkAt (va f tab : Nat) (s : State) : Accessed s (State.walkAt va f tab s).2.2 := by
  induction f generalizing tab s with
  | zero => exact .refl s
  | succ f ih =>
    have hg := Accessed.checkGran s (tab + 8 * bitsOf va (16 + 9 * f) 9)
    simp only [State.walkAt]
    split
    · split
      next h => rw [h] at hg; exact hg
      next h =>
        rw [h] at hg
        split
        · split <;> exact hg
        · split
          · exact hg
          · split
            · exact hg
            · exact hg.trans (ih _ _)
    · exact .refl s

theorem Accessed.victim (s : State) (n size : Nat) : Accessed s (s.victim n size).2 := by
  unfold State.victim
  split <;> exact .of_eq rfl rfl

theorem Accessed.addTop (s : State) (die c va : Nat) (t : Nat × Nat) : Accessed s (s.addTop die c va t) := by
  unfold State.addTop
  dsimp only
  split
  · exact .refl s
  · exact (Accessed.victim s _ _).trans (.of_eq rfl rfl)

theorem Accessed.addLeaf (s : State) (who c va pte entry : Nat) : Accessed s (s.addLeaf who c va pte entry) :=
  (Accessed.victim s _ _).trans (.of_eq rfl rfl)

theorem Accessed.walk (s : State) (w : Walker) (va : Nat) : Accessed s (s.walk w va).2 := by
  have hw := fun f tab => Accessed.walkAt va f tab s
  have htops := fun (die : Nat) (ts : List (Nat × Nat)) (u : State) =>
    Accessed.foldl (f := fun s t => s.addTop die w.ctx va t) (fun t e => Accessed.addTop t die w.ctx va e) ts u
  unfold State.walk
  dsimp only
  split
  · exact hw _ _
  · exact hw _ _
  · exact ((hw _ _).trans (htops _ _ _)).trans (Accessed.addLeaf _ _ _ _ _ _)
  · exact (hw _ _).trans (htops _ _ _)

theorem Accessed.xlat (s : State) (w : Walker) (va : Nat) (k : AccKind) : Accessed s (s.xlat w va k).2 := by
  unfold State.xlat
  dsimp only
  split
  · exact .refl s
  · split
    · exact .refl s
    · split
      · exact .refl s
      · have hw := Accessed.walk s w va
        split
        all_goals
          next h => rw [h] at hw; exact hw

/-! ### The accesses of a unit -/

/-- A packet sent leaves rings and registers. -/
theorem Accessed.sendGct (s : State) (c : Nat) (m : GctMsg) : Accessed s (s.sendGct c m) :=
  .of_eq (State.sendGct_rings s c m) (State.sendGct_regs s c m)

theorem Accessed.askLoan (s : State) (w off : Nat) (write : Option (List Byte)) : Accessed s (s.askLoan w off write) := by
  unfold State.askLoan
  cases write <;> exact .sendGct _ _ _

@[simp] theorem Acc.s_addLost (a : Acc) (g : Nat) : (a.addLost g).s = a.s := by
  unfold Acc.addLost
  split <;> rfl

@[simp] theorem Acc.s_addFault (a : Acc) (f : Flt) : (a.addFault f).s = a.s := by
  unfold Acc.addFault
  split <;> rfl

theorem Accessed.accXlat (a : Acc) (va : Nat) (k : AccKind) : Accessed a.s (a.xlat va k).2.s := Accessed.xlat a.s _ va k

theorem Accessed.readIn (a : Acc) (va n : Nat) : Accessed a.s (a.readIn va n).2.s := by
  have hx := Accessed.accXlat a va .read
  unfold Acc.readIn
  dsimp only
  split
  next h => rw [h] at hx; simpa using hx
  next h => rw [h] at hx; simpa using hx
  next pa _ b h =>
    rw [h] at hx
    have hg := hx.trans (Accessed.checkGran b.s pa)
    split
    · split
      · simpa using hx
      · split
        · exact hx
        · simpa using hx
    · split
      · simpa using hg
      · exact hg

theorem Accessed.read (f : Nat) (a : Acc) (va n : Nat) : Accessed a.s (Acc.read f a va n).2.s := by
  induction f generalizing a va n with
  | zero => exact .refl _
  | succ f ih =>
    cases n with
    | zero => exact .refl _
    | succ n => exact (Accessed.readIn a va _).trans (ih _ _ _)

theorem Accessed.writeIn (a : Acc) (k : AccKind) (va : Nat) (bs : List Byte) : Accessed a.s (a.writeIn k va bs).s := by
  have hx := Accessed.accXlat a va k
  unfold Acc.writeIn
  split
  · exact .refl _
  · split
    next h => rw [h] at hx; simpa using hx
    next h => rw [h] at hx; simpa using hx
    next pa _ b h =>
      replace hx : Accessed a.s b.s := by rw [h] at hx; exact hx
      split
      · exact hx.trans (.askLoan b.s _ _ (some bs))
      · have hg := hx.trans (Told.writeGran b.s pa bs).accessed
        dsimp only
        split <;> exact hg

/-- Work that leaves its state as an access may leave it. -/
def OnlyAccesses {α : Type} (m : U α) : Prop := ∀ a, Accessed a.s (m.run a).2.s

theorem OnlyAccesses.pure {α : Type} (v : α) : OnlyAccesses (pure v : U α) := fun a => .refl a.s

theorem OnlyAccesses.bind {α β : Type} {m : U α} {f : α → U β} (hm : OnlyAccesses m) (hf : ∀ v, OnlyAccesses (f v)) :
    OnlyAccesses (m >>= f) :=
  fun a => (hm a).trans (hf (m.run a).1 (m.run a).2)

theorem onlyAccesses_uRead (va n : Nat) : OnlyAccesses (uRead va n) := fun a => Accessed.read _ a va n

theorem onlyAccesses_uProbe (k : AccKind) (va n : Nat) : OnlyAccesses (uProbe k va n) := fun a =>
  List.foldlRecOn (motive := fun b : Acc => Accessed a.s b.s) _ _ (.refl _) fun b hb v _ => by
    have hx := hb.trans (Accessed.accXlat b v k)
    split
    next h => rw [h] at hx; simpa using hx
    next h => rw [h] at hx; simpa using hx
    next h => rw [h] at hx; exact hx

theorem onlyAccesses_uWrite (va : Nat) (bs : List Byte) : OnlyAccesses (uWrite va bs) := fun a =>
  List.foldlRecOn (motive := fun b : Acc => Accessed a.s b.s) _ _ (.refl _) fun b hb g _ =>
    hb.trans (Accessed.writeIn b _ g.1 g.2)

theorem onlyAccesses_winWork (va n : Nat) (write : Option (List Byte)) : OnlyAccesses (winWork va n write) := by
  cases write with
  | none => exact onlyAccesses_uRead va n
  | some bs =>
    refine .bind (onlyAccesses_uProbe .write va n) fun _ => .bind (fun a => .refl a.s) fun ok => ?_
    cases ok with
    | false => exact .pure _
    | true => exact .bind (onlyAccesses_uWrite va bs) fun _ => .pure _

/-! ### The resolution of a fault (R337, R338) -/

theorem Accessed.raise (s : State) {n : Ntc} (hn : n.named) : Accessed s (s.raise n) := (s.raise_told n hn).accessed

/-- A notice that names no context, or one of the sixteen. -/
theorem named_of_ctx {n : Ntc} {c : Nat} (h : n.ctx = some c) (hc : c < 16) : n.named := fun _ hx =>
  Option.some.inj (h.symm.trans hx) ▸ hc

theorem named_of_no_ctx {n : Ntc} (h : n.ctx = none) : n.named := fun _ hx => nomatch h.symm.trans hx

theorem Accessed.tellUncorrectable (s : State) (pa : Nat) : Accessed s (s.tellUncorrectable pa) := by
  unfold State.tellUncorrectable
  dsimp only
  split
  · exact .raise _ (named_of_no_ctx rfl)
  · exact .raise _ (named_of_no_ctx rfl)
  · exact .refl s

theorem Accessed.poisonGran (s : State) (pa : Nat) : Accessed s (s.poisonGran pa) := by
  unfold State.poisonGran
  dsimp only
  split
  · split
    · unfold State.cacheForget
      dsimp only
      split <;> exact .of_eq rfl rfl
    · exact .of_eq rfl rfl
  · exact .refl s

theorem Accessed.freeBytes (s : State) (n : Nat) : Accessed s (s.freeBytes n).2 := .of_eq rfl rfl

theorem Accessed.copyPage (src dst n : Nat) (s : State) : Accessed s (s.copyPage src dst n) := by
  induction n with
  | zero => exact .refl s
  | succ n ih =>
    rw [State.copyPage]
    dsimp only
    generalize s.copyPage src dst n = t at ih
    split
    · exact (ih.trans (.freeBytes t 64)).trans (Told.writeGran _ _ _).accessed
    · have hg := ih.trans (Accessed.checkGran t (src + 64 * n))
      split
      · exact (hg.trans (Accessed.poisonGran _ _)).trans (Accessed.tellUncorrectable _ _)
      · exact hg.trans (Told.writeGran _ _ _).accessed

theorem Accessed.invalidate (s : State) (c vpn count : Nat) : Accessed s (s.invalidate c vpn count) := .of_eq rfl rfl

theorem Accessed.poolWord (s : State) (w : Walker) (va : Nat) (k : AccKind) : Accessed s (s.poolWord w va k).2 := by
  have hx := Accessed.xlat s w va k
  unfold State.poolWord
  split
  next h =>
    rw [h] at hx
    split
    · exact hx.trans (Accessed.checkGran _ _)
    · exact hx
  next h => rw [h] at hx; exact hx

theorem Accessed.popFrame (s : State) (w : Walker) (pool : Nat) : Accessed s (s.popFrame w pool).2 := by
  have hhead := Accessed.poolWord s w pool .atomic
  unfold State.popFrame
  split
  · exact .refl s
  · split
    next h => rw [h] at hhead; exact hhead
    next h t h' =>
      rw [h'] at hhead
      dsimp only
      split
      · exact hhead
      · have hentry := hhead.trans (Accessed.poolWord t w (pool + 8 + 4 * (leNat (t.peekN h 4) - 1)) .read)
        split
        next h'' => rw [h''] at hentry; exact hentry
        next h'' => rw [h''] at hentry; exact hentry.trans (Told.writePhys _ _ _).accessed

theorem Accessed.resolveCow (s : State) {c : Nat} (hc : c < 16) (st : Stall) : Accessed s (s.resolveCow c st).2 := by
  have hpop := Accessed.popFrame s { cache := some (48 + resolver st.src), ctx := c, root := s.root c }
    (s.rd F.ctxFramePool_ADDR c)
  unfold State.resolveCow
  dsimp only
  split
  next h => rw [h] at hpop; exact hpop
  next frame t h =>
    rw [h] at hpop
    have hcopied : Accessed s ((t.copyPage (Pte.addr st.entry) frame 1024).invalidate c (st.va / 65536) 1) :=
      (hpop.trans (Accessed.copyPage _ _ _ t)).trans (.invalidate _ _ _ _)
    split
    · exact hcopied.trans (Told.writePhys _ _ _).accessed
    · exact (hcopied.trans (Told.writePhys _ _ _).accessed).trans (.count _ _ _ (by omega) (by decide))

theorem Accessed.tellLoss (s : State) {c : Nat} (hc : c < 16) (unit pa n : Nat) : Accessed s (s.tellLoss c unit pa n) :=
  (Accessed.raise s (named_of_ctx rfl hc)).trans (Accessed.tellUncorrectable _ pa)

theorem Accessed.tellFault (s : State) {c : Nat} (hc : c < 16) (unit : Nat) (f : Flt) (cause tag : Nat) :
    Accessed s (s.tellFault c unit f cause tag) := by
  have hi : c < 1048576 := by omega
  have hcount : Accessed s (s.count F.ctxFaultCounts_FATAL c 1) := .count s _ _ hi (by decide)
  unfold State.tellFault
  dsimp only
  generalize s.count F.ctxFaultCounts_FATAL c 1 = t at hcount
  split
  · exact hcount.trans (.raise _ (named_of_ctx rfl hc))
  · exact (hcount.trans (.setReg t _ hi (by decide))).trans (.raise _ (named_of_ctx rfl hc))

/-- A loan window is one of the sixteen (R285). -/
theorem State.place_loan_lt {s : State} {pa w o : Nat} (h : s.place pa = .loan w o) : w < 16 := by
  unfold State.place at h
  split at h
  · split at h <;> cases h
  · split at h
    · dsimp only at h
      split at h <;> cases h
    · split at h
      · obtain ⟨rfl, -⟩ := Place.loan.inj h
        omega
      · split at h
        · cases h
        · split at h <;> cases h

theorem Accessed.beginBind (s : State) {w : Nat} (hw : w < 16) : Accessed s (s.beginBind w) := by
  unfold State.beginBind
  split
  · exact .refl s
  · dsimp only
    split
    · exact (Accessed.setReg s _ (by omega) (by decide)).trans (.sendGct _ _ _)
    · exact .raise s (named_of_ctx rfl (bitsOf_lt _ _ 4))

theorem Accessed.onStall (s : State) (st : Stall) : Accessed s (s.onStall st) := by
  unfold State.onStall
  split
  · split
    · exact .askLoan s _ _ _
    · exact .refl s
  · split
    next h => exact .beginBind s (State.place_loan_lt h)
    · exact .refl s
  · exact .refl s

/-! ### The access of the network engine (R452) -/

theorem Accessed.winAccess {c : Nat} (hc : c < 16) (va n : Nat) (write : Option (List Byte)) (f : Nat) (s : State) (buf : Mem)
    (got : List Nat) : Accessed s (State.winAccess c va n write f s buf got).2 := by
  induction f generalizing s buf got with
  | zero => exact .refl s
  | succ f ih =>
    have hw := onlyAccesses_winWork va n write { s := s, root := s.root c, loanBuf := buf, loanHave := got }
    rw [State.winAccess]
    generalize (winWork va n write).run { s := s, root := s.root c, loanBuf := buf, loanHave := got } = r at hw
    obtain ⟨bs, a⟩ := r
    dsimp only at hw ⊢
    split
    · split
      · split
        · exact hw.trans (.tellLoss _ hc _ _ _)
        · exact hw
      · exact hw
    · split
      · exact hw.trans (.tellFault _ hc _ _ _ _)
      · next e h _ _ =>
        have hcow := hw.trans (Accessed.resolveCow a.s hc (stallOf a.s 0 Unit.hub .cow e false))
        split
        · exact hcow.trans (ih _ _ _)
        · exact hcow.trans (.tellFault _ hc _ _ _ _)
      · exact (hw.trans (.freeBytes _ 64)).trans (ih _ _ _)
      · exact hw.trans (.onStall _ _)

end Sys2Proof.Machine
end

section
/-!
Step commit (R265 to R273): the command of a context that waits at a stage, through the operations that arm and release the
commands of rings; and what a READY leaves of a member's CURRENT and STATE.
-/
namespace Sys2Proof.Machine

/-! ### The command at a stage (R270) -/

/-- A STEP_COMMIT that waits, and is as `p` says. -/
def Cmd.commitAt (p : Cmd → Bool) (x : Cmd) : Bool :=
  x.phase == .waiting && x.opcode == 0x0061 && x.aux.headD 0 == 3 && p x

/-- The STEP_COMMIT waits for READY. -/
def Cmd.awaitsReady (x : Cmd) : Bool := x.commitAt fun y => y.stepStage == 0

/-- No STEP_COMMIT of the context is as `p` says. -/
def noCommit (rings : Tbl Ring) (c : Nat) (p : Cmd → Bool) : Prop :=
  ∀ e ∈ rings, e.1 / 64 = c → ∀ x ∈ e.2.cmds, x.commitAt p = false

theorem State.stepCmd_eq_none {s : State} {c : Nat} {p : Cmd → Bool} : s.stepCmd c p = none ↔ noCommit s.rings c p := by
  rw [State.stepCmd, List.head?_eq_none_iff, List.flatMap_eq_nil_iff]
  refine forall₂_congr fun e _ => ?_
  split
  next h => simp [h, Cmd.commitAt, List.filter_eq_nil_iff]
  next h => simp [h]

theorem State.stepCmd_eq_some {s : State} {c k : Nat} {p : Cmd → Bool} {x : Cmd} (h : s.stepCmd c p = some (k, x)) :
    x.phase = .waiting ∧ p x = true := by
  have hm := List.mem_of_head? h
  obtain ⟨e, -, he⟩ := List.mem_flatMap.mp hm
  split at he
  · obtain ⟨y, hy, hyx⟩ := List.mem_map.mp he
    obtain ⟨-, rfl⟩ := Prod.mk.inj hyx
    have hp := (List.mem_filter.mp hy).2
    simp only [Bool.and_eq_true, beq_iff_eq] at hp
    exact ⟨hp.1.1.1, hp.2⟩
  · cases he

theorem Cmd.awaitsReady_of_phase {x : Cmd} (h : x.phase ≠ .waiting) : x.awaitsReady = false := by
  simp [Cmd.awaitsReady, Cmd.commitAt, h]

theorem State.awaitsReady_latch (s : State) (c : Nat) (x : Cmd) : (s.latch c x).awaitsReady = x.awaitsReady := by
  unfold State.latch
  split <;> rfl

theorem State.phase_latch (s : State) (c : Nat) (x : Cmd) : (s.latch c x).phase = x.phase := by
  unfold State.latch
  split <;> rfl

/-- Arming makes no command wait for READY. -/
theorem State.awaitsReady_armList (s : State) (k : Nat) (l : List Cmd) (seen : List Nat)
    (hl : ∀ x ∈ l, x.awaitsReady = false) : ∀ x ∈ s.armList k l seen, x.awaitsReady = false := by
  induction l generalizing seen with
  | nil => exact fun x hx => nomatch hx
  | cons a l ih =>
    have hrest := fun seen => ih seen fun x hx => hl x (List.mem_cons_of_mem a hx)
    have hcons : ∀ (b : Cmd) (seen : List Nat), b.awaitsReady = false → ∀ x ∈ b :: s.armList k l seen, x.awaitsReady = false :=
      fun b seen hb => List.forall_mem_cons.mpr ⟨hb, hrest seen⟩
    rw [State.armList]
    split
    · exact hcons _ _ (hl a List.mem_cons_self)
    next h =>
      rw [not_or, not_not] at h
      have harmed : (if a.armed then a else s.arm (k / 64) a).phase = .fetched := by
        split
        · exact h.1
        · exact (s.phase_latch _ _).trans h.1
      dsimp only
      generalize (if a.armed then a else s.arm (k / 64) a) = b at harmed
      split
      · exact hcons _ _ rfl
      · exact hcons b _ (Cmd.awaitsReady_of_phase (by simp [harmed]))

theorem mem_of_look {β : Type} {t : Tbl β} {k : Nat} {v : β} (h : look t k = some v) : (k, v) ∈ t := by
  induction t with
  | nil => cases h
  | cons e t ih =>
    obtain ⟨a, b⟩ := e
    rw [look] at h
    split at h
    next hk =>
      obtain rfl := Option.some.inj h
      exact hk ▸ List.mem_cons_self
    next => exact List.mem_cons_of_mem _ (ih h)

/-- No STEP_COMMIT of the context waits for READY. -/
def State.noneAwaitsReady (s : State) (c : Nat) : Prop := noCommit s.rings c fun x => x.stepStage == 0

section
variable {s : State} {c : Nat} (h : s.noneAwaitsReady c)
include h

theorem State.noneAwaitsReady_mapCmds {f : Nat → Cmd → Cmd}
    (hf : ∀ k x, x.awaitsReady = false → (f k x).awaitsReady = false) : (s.mapCmds f).noneAwaitsReady c := by
  intro e he hc x hx
  obtain ⟨d, hd, rfl⟩ := List.mem_map.mp he
  obtain ⟨y, hy, rfl⟩ := List.mem_map.mp hx
  exact hf _ y (h d hd hc y hy)

theorem State.noneAwaitsReady_release : s.release.noneAwaitsReady c := by
  refine State.noneAwaitsReady_mapCmds h fun k x hx => ?_
  split
  · exact hx
  · split
    · split
      · exact Cmd.awaitsReady_of_phase (by simp [Cmd.endWith])
      · split
        · exact Cmd.awaitsReady_of_phase (by simp [Cmd.endWith])
        · exact hx
    · rwa [s.awaitsReady_latch]

theorem State.noneAwaitsReady_armRing (k : Nat) : (s.armRing k).noneAwaitsReady c := by
  unfold State.armRing
  dsimp only
  split
  · intro e he hc x hx
    rcases mem_put _ _ _ e he with rfl | he
    · refine s.awaitsReady_armList k _ _ (fun y hy => ?_) x hx
      unfold State.ring lookD at hy
      cases hr : look s.rings k with
      | none => rw [hr] at hy; cases hy
      | some r => rw [hr] at hy; exact h (k, r) (mem_of_look hr) hc y hy
    · exact h e he hc x hx
  · exact h

theorem State.noneAwaitsReady_armAll : s.armAll.noneAwaitsReady c :=
  List.foldlRecOn (motive := fun t : State => t.noneAwaitsReady c) _ _ h fun _ ht k _ => State.noneAwaitsReady_armRing ht k

/-- Without a STEP_COMMIT that waits for READY, none goes on. -/
theorem State.stepGo_of_none : s.stepGo c = s := by
  unfold State.stepGo
  rw [State.stepCmd_eq_none.mpr h]
  split <;> rfl

end

/-! ### The standing of a member (R269, R271) -/

/-- The member's version and state stand from `s` to `t`, and no STEP_COMMIT has come to wait for READY. -/
structure Standing (c : Nat) (s t : State) : Prop where
  version : t.rd F.ctxVersion_CURRENT c = s.rd F.ctxVersion_CURRENT c
  state : t.rd F.ctxStepState_STATE c = s.rd F.ctxStepState_STATE c
  idle : s.noneAwaitsReady c → t.noneAwaitsReady c

section
variable {c : Nat} {s t u : State}

theorem Standing.refl (c : Nat) (s : State) : Standing c s s := ⟨rfl, rfl, id⟩

theorem Standing.trans (h : Standing c s t) (k : Standing c t u) : Standing c s u :=
  ⟨k.version.trans h.version, k.state.trans h.state, k.idle ∘ h.idle⟩

theorem Accessed.standing (h : Accessed s t) (hc : c < 16) : Standing c s t := by
  refine ⟨?_, ?_, fun hn => by unfold State.noneAwaitsReady; rwa [h.rings]⟩
  · unfold State.rd
    rw [h.regs _ c (by omega) (by decide)]
  · unfold State.rd
    rw [h.regs _ c (by omega) (by decide)]

/-- Commands changed so that none comes to wait for READY. -/
theorem Standing.of_regs (hr : t.regs = s.regs) (hn : s.noneAwaitsReady c → t.noneAwaitsReady c) : Standing c s t :=
  ⟨by simp only [State.rd, State.reg_of_regs hr], by simp only [State.rd, State.reg_of_regs hr], hn⟩

theorem Standing.setReg (s : State) {r i : Nat} (w : Word) (hi : i < 1048576) (hc : c < 16)
    (hr : r ≠ Reg.ctxVersion ∧ r ≠ Reg.ctxStepState) : Standing c s (s.setReg r i w) := by
  have hkept : keepsRegs s (s.setReg r i w) [r] := keepsRegs_of_setReg hi rfl
  refine ⟨?_, ?_, id⟩
  · unfold State.rd
    rw [hkept _ c (by omega) (by simpa using hr.1.symm)]
  · unfold State.rd
    rw [hkept _ c (by omega) (by simpa using hr.2.symm)]

theorem Standing.armAll (s : State) : Standing c s s.armAll :=
  .of_regs (State.regs_of_ringless s.ringless_armAll) State.noneAwaitsReady_armAll

theorem Standing.release (s : State) : Standing c s s.release := .of_regs rfl State.noneAwaitsReady_release

theorem Standing.showRound (s : State) (hc : c < 16) (t : Nat × Nat) : Standing c s (s.showRound c t) := by
  have hne : F.ctxVersion_CURRENT.reg ≠ F.ctxStepState_TARGET.reg := by decide
  refine ⟨(State.rd_wr_ne _ _ _ _ _ _ hne (by omega) (by omega)).trans (State.rd_wr_ne _ _ _ _ _ _ hne (by omega) (by omega)),
    ?_, id⟩
  exact (State.rd_wr_fld _ F.ctxStepState_TARGET F.ctxStepState_STATE c _ rfl (by decide) (by decide)).trans
    (State.rd_wr_fld _ F.ctxStepState_ATTEMPT F.ctxStepState_STATE c _ rfl (by decide) (by decide))

end

/-! ### The record (R265, R269) -/

section
variable {c : Nat} (hc : c < 16)
include hc

theorem Accessed.stepRec (s : State) : Accessed s (s.stepRec c).2 := by
  have hw := Accessed.winAccess hc (s.rd F.ctxStepRec_RECORD_ADDR c) 1280 none (winFuel 1280) s [] []
  unfold State.stepRec
  dsimp only
  split
  · exact .refl s
  · split
    next h => rw [h] at hw; exact hw
    next h => rw [h] at hw; exact hw

theorem Accessed.recPut (s : State) (off : Nat) (bs : List Byte) : Accessed s (s.recPut c off bs) :=
  .winAccess hc _ _ _ _ s [] []

theorem Standing.newRound (s : State) (t : Nat × Nat) : Standing c s (s.newRound c t) :=
  (((Accessed.recPut hc s _ _).trans (Accessed.recPut hc _ _ _)).standing hc).trans (.showRound _ hc t)

theorem Standing.raise (s : State) {n : Ntc} (hn : n.named) : Standing c s (s.raise n) := (Accessed.raise s hn).standing hc

theorem Standing.tellRefused (s : State) (e : AddEnd) (unit vid phys amount : Nat) :
    Standing c s (s.tellRefused e c unit vid phys amount) := by
  unfold State.tellRefused
  split
  · exact .raise hc s (named_of_ctx rfl hc)
  · exact .raise hc s (named_of_ctx rfl hc)
  · exact .refl c s

theorem Standing.beadAdd (s : State) {n : Nat} (hn : n < 65536) (amount : Nat) : Standing c s (s.beadAdd n amount).2 := by
  unfold State.beadAdd
  split
  · dsimp only
    generalize BitVec.ofNat 64 (s.beadValue n + amount) = w
    obtain ⟨hregs, -, hrings⟩ := (s.setReg Reg.beadValue n w).answerWaits_frame n
    exact ((Standing.setReg s w (by omega) hc (by decide)).trans ((Accessed.of_eq hrings hregs).standing hc)).trans (.release _)
  · exact .refl c s

/-- A READY counted on the bead of the context (R269). The state with the bit written is named first, so that the kernel
has no cause to evaluate its access. -/
theorem Standing.takeReady (s : State) (j : Nat) (r : List Byte) : Standing c s (s.takeReady c j r) := by
  unfold State.takeReady
  split
  · exact .refl c s
  · have hput := (Accessed.recPut hc s 64 (natLE 128 (setBits (recReady r) j 1 1))).standing hc
    obtain ⟨t, ht⟩ : ∃ t, t = s.recPut c 64 (natLE 128 (setBits (recReady r) j 1 1)) := ⟨_, rfl⟩
    rw [← ht] at hput ⊢
    dsimp only
    split
    · exact hput.trans (.raise hc t (named_of_ctx rfl hc))
    next n e h =>
      have hn : n < 65536 := State.vid_lt (congrArg Prod.fst h)
      obtain ⟨hregs, -, hrings⟩ := t.keepVid_frame c (t.rd F.ctxStepCfg_READY_BEAD c)
      have hadded := (hput.trans ((Accessed.of_eq hrings hregs).standing hc)).trans (.beadAdd hc _ hn 1)
      split
      · exact hadded.trans (.armAll _)
      · exact hadded.trans (.tellRefused hc _ _ _ _ _ _)

end

end Sys2Proof.Machine
end

section
/-!
The messages of step commit (R269, R270, R273): what each handler does with the record as it is read, and the standing of a
member whose decision in doubt is inferred.
-/
namespace Sys2Proof.Machine

/-! ### A message taken from a member (R269) -/

section
variable {s r : State} {hdr : GctHdr} {m : StepMsg} {c j : Nat} {g : Group} {act : State → Nat → Group → Nat → State}
  (hserves : s.stepServes = true) (hr : s.receive hdr true = some r) (hfrom : s.stepFrom hdr.conn.val m = some (c, g, j))
include hserves hr hfrom

theorem State.takeStep_of_held (hheld : (s.recHeld c).1 = true) : s.takeStep hdr m act = (s.recHeld c).2 := by
  obtain ⟨p, hp⟩ : ∃ p, p = s.recHeld c := ⟨_, rfl⟩
  rw [← hp] at hheld
  simp only [State.takeStep, hserves, hr, hfrom, ← hp]
  obtain ⟨b, t⟩ := p
  subst hheld
  rfl

theorem State.takeStep_of_free (hfree : (s.recHeld c).1 = false) : s.takeStep hdr m act = act r c g j := by
  obtain ⟨p, hp⟩ : ∃ p, p = s.recHeld c := ⟨_, rfl⟩
  rw [← hp] at hfree
  simp only [State.takeStep, hserves, hr, hfrom, ← hp]
  obtain ⟨b, t⟩ := p
  subst hfree
  rfl

end

theorem State.stepFrom_ctx_lt {s : State} {n c j : Nat} {m : StepMsg} {g : Group} (h : s.stepFrom n m = some (c, g, j)) :
    c < 16 := by
  unfold State.stepFrom at h
  dsimp only at h
  split at h
  · split at h
    · obtain ⟨e, -, he⟩ := Option.map_eq_some_iff.mp h
      obtain ⟨rfl, -⟩ := Prod.mk.inj he
      exact bitsOf_lt _ _ 4
    · cases h
  · cases h

/-! ### The record as it is read -/

section
variable {s q : State} {c : Nat} {rec : List Byte} (h : s.stepRec c = (some rec, q))
include h

theorem State.stepReply_of_rec (n : Nat) (g : Group) (t : Nat × Nat) :
    s.stepReply c n g t =
      if laterRound t (recRound rec) then q.sendGct n (.step Step.reply (stepMsg g t 0 0))
      else q.sendGct n (.step Step.reply (stepMsg g (recRound rec) (recDecision rec) (recReady rec))) := by
  simp only [State.stepReply, h]

theorem State.onPropose_of_rec (t : Nat × Nat) (d : Nat) :
    s.onPropose c t d =
      if laterRound t (recRound rec) then (q.newRound c t).putDecision c d false
      else if t = recRound rec ∧ recDecision rec = 0 then q.putDecision c d false
      else q := by
  simp only [State.onPropose, h]

end

theorem laterRound_self (t : Nat × Nat) : laterRound t t = false := by simp [laterRound]

/-! ### A READY (R269, R273) -/

/-- A READY of an earlier round is counted late, and told once for the round that the record holds. -/
def State.countLate (s : State) (c j : Nat) (t now : Nat × Nat) : State :=
  let u := s.setCtx c { s.ctx c with late := (s.ctx c).late + 1, lateTold := some now }
  if (s.ctx c).lateTold = some now then u else u.raise (stepNtc 0x0A06 Sev.info c t j)

theorem stepNtc_named (code sev : Nat) {c : Nat} (hc : c < 16) (t : Nat × Nat) (a : Nat) : (stepNtc code sev c t a).named :=
  netNtc_named code sev hc _ _ _

/-- What counting a late READY leaves: the context's count is one more, and all else is told at most. -/
theorem State.countLate_told (s : State) {c : Nat} (hc : c < 16) (j : Nat) (t now : Nat × Nat) :
    Told (s.setCtx c { s.ctx c with late := (s.ctx c).late + 1, lateTold := some now }) (s.countLate c j t now) := by
  unfold State.countLate
  dsimp only
  split
  · exact .refl _
  · exact State.raise_told _ _ (stepNtc_named _ _ hc t j)

theorem State.countLate_spec (s : State) {c : Nat} (hc : c < 16) (j : Nat) (t now : Nat × Nat) :
    ((s.countLate c j t now).ctx c).late = (s.ctx c).late + 1 ∧
    (∀ d, d ≠ c → (s.countLate c j t now).ctx d = s.ctx d) ∧ (s.countLate c j t now).rings = s.rings ∧
    keepsRegs s (s.countLate c j t now) toldRegs := by
  have htold := s.countLate_told hc j t now
  have hctxs := htold.same State.ctxs fun _ => rfl
  refine ⟨?_, fun d hd => ?_, htold.same State.rings fun _ => rfl, htold.regs⟩
  · rw [State.ctx, hctxs]
    exact congrArg CtxRt.late (State.ctx_setCtx_same _ _ _)
  · rw [State.ctx, hctxs]
    exact State.ctx_setCtx_other _ _ hd

section
variable {s q : State} {c j : Nat} {t : Nat × Nat} {rec : List Byte} (h : (s.stepInfer c t).stepRec c = (some rec, q))
include h

theorem State.onReady_of_now (ht : t = recRound rec) : s.onReady c j t = (q.takeReady c j rec).stepGo c := by
  simp only [State.onReady, h, ← ht, laterRound_self, Bool.false_eq_true, if_false, if_true]

theorem State.onReady_of_later (ht : laterRound t (recRound rec) = true) {rec' : List Byte} {q' : State}
    (h' : (q.newRound c t).stepRec c = (some rec', q')) : s.onReady c j t = (q'.takeReady c j rec').stepGo c := by
  simp only [State.onReady, h, ht, if_true, h']

theorem State.onReady_of_later_unread (ht : laterRound t (recRound rec) = true) {q' : State}
    (h' : (q.newRound c t).stepRec c = (none, q')) : s.onReady c j t = q' := by
  simp only [State.onReady, h, ht, if_true, h']

theorem State.onReady_of_earlier (hne : t ≠ recRound rec) (ht : laterRound t (recRound rec) = false) :
    s.onReady c j t = q.countLate c j t (recRound rec) := by
  simp only [State.onReady, h, ht, Bool.false_eq_true, if_false, if_neg hne, State.countLate]

end

theorem State.onReady_of_unread {s q : State} {c j : Nat} {t : Nat × Nat} (h : (s.stepInfer c t).stepRec c = (none, q)) :
    s.onReady c j t = q := by
  simp only [State.onReady, h]

theorem State.stepInfer_of_no_doubt {s : State} {c : Nat} (h : (s.ctx c).doubt = none) (t : Nat × Nat) : s.stepInfer c t = s := by
  simp only [State.stepInfer, h]

/-- The decision inferred of a round in doubt (R273): ABORT where the later READY is for the same target. -/
def inferred (t old : Nat × Nat) : Nat := if t.1 = old.1 then Dec.abort else Dec.commit

theorem State.stepInfer_of_doubt {s : State} {c : Nat} {t old : Nat × Nat} (h : (s.ctx c).doubt = some old)
    (hd : s.inDoubt c = true) (hl : laterRound t old = true) (hx : Config.crossFails s.nfree = false) :
    s.stepInfer c t =
      (({ s with nfree := s.nfree + 1 } : State).applyDecision c old (inferred t old)).raise
        (stepNtc 0x0A04 Sev.info c old (inferred t old)) := by
  simp only [State.stepInfer, h, hd, hl, Bool.and_self, if_true, State.crossCheck, hx, Bool.not_false]
  rfl

section
variable {c : Nat} (hc : c < 16)
include hc

/-- A decision is applied to CURRENT and to the record, before the member is IDLE. -/
theorem State.applyDecision_eq_setStep (s : State) (t : Nat × Nat) (d : Nat) :
    ∃ w, s.applyDecision c t d = w.setStep c 0 ∧ Accessed (if d = Dec.commit then s.wr F.ctxVersion_CURRENT c t.1 else s) w := by
  obtain ⟨v, hv⟩ : ∃ v, v = if d = Dec.commit then s.wr F.ctxVersion_CURRENT c t.1 else s := ⟨_, rfl⟩
  have hrec := Accessed.stepRec hc v
  obtain ⟨p, hp⟩ : ∃ p, p = v.stepRec c := ⟨_, rfl⟩
  unfold State.applyDecision
  rw [← hv]
  dsimp only
  rw [← hp] at hrec ⊢
  obtain ⟨_ | rec, q⟩ := p
  · exact ⟨q, rfl, hrec⟩
  · by_cases hr : recRound rec = t
    · exact ⟨(q.putDecision c (recDecision rec) true).recPut c 24 (natLE 8 q.time), by simp only [hr, if_true],
        (hrec.trans (Accessed.recPut hc q _ _)).trans (Accessed.recPut hc _ _ _)⟩
    · exact ⟨q, by simp only [if_neg hr], hrec⟩

theorem State.applyDecision_spec (s : State) (t : Nat × Nat) (d : Nat) :
    (s.applyDecision c t d).rd F.ctxVersion_CURRENT c =
      (if d = Dec.commit then t.1 % 2 ^ F.ctxVersion_CURRENT.width else s.rd F.ctxVersion_CURRENT c) ∧
    (s.applyDecision c t d).rd F.ctxStepState_STATE c = 0 ∧
    (s.noneAwaitsReady c → (s.applyDecision c t d).noneAwaitsReady c) := by
  obtain ⟨w, hw, hacc⟩ := State.applyDecision_eq_setStep hc s t d
  obtain ⟨hversion, -, hidle⟩ := hacc.standing hc
  have hset : (w.setStep c 0).rd F.ctxVersion_CURRENT c = w.rd F.ctxVersion_CURRENT c :=
    w.rd_wr_ne F.ctxStepState_STATE F.ctxVersion_CURRENT c c 0 (by decide) (by omega) (by omega)
  refine hw ▸ ⟨hset.trans (hversion.trans ?_), w.rd_wr_same F.ctxStepState_STATE c 0 (by decide), fun hn => hidle ?_⟩
  · split
    · exact s.rd_wr_same F.ctxVersion_CURRENT c t.1 (by decide)
    · rfl
  · split <;> exact hn

theorem Standing.countLate (s : State) (j : Nat) (t now : Nat × Nat) : Standing c s (s.countLate c j t now) := by
  have hset : Standing c s (s.setCtx c { s.ctx c with late := (s.ctx c).late + 1, lateTold := some now }) := .of_regs rfl id
  exact hset.trans ((s.countLate_told hc j t now).accessed.standing hc)

/-- A READY leaves the member's standing where no STEP_COMMIT waits for it, once its inference has been made. -/
theorem Standing.onReady (s : State) (j : Nat) (t : Nat × Nat) (hn : (s.stepInfer c t).noneAwaitsReady c) :
    Standing c (s.stepInfer c t) (s.onReady c j t) := by
  have hrec := (Accessed.stepRec hc (s.stepInfer c t)).standing hc
  obtain ⟨p, h⟩ : ∃ p, (s.stepInfer c t).stepRec c = p := ⟨_, rfl⟩
  rw [h] at hrec
  have htaken : ∀ (u : State) (r : List Byte), Standing c (s.stepInfer c t) u →
      Standing c (s.stepInfer c t) ((u.takeReady c j r).stepGo c) := fun u r hu => by
    have ht := hu.trans (.takeReady hc u j r)
    rwa [State.stepGo_of_none (ht.idle hn)]
  obtain ⟨_ | rec, q⟩ := p
  · rwa [State.onReady_of_unread h]
  by_cases hnow : t = recRound rec
  · rw [State.onReady_of_now h hnow]
    exact htaken q rec hrec
  cases hl : laterRound t (recRound rec) with
  | false =>
    rw [State.onReady_of_earlier h hnow hl]
    exact hrec.trans (.countLate hc q j t _)
  | true =>
    have hnew := hrec.trans (.newRound hc q t)
    have hrec' := hnew.trans ((Accessed.stepRec hc (q.newRound c t)).standing hc)
    obtain ⟨p', h'⟩ : ∃ p', (q.newRound c t).stepRec c = p' := ⟨_, rfl⟩
    rw [h'] at hrec'
    obtain ⟨_ | rec', q'⟩ := p'
    · rwa [State.onReady_of_later_unread h hl h']
    · rw [State.onReady_of_later h hl h']
      exact htaken q' rec' hrec'

/-- In doubt, a READY for a later round decides the round in doubt (R273). -/
theorem State.onReady_of_doubt {s : State} (j : Nat) {t old : Nat × Nat} (h : (s.ctx c).doubt = some old)
    (hd : s.inDoubt c = true) (hl : laterRound t old = true) (hx : Config.crossFails s.nfree = false)
    (hn : s.noneAwaitsReady c) :
    (s.onReady c j t).rd F.ctxVersion_CURRENT c =
      (if t.1 = old.1 then s.rd F.ctxVersion_CURRENT c else old.1 % 2 ^ F.ctxVersion_CURRENT.width) ∧
    (s.onReady c j t).rd F.ctxStepState_STATE c = 0 := by
  obtain ⟨hversion, hstate, hidle⟩ := State.applyDecision_spec hc { s with nfree := s.nfree + 1 } old (inferred t old)
  have hraised := Standing.raise hc (({ s with nfree := s.nfree + 1 } : State).applyDecision c old (inferred t old))
    (stepNtc_named 0x0A04 Sev.info hc old (inferred t old))
  rw [← State.stepInfer_of_doubt h hd hl hx] at hraised
  have hready := hraised.trans (.onReady hc s j t (hraised.idle (hidle hn)))
  refine ⟨hready.version.trans (hversion.trans ?_), hready.state.trans hstate⟩
  by_cases ht : t.1 = old.1
  · rw [if_neg (by simp [inferred, ht]), if_pos ht]
    rfl
  · rw [if_pos (by simp [inferred, ht]), if_neg ht]

end

end Sys2Proof.Machine
end

section
/-!
The replies and the clocks of step commit (R270, R271): a reply kept with its command, the query that begins when the wait
for READY has run out, and a member in doubt.
-/
namespace Sys2Proof.Machine

/-! ### Replies (R270) -/

/-- The command that a reply is for: one at its query, or at its proposal where the reply holds a decision. -/
def replyFor (m : StepMsg) (x : Cmd) : Bool :=
  (x.stepStage == 1 || (x.stepStage == 2 && m.decision != 0)) && stepRound x == msgRound m

theorem State.onStepReply_of_held {s : State} {c j k : Nat} {g : Group} {m : StepMsg} {x : Cmd}
    (h : s.stepCmd c (replyFor m) = some (k, x)) (hh : s.ctxHeld c = true) :
    s.onStepReply c g j m = s.updCmd k x.count
      (fun _ => { x with parts := put x.parts (2000 * x.stepStage + j) [m.decision.toNat, m.ready.toNat] }) := by
  unfold replyFor at h
  unfold State.onStepReply
  rw [h]
  exact if_pos hh

/-! ### The wait for READY (R270) -/

/-- Messages to the members of a group change the connections and what the device puts out, and nothing else. -/
theorem State.toMembers_eq (s : State) (g : Group) (m : Nat → GctMsg) :
    ∃ conns out, s.toMembers g m = { s with conns := conns, out := out } :=
  List.foldlRecOn (motive := fun t : State => ∃ conns out, t = { s with conns := conns, out := out }) _ _
    ⟨s.conns, s.out, rfl⟩ fun t ht e _ => by
      obtain ⟨conns, out, rfl⟩ := ht
      split
      · exact ⟨conns, out, rfl⟩
      · obtain ⟨conns', out', h⟩ := State.sendGct_eq { s with conns := conns, out := out } e.1 (m e.2)
        exact ⟨conns', out', h⟩

theorem State.toMembers_frame (s : State) (g : Group) (m : Nat → GctMsg) :
    (s.toMembers g m).regs = s.regs ∧ (s.toMembers g m).mem = s.mem ∧ (s.toMembers g m).rings = s.rings ∧
      (s.toMembers g m).ivl = s.ivl := by
  obtain ⟨conns, out, h⟩ := s.toMembers_eq g m
  rw [h]
  exact ⟨rfl, rfl, rfl, rfl⟩

theorem State.stepDecide_of_awaiting {s : State} {k : Nat} {x : Cmd} {g : Group}
    (h : (stepReplies x 1 g.conns.length).length + 1 < g.conns.length) : s.stepDecide k x g false = s := by
  simp [State.stepDecide, h]

/-- A query that replies are still missing for: the members are asked, and the command waits for them. -/
theorem State.stepQuery_of_awaiting {s : State} {k : Nat} {x : Cmd} {g : Group}
    (h : (stepReplies x 1 g.conns.length).length + 1 < g.conns.length) :
    ∃ t : State, s.stepQuery k x g =
        t.updCmd k x.count (fun _ => { x with phase := .waiting, aux := stepAux 1 s.ivl }) ∧
      t.regs = (s.setStep (k / 64) 2).regs ∧ t.mem = s.mem ∧ t.rings = s.rings := by
  obtain ⟨hregs, hmem, hrings, hivl⟩ := (s.setStep (k / 64) 2).toMembers_frame g
    (fun _ => .step Step.query (stepMsg g (stepRound x) 0 0))
  refine ⟨_, ?_, hregs, hmem, hrings⟩
  rw [show s.ivl = _ from hivl.symm]
  exact State.stepDecide_of_awaiting h

theorem State.stepQuery_spec {s : State} {k : Nat} {x : Cmd} {g : Group} (hk : k / 64 < 16) (hx : s.unitCmd k x.count = some x)
    (h : (stepReplies x 1 g.conns.length).length + 1 < g.conns.length) :
    (s.stepQuery k x g).rd F.ctxStepState_STATE (k / 64) = 2 ∧
    (s.stepQuery k x g).unitCmd k x.count = some { x with phase := .waiting, aux := stepAux 1 s.ivl } ∧
    (s.stepQuery k x g).mem = s.mem ∧ keepsRegs s (s.stepQuery k x g) [Reg.ctxStepState] := by
  obtain ⟨t, hquery, hregs, hmem, hrings⟩ := State.stepQuery_of_awaiting (s := s) (k := k) h
  rw [hquery]
  refine ⟨?_, State.unitCmd_updCmd ((State.unitCmd_of_rings hrings _ _).trans hx) fun _ _ => rfl, hmem,
    keepsRegs_of_setReg (by omega) hregs⟩
  exact (congrArg (fun w : Word => bitsOf w.toNat 0 2) (State.reg_of_regs hregs _ _)).trans
    (s.rd_wr_same F.ctxStepState_STATE (k / 64) 2 (by decide))

theorem exec_commitReadyTimeout {ctx : Fin 16} {s : State} {k : Nat} {x : Cmd} {g : Group}
    (hx : s.stepCmd ctx.val (fun x => x.stepStage == 0 && s.timedOut x) = some (k, x)) (hg : s.stepGroup ctx.val = some g)
    (hh : s.ctxHeld ctx.val = false) : exec (.commitReadyTimeout ctx) s = .next (s.stepQuery k x g) := by
  show execCommitReadyTimeout ctx s = _
  simp [execCommitReadyTimeout, hx, hg, hh]

/-! ### A member in doubt (R271) -/

theorem State.stepDoubt_spec {s : State} {k : Nat} {x : Cmd} (hk : k / 64 < 16) (hx : s.unitCmd k x.count = some x)
    (hp : x.phase = .waiting) (hl : x.lost = []) (hs : x.seeds = []) (t : Nat × Nat) (w : Nat) :
    (s.stepDoubt k x t w).rd F.ctxStepState_STATE (k / 64) = 3 ∧ ((s.stepDoubt k x t w).ctx (k / 64)).doubt = some t ∧
    (∃ y, (s.stepDoubt k x t w).unitCmd k x.count = some y ∧ y.phase = .ended ∧ y.status = x.fatal.getD St.peerLost) ∧
    keepsRegs s (s.stepDoubt k x t w) (Reg.ctxStepState :: toldRegs) := by
  have htold := (s.setStep (k / 64) 3 (some t)).raise_told _ (stepNtc_named 0x0A03 Sev.error hk t w)
  have hset : keepsRegs s (s.setStep (k / 64) 3 (some t)) [Reg.ctxStepState] := keepsRegs_of_setReg (by omega) rfl
  unfold State.stepDoubt
  dsimp only
  generalize (s.setStep (k / 64) 3 (some t)).raise (stepNtc 0x0A03 Sev.error (k / 64) t w) = u at htold
  have hux : u.unitCmd k x.count = some x := by
    rw [State.unitCmd_of_rings (htold.same State.rings fun _ => rfl)]
    exact hx
  obtain ⟨⟨y, hy, hended, hstatus, -⟩, m, hframe⟩ := State.endOut_spec hux (by simp [hp]) hl hs St.peerLost
  have hkept : keepsRegs (s.setStep (k / 64) 3 (some t)) (u.endOut k x.count St.peerLost) toldRegs := fun r i hi hr =>
    (State.reg_of_regs (State.regs_of_ringless hframe) r i).trans (htold.regs r i hi hr)
  have hctxs : (u.endOut k x.count St.peerLost).ctxs = (s.setStep (k / 64) 3 (some t)).ctxs :=
    (congrArg State.ctxs hframe :).trans (htold.same State.ctxs fun _ => rfl)
  refine ⟨?_, ?_, ⟨y, hy, hended, hstatus⟩, hset.trans hkept⟩
  · unfold State.rd
    rw [hkept _ _ (by omega) (by decide)]
    exact s.rd_wr_same F.ctxStepState_STATE (k / 64) 3 (by decide)
  · rw [State.ctx, hctxs]
    exact congrArg CtxRt.doubt (State.ctx_setCtx_same _ _ _)

theorem exec_commitQueryTimeout {ctx : Fin 16} {s : State} {k : Nat} {x : Cmd} {g : Group}
    (hx : s.stepCmd ctx.val (fun x => x.stepStage != 0 && decide (s.ivl - x.aux.getD 2 0 ≥ stepWindow)) = some (k, x))
    (hg : s.stepGroup ctx.val = some g) (hh : s.ctxHeld ctx.val = false) (hfree : (s.recHeld ctx.val).1 = false) :
    exec (.commitQueryTimeout ctx) s =
      .next (if x.stepStage = 1 then s.stepDecide k x g true else s.stepJudge k x g true) := by
  show execCommitQueryTimeout ctx s = _
  simp only [execCommitQueryTimeout, hx, hg, hh, hfree, Bool.false_eq_true, if_false]

section
variable {s q : State} {k : Nat} {x : Cmd} {g : Group} {rec : List Byte} (h : s.stepRec (k / 64) = (some rec, q))
  (hround : recRound rec = stepRound x) (happlied : recApplied rec = false)
include h hround happlied

theorem State.stepDecide_of_no_decision (hw : stepWant rec g (stepReplies x 1 g.conns.length) = Dec.none) :
    s.stepDecide k x g true =
      q.stepDoubt k x (stepRound x) (repliedWeight rec g (stepReplies x 1 g.conns.length)) := by
  simp [State.stepDecide, h, hround, happlied, hw]

theorem State.stepJudge_of_no_quorum (hw : stepHeld rec g (stepReplies x 2 g.conns.length) = none) :
    s.stepJudge k x g true =
      q.stepDoubt k x (stepRound x) (repliedWeight rec g (stepReplies x 2 g.conns.length)) := by
  simp [State.stepJudge, h, hround, happlied, hw]

end

/-! ### The rows -/

section
variable {s r : State} {hdr : GctHdr} {m : StepMsg} {c j : Nat} {g : Group}
  (hserves : s.stepServes = true) (hr : s.receive hdr true = some r) (hfrom : s.stepFrom hdr.conn.val m = some (c, g, j))
include hserves hr hfrom

/-- Every message of a round meets a held record in the same way (log entry 130). -/
theorem exec_stepMessage_of_held (hheld : (s.recHeld c).1 = true) {i : Instr}
    (hi : i = .gctQuery hdr m ∨ i = .gctReady hdr m ∨ i = .gctPropose hdr m ∨ i = .gctCommitReply hdr m) :
    exec i s = .next (s.recHeld c).2 := by
  have htaken := fun act => State.takeStep_of_held (act := act) hserves hr hfrom hheld
  rcases hi with rfl | rfl | rfl | rfl
  all_goals exact congrArg _ (htaken _)

variable (hfree : (s.recHeld c).1 = false)
include hfree

theorem exec_gctQuery_of_free : exec (.gctQuery hdr m) s = .next (r.stepReply c hdr.conn.val g (msgRound m)) :=
  congrArg _ (State.takeStep_of_free hserves hr hfrom hfree)

theorem exec_gctReady_of_free : exec (.gctReady hdr m) s = .next (r.onReady c j (msgRound m)) :=
  congrArg _ (State.takeStep_of_free hserves hr hfrom hfree)

theorem exec_gctCommitReply_of_free : exec (.gctCommitReply hdr m) s = .next (r.onStepReply c g j m) :=
  congrArg _ (State.takeStep_of_free hserves hr hfrom hfree)

theorem exec_gctPropose_of_free :
    exec (.gctPropose hdr m) s = .next (
      if m.decision.toNat = 1 ∨ m.decision.toNat = 2 then
        (r.onPropose c (msgRound m) m.decision.toNat).stepReply c hdr.conn.val g (msgRound m)
      else r) :=
  congrArg _ (State.takeStep_of_free hserves hr hfrom hfree)

theorem exec_gctPropose_of_decision (hd : m.decision = 1 ∨ m.decision = 2) :
    exec (.gctPropose hdr m) s =
      .next ((r.onPropose c (msgRound m) m.decision.toNat).stepReply c hdr.conn.val g (msgRound m)) := by
  rw [exec_gctPropose_of_free hserves hr hfrom hfree, if_pos]
  rcases hd with hd | hd <;> simp [hd]

theorem exec_gctPropose_of_no_decision (hd : m.decision = 0 ∨ m.decision = 3) : exec (.gctPropose hdr m) s = .next r := by
  rw [exec_gctPropose_of_free hserves hr hfrom hfree, if_neg]
  rcases hd with hd | hd <;> simp [hd]

end

/-! ### The obligation -/

/-- Settles O48: each message by its handler, read at the record as it stands; each clock by what its end comes to. -/
theorem stepCommitProtocol : Obligations.StepCommitProtocol := by
  unfold Obligations.StepCommitProtocol
  refine ⟨fun hdr m s r c j g hserves hr hfrom => ⟨fun i hi hheld => exec_stepMessage_of_held hserves hr hfrom hheld hi,
    fun hfree rec q hrec => ⟨?query, ?queryLater, ?propose, ?noDecision, ?ready⟩,
    fun hfree old hdoubt hin hlater hnone => ?doubt, fun hfree k x hcmd hx hheld => ?reply⟩, ?timeout, ?window⟩
  case query =>
    intro hl
    rw [exec_gctQuery_of_free hserves hr hfrom hfree, State.stepReply_of_rec hrec, hl]
    rfl
  case queryLater =>
    intro hl
    rw [exec_gctQuery_of_free hserves hr hfrom hfree, State.stepReply_of_rec hrec, if_pos hl]
  case propose =>
    intro hd
    rw [exec_gctPropose_of_decision hserves hr hfrom hfree hd, State.onPropose_of_rec hrec]
    refine ⟨fun hnow hzero => ?_, fun hnow hdecided => ?_, fun hl => ?_⟩
    · rw [hnow, laterRound_self, if_neg Bool.false_ne_true, if_pos ⟨rfl, hzero⟩]
    · rw [hnow, laterRound_self, if_neg Bool.false_ne_true, if_neg (fun h => hdecided h.2)]
    · rw [if_pos hl]
  case noDecision => exact exec_gctPropose_of_no_decision hserves hr hfrom hfree
  case ready =>
    intro hdoubt
    have hinferred : (r.stepInfer c (msgRound m)).stepRec c = (some rec, q) := by rw [State.stepInfer_of_no_doubt hdoubt, hrec]
    have hexec := exec_gctReady_of_free hserves hr hfrom hfree
    refine ⟨fun hnow hset => ?_, fun hl rec' q' hrec' => ?_, fun hne hl => ⟨_, hexec, ?_⟩⟩
    · rw [hexec, State.onReady_of_now hinferred hnow, State.takeReady, if_pos hset]
    · rw [hexec, State.onReady_of_later hinferred hl hrec']
    · rw [State.onReady_of_earlier hinferred hne hl]
      exact q.countLate_spec (State.stepFrom_ctx_lt hfrom) j _ _
  case doubt =>
    exact ⟨_, exec_gctReady_of_free hserves hr hfrom hfree, fun hx => State.onReady_of_doubt (State.stepFrom_ctx_lt hfrom) j
      hdoubt hin hlater hx (State.stepCmd_eq_none.mp hnone)⟩
  case reply =>
    refine ⟨_, exec_gctCommitReply_of_free hserves hr hfrom hfree, ?_⟩
    rw [State.onStepReply_of_held hcmd hheld]
    exact ⟨State.unitCmd_updCmd hx fun _ _ => rfl, rfl, rfl⟩
  case timeout =>
    intro ctx s k x g hcmd hg hheld hx hreplies hk
    refine ⟨_, exec_commitReadyTimeout hcmd hg hheld, ?_⟩
    have hspec := State.stepQuery_spec (by omega) hx hreplies
    rwa [hk] at hspec
  case window =>
    intro ctx s q k x g rec hcmd hg hheld hk hfree hrec hx hround happlied hlost hseeds hwant
    have hexec := exec_commitQueryTimeout hcmd hg hheld hfree
    rw [← hk] at hrec ⊢
    have hdoubt := State.stepDoubt_spec (by omega) hx (State.stepCmd_eq_some hcmd).1 hlost hseeds (stepRound x)
    obtain ⟨hstage, hw⟩ | ⟨hstage, hw⟩ := hwant
    · rw [if_pos hstage, State.stepDecide_of_no_decision hrec hround happlied hw] at hexec
      exact ⟨_, hexec, hdoubt _⟩
    · rw [if_neg hstage, State.stepJudge_of_no_quorum hrec hround happlied hw] at hexec
      exact ⟨_, hexec, hdoubt _⟩

end Sys2Proof.Machine
end

section
/-!
The address map of the stacks (R288): an address is read back from the stack and the stack offset that it maps to.
-/
namespace Sys2Proof.Machine

/-- Below 5, the stack of a die is the code of R288 modulo 5, and the die its quotient. -/
theorem stackCode_div_mod {die k : Nat} (hk : k < 5) : (5 * die + k) / 5 = die ∧ (5 * die + k) % 5 = k := by omega

theorem bitsOf_xor_fold2_lt (x lo row : Nat) : bitsOf x lo 2 ^^^ fold2 row < 5 :=
  Nat.lt_trans (Nat.xor_lt_two_pow (n := 2) (bitsOf_lt x lo 2) (fold2_lt row)) (by decide)

/-- A stack offset without its region's base: the row above `w` bits, and the place in the row below them. -/
theorem row_of_offset (row sb : Nat) {x w : Nat} (hx : x < 2 ^ w) :
    (row <<< w + x + sb - sb) >>> w = row ∧ (row <<< w + x + sb - sb) % 2 ^ w = x := by
  rw [Nat.add_sub_cancel, Nat.shiftLeft_eq, Nat.shiftRight_eq_div_pow, Nat.mul_comm]
  exact ⟨by rw [Nat.mul_add_div (Nat.two_pow_pos w), Nat.div_eq_of_lt hx, Nat.add_zero],
    by rw [Nat.mul_add_mod, Nat.mod_eq_of_lt hx]⟩

section
variable {s : State} {n : Nat}

/-- The pages of a region over the whole device go round the dies, and round the stacks of each (R288). -/
theorem State.decodeIn_of_device (hm : s.rd F.memRegionCfg_MODE n = 0) (pa : Nat) :
    let a := pa - s.rd F.memRegionCfg_BASE n * 2 ^ 28
    let p := a >>> 12
    ∃ k row, k < 5 ∧ s.decodeIn n pa =
        (5 * (p % 4) + k, row <<< 12 + a % 4096 + s.rd F.memRegionCfg_STACK_BASE n * 2 ^ 28) ∧
      (if s.variant = .c then 16 * row + 4 * (k ^^^ fold2 row) + p % 4 else 20 * row + 4 * k + p % 4) = p := by
  dsimp only
  unfold State.decodeIn
  generalize pa - s.rd F.memRegionCfg_BASE n * 2 ^ 28 = a
  by_cases hv : s.variant = .c
  · refine ⟨_, a >>> 12 >>> 4, bitsOf_xor_fold2_lt (a >>> 12) 2 (a >>> 12 >>> 4), by simp only [hm, hv, if_true], ?_⟩
    rw [if_pos hv, Nat.xor_assoc, Nat.xor_self, Nat.xor_zero]
    simp only [bitsOf, Nat.shiftRight_eq_div_pow]
    omega
  · refine ⟨_, a >>> 12 / 20, Nat.mod_lt (a >>> 12 / 4) (by decide), by simp only [hm, hv, if_true, if_false], ?_⟩
    rw [if_neg hv]
    omega

/-- The half pages of a region on one die go round its stacks (R288). -/
theorem State.decodeIn_of_die (hm : s.rd F.memRegionCfg_MODE n ≠ 0) (pa : Nat) :
    let a := pa - s.rd F.memRegionCfg_BASE n * 2 ^ 28
    let q := a >>> 11
    ∃ k row, k < 5 ∧ s.decodeIn n pa =
        (5 * (s.rd F.memRegionCfg_MODE n - 1) + k, row <<< 11 + a % 2048 + s.rd F.memRegionCfg_STACK_BASE n * 2 ^ 28) ∧
      (if s.variant = .c then 4 * row + (k ^^^ fold2 row) else 5 * row + k) = q := by
  dsimp only
  unfold State.decodeIn
  generalize pa - s.rd F.memRegionCfg_BASE n * 2 ^ 28 = a
  by_cases hv : s.variant = .c
  · refine ⟨_, a >>> 11 >>> 2, bitsOf_xor_fold2_lt (a >>> 11) 0 (a >>> 11 >>> 2), by simp only [hm, hv, if_true, if_false], ?_⟩
    rw [if_pos hv, Nat.xor_assoc, Nat.xor_self, Nat.xor_zero]
    simp only [bitsOf, Nat.shiftRight_eq_div_pow]
    omega
  · refine ⟨_, a >>> 11 / 5, Nat.mod_lt (a >>> 11) (by decide), by simp only [hm, hv, if_false], ?_⟩
    rw [if_neg hv]
    omega

theorem State.base_le_of_inRegion {a : Nat} (h : s.inRegion n a = true) : s.rd F.memRegionCfg_BASE n * 2 ^ 28 ≤ a := by
  simp only [State.inRegion, Bool.and_eq_true, decide_eq_true_eq] at h
  exact h.1.2

theorem State.encodeIn_decodeIn {a : Nat} (h : s.inRegion n a = true) :
    s.encodeIn n (s.decodeIn n a).1 (s.decodeIn n a).2 = a := by
  have hbase := State.base_le_of_inRegion h
  unfold State.encodeIn
  by_cases hm : s.rd F.memRegionCfg_MODE n = 0
  · obtain ⟨k, row, hk, heq, hpage⟩ := State.decodeIn_of_device hm a
    obtain ⟨hrow, hcol⟩ := row_of_offset row (s.rd F.memRegionCfg_STACK_BASE n * 2 ^ 28)
      (w := 12) (Nat.mod_lt (a - s.rd F.memRegionCfg_BASE n * 2 ^ 28) (by decide : 0 < 4096))
    obtain ⟨hdie, hplace⟩ := stackCode_div_mod (die := (a - s.rd F.memRegionCfg_BASE n * 2 ^ 28) >>> 12 % 4) hk
    simp only [heq, hm, if_true, hrow, hdie, hplace, hpage, show 4096 = 2 ^ 12 from rfl, hcol]
    omega
  · obtain ⟨k, row, hk, heq, hpage⟩ := State.decodeIn_of_die hm a
    obtain ⟨hrow, hcol⟩ := row_of_offset row (s.rd F.memRegionCfg_STACK_BASE n * 2 ^ 28)
      (w := 11) (Nat.mod_lt (a - s.rd F.memRegionCfg_BASE n * 2 ^ 28) (by decide : 0 < 2048))
    obtain ⟨-, hplace⟩ := stackCode_div_mod (die := s.rd F.memRegionCfg_MODE n - 1) hk
    simp only [heq, hm, if_false, hrow, hplace, hpage, show 2048 = 2 ^ 11 from rfl, hcol]
    omega

/-- A region of the device, or of one of its four dies, names one of twenty stacks. -/
theorem State.decodeIn_stack_lt (hm : s.rd F.memRegionCfg_MODE n ≤ 4) (a : Nat) : (s.decodeIn n a).1 < 20 := by
  by_cases hz : s.rd F.memRegionCfg_MODE n = 0
  · obtain ⟨k, row, hk, heq, -⟩ := State.decodeIn_of_device hz a
    rw [heq]
    omega
  · obtain ⟨k, row, hk, heq, -⟩ := State.decodeIn_of_die hz a
    rw [heq]
    omega

end

/-- Settles O5: the map has an inverse within a region, so it is one to one. -/
theorem addressMap : Obligations.AddressMap := by
  unfold Obligations.AddressMap
  refine ⟨fun s n a b ha hb heq => ?_, fun s n a ha => State.encodeIn_decodeIn ha, fun s n a _ hm => State.decodeIn_stack_lt hm a⟩
  rw [← State.encodeIn_decodeIn ha, heq, State.encodeIn_decodeIn hb]

end Sys2Proof.Machine
end

section
/-!
The copy of a retiring channel (R301, R302): where a byte of a channel stands in its slot, and what memory holds after a
piece is copied.
-/
namespace Sys2Proof.Machine

/-! ### Memory filtered and rewritten -/

theorem look_filter {β : Type} (t : Tbl β) (p : Nat → Bool) (k : Nat) :
    look (t.filter (fun e => p e.1)) k = if p k then look t k else none := by
  induction t with
  | nil => simp
  | cons e t ih =>
    rw [List.filter_cons, look]
    by_cases hk : k = e.1
    · subst hk
      split <;> simp_all [look]
    · rw [if_neg hk, ← ih]
      split
      · rw [look, if_neg hk]
      · rfl

theorem Mem.read_filter (m : Mem) (p : Nat → Bool) (k : Nat) :
    Mem.read (m.filter (fun e => p e.1)) k = if p k then m.read k else 0 := by
  unfold Mem.read lookD
  rw [look_filter]
  split <;> rfl

/-- The listed bytes of the addresses of a set, each written where `f` sends it. -/
def Mem.copyTo (goes : Nat → Bool) (f : Nat → Nat) (src dst : Mem) : Mem :=
  ((src.filter (fun e => goes e.1)).map (fun e => (f e.1, e.2))).foldl (fun m e => m.write e.1 e.2) dst

section
variable {goes : Nat → Bool} {f : Nat → Nat}

theorem Mem.copyTo_cons (e : Host.Cell) (src dst : Mem) :
    Mem.copyTo goes f (e :: src) dst = Mem.copyTo goes f src (if goes e.1 then dst.write (f e.1) e.2 else dst) := by
  unfold Mem.copyTo
  rw [List.filter_cons]
  split <;> rfl

theorem Mem.read_copyTo_other (src dst : Mem) {k : Nat} (h : ∀ a, goes a = true → f a ≠ k) :
    (Mem.copyTo goes f src dst).read k = dst.read k := by
  induction src generalizing dst with
  | nil => rfl
  | cons e src ih =>
    rw [Mem.copyTo_cons, ih]
    split
    next hg => exact Mem.read_write_other _ _ (h e.1 hg).symm
    next => rfl

theorem Mem.read_copyTo (src dst : Mem) (hsrc : rising src = true) {k : Nat} (hk : goes k = true)
    (hinj : ∀ a, goes a = true → f a = f k → a = k) :
    (Mem.copyTo goes f src dst).read (f k) = (look src k).getD (dst.read (f k)) := by
  rw [rising_iff] at hsrc
  induction src generalizing dst with
  | nil => rfl
  | cons e src ih =>
    obtain ⟨a, b⟩ := e
    obtain ⟨hlt, hsrc⟩ := List.pairwise_cons.mp hsrc
    rw [Mem.copyTo_cons, ih _ hsrc]
    rw [look]
    by_cases hka : k = a
    · subst hka
      have hnone : look src k = none := by
        cases hl : look src k with
        | none => rfl
        | some v => exact absurd (hlt (k, v) (mem_of_look hl)) (Nat.lt_irrefl k)
      rw [hnone, if_pos hk, if_pos rfl]
      exact Mem.read_write_same _ _ _
    · rw [if_neg hka]
      congr 1
      split
      next hg => exact Mem.read_write_other _ _ fun h => hka (hinj a hg h.symm).symm
      next => rfl

end

/-! ### The bytes of a slot (R302) -/

theorem State.stacksPerDie_eq (s : State) : s.stacksPerDie = 4 ∨ s.stacksPerDie = 5 := by
  unfold State.stacksPerDie
  split
  · exact .inl rfl
  · exact .inr rfl

theorem State.slotsOf_le (s : State) (d : Nat) : s.slotsOf d ≤ 20 * s.rd F.memReserve_PER_STACK / 3 := by
  have hlen : (s.dieStacks d).length ≤ 20 := 
    (List.length_filter_le _ _).trans_eq List.length_range
  exact Nat.div_le_div_right (Nat.mul_le_mul_right _ hlen)

/-- A slot holds the bytes that a channel has in a whole stack: 384 pieces of 2 MiB. -/
theorem chanByte_lt {o : Nat} (h : o < 384 * 2 ^ 28) : chanByte o < 393216 * 2048 := by
  unfold chanByte
  omega

theorem lt_of_below_reserve {o p : Nat} (h : o < (384 - p) * 2 ^ 28) : o < 384 * 2 ^ 28 ∧ p < 384 :=
  ⟨Nat.lt_of_lt_of_le h (Nat.mul_le_mul_right _ (Nat.sub_le 384 p)),
    Nat.lt_of_sub_pos (Nat.pos_of_mul_pos_right (Nat.zero_lt_of_lt h))⟩

/-- The run of a slot in which a byte stands names the slot, and with the place in it the byte. -/
theorem run_of_slotByte (slot : Nat) {x : Nat} (hx : x < 393216 * 2048) :
    (slot * 393216 + x / 2048) / 393216 = slot ∧ (slot * 393216 + x / 2048) % 393216 * 2048 + x % 2048 = x := by
  have hrun : x / 2048 < 393216 := Nat.div_lt_of_lt_mul (by rwa [Nat.mul_comm])
  rw [Nat.mul_comm slot, Nat.mul_add_div (by decide), Nat.div_eq_of_lt hrun, Nat.mul_add_mod, Nat.mod_eq_of_lt hrun]
  exact ⟨rfl, Nat.div_add_mod' x 2048⟩

/-- A channel has one run of 256 bytes in every 32 KiB, so a byte's place among its own bytes names its offset. -/
theorem chanByte_inj {o o' : Nat} (hc : chanOf o = chanOf o') (hb : chanByte o = chanByte o') : o = o' := by
  unfold chanByte at hb
  have hrun : o / 2 ^ 15 = o' / 2 ^ 15 := by omega
  have hin : bitsOf o 8 7 = bitsOf o' 8 7 := by
    have hhi : bitsOf o 15 7 = bitsOf o' 15 7 := by simp only [bitsOf, Nat.shiftRight_eq_div_pow, hrun]
    unfold chanOf at hc
    rw [hhi] at hc
    exact Nat.xor_left_injective hc
  simp only [bitsOf, Nat.shiftRight_eq_div_pow] at hin
  omega

section
variable {s : State} {d slot x : Nat} (hd : d < 4) (hslot : slot < s.slotsOf d) (hres : s.rd F.memReserve_PER_STACK < 384)
  (hx : x < 393216 * 2048)

include hslot hres hx in
/-- A byte of a slot stands in the reserve of one of the die's stacks. -/
theorem State.reserveKey_parts :
    s.reserveKey d slot x / 2 ^ 40 = 5 * d + (slot * 393216 + x / 2048) % s.stacksPerDie ∧
      s.reserveKey d slot x % 2 ^ 40 =
        (384 - s.rd F.memReserve_PER_STACK) * 2 ^ 28 + (slot * 393216 + x / 2048) / s.stacksPerDie * 2048 + x % 2048 := by
  have hle := s.slotsOf_le d
  unfold State.reserveKey
  dsimp only
  generalize s.rd F.memReserve_PER_STACK = p at *
  generalize s.slotsOf d = n at *
  obtain hm | hm := s.stacksPerDie_eq <;> rw [hm] <;> omega

include hd hslot hres hx in
/-- The bytes of a slot are those that stand in it, each in its piece. -/
theorem State.inSlot_reserveKey (ps : Nat → Bool) :
    s.inSlot d slot ps (s.reserveKey d slot x) = ps (x / 2 ^ 21) := by
  obtain ⟨hstack, hoff⟩ := State.reserveKey_parts hslot hres hx
  have hkey : s.reserveKey d slot x < 2 ^ 46 := by
    have := s.slotsOf_le d
    obtain hm | hm := s.stacksPerDie_eq <;> rw [hm] at hstack <;> omega
  have hm5 : s.stacksPerDie ≤ 5 := by obtain hm | hm := s.stacksPerDie_eq <;> omega
  have hm0 : 0 < s.stacksPerDie := by obtain hm | hm := s.stacksPerDie_eq <;> omega
  have hrun := Nat.div_add_mod' (slot * 393216 + x / 2048) s.stacksPerDie
  have hplace := Nat.mod_lt (slot * 393216 + x / 2048) hm0
  have hdie : (5 * d + (slot * 393216 + x / 2048) % s.stacksPerDie) / 5 = d := by omega
  have hstk : (5 * d + (slot * 393216 + x / 2048) % s.stacksPerDie) % 5 = (slot * 393216 + x / 2048) % s.stacksPerDie := by
    omega
  unfold State.inSlot
  simp only [hstack, hoff, hdie, hstk]
  have hrow : ((slot * 393216 + x / 2048) / s.stacksPerDie * 2048 + x % 2048) / 2048 =
      (slot * 393216 + x / 2048) / s.stacksPerDie := by omega
  have hcol : ((slot * 393216 + x / 2048) / s.stacksPerDie * 2048 + x % 2048) % 2048 = x % 2048 := by omega
  rw [Nat.add_assoc, Nat.add_sub_cancel_left, hrow, hcol, hrun]
  obtain ⟨hof, hbyte⟩ := run_of_slotByte slot hx
  simp only [hkey, hplace, hof, hbyte, Nat.le_add_right, and_self, decide_true, BEq.rfl, Bool.true_and]

include hslot hres in
theorem State.reserveKey_inj {y : Nat} (hx : x < 393216 * 2048) (hy : y < 393216 * 2048)
    (h : s.reserveKey d slot x = s.reserveKey d slot y) : x = y := by
  obtain ⟨hsx, hox⟩ := State.reserveKey_parts hslot hres hx
  obtain ⟨hsy, hoy⟩ := State.reserveKey_parts hslot hres hy
  rw [h] at hsx hox
  obtain hm | hm := s.stacksPerDie_eq <;> rw [hm] at hsx hox hsy hoy <;> omega

end

/-! ### A piece copied (R301) -/

/-- Where the byte of a key of a channel stands in a slot. -/
def State.copiedKey (s : State) (d slot key : Nat) : Nat := s.reserveKey d slot (chanByte (key % 2 ^ 40))

theorem State.mem_copyPieces (s : State) (n c : Nat) (r : RetireCopy) (ps : Nat → Bool) :
    (s.copyPieces n c r ps).2.mem = Mem.copyTo (s.onPieces n c ps) (s.copiedKey (n / 5) r.slot) s.mem
      (s.mem.filter (fun e => !s.inSlot (n / 5) r.slot ps e.1)) := rfl

theorem State.onPieces_iff {s : State} {n c key : Nat} {ps : Nat → Bool} (hn : n < 64) :
    s.onPieces n c ps key = true ↔ key = n * 2 ^ 40 + key % 2 ^ 40 ∧
      key % 2 ^ 40 < (384 - s.rd F.memReserve_PER_STACK) * 2 ^ 28 ∧ chanOf (key % 2 ^ 40) = c ∧
      ps (pieceOf (key % 2 ^ 40)) = true := by
  simp only [State.onPieces, Bool.and_eq_true, decide_eq_true_eq, beq_iff_eq, and_assoc]
  constructor
  · rintro ⟨-, ho, hkey, hrest⟩
    exact ⟨by omega, ho, hrest⟩
  · rintro ⟨hkey, ho, hrest⟩
    exact ⟨by omega, ho, by omega, hrest⟩

section
variable {s : State} {n c : Nat} {r : RetireCopy} {ps : Nat → Bool} (hn : n < 20) (hslot : r.slot < s.slotsOf (n / 5))
include hn hslot

theorem State.inSlot_copiedKey {key : Nat} (h : s.onPieces n c ps key = true) :
    s.inSlot (n / 5) r.slot ps (s.copiedKey (n / 5) r.slot key) = true := by
  obtain ⟨-, ho, -, hp⟩ := (State.onPieces_iff (by omega)).mp h
  obtain ⟨hlt, hres⟩ := lt_of_below_reserve ho
  exact (State.inSlot_reserveKey (by omega) hslot hres (chanByte_lt hlt) ps).trans hp

theorem State.copiedKey_inj {key key' : Nat} (h : s.onPieces n c ps key = true) (h' : s.onPieces n c ps key' = true)
    (heq : s.copiedKey (n / 5) r.slot key = s.copiedKey (n / 5) r.slot key') : key = key' := by
  obtain ⟨hkey, ho, hc, -⟩ := (State.onPieces_iff (by omega)).mp h
  obtain ⟨hkey', ho', hc', -⟩ := (State.onPieces_iff (by omega)).mp h'
  obtain ⟨hlt, hres⟩ := lt_of_below_reserve ho
  have hbyte := State.reserveKey_inj hslot hres (chanByte_lt hlt) (chanByte_lt (lt_of_below_reserve ho').1) heq
  rw [hkey, hkey', chanByte_inj (hc.trans hc'.symm) hbyte]

/-- A byte of the pieces stands in the slot. -/
theorem State.read_copyPieces_slot (hmem : s.mem.wf = true) {o : Nat}
    (ho : o < (384 - s.rd F.memReserve_PER_STACK) * 2 ^ 28) (hc : chanOf o = c) (hp : ps (pieceOf o) = true) :
    (s.copyPieces n c r ps).2.mem.read (s.reserveKey (n / 5) r.slot (chanByte o)) = s.mem.read (n * 2 ^ 40 + o) := by
  have hmod : (n * 2 ^ 40 + o) % 2 ^ 40 = o := by omega
  have hon : s.onPieces n c ps (n * 2 ^ 40 + o) = true :=
    (State.onPieces_iff (by omega)).mpr (by rw [hmod]; exact ⟨rfl, ho, hc, hp⟩)
  have hkey : s.reserveKey (n / 5) r.slot (chanByte o) = s.copiedKey (n / 5) r.slot (n * 2 ^ 40 + o) := by
    rw [State.copiedKey, hmod]
  rw [State.mem_copyPieces, hkey, Mem.read_copyTo _ _ ((Mem.wf_iff _).mp hmem).1 hon
    fun key hkey heq => State.copiedKey_inj hn hslot hkey hon heq,
    Mem.read_filter _ fun key => !s.inSlot (n / 5) r.slot ps key, State.inSlot_copiedKey hn hslot hon]
  rfl

/-- Outside the slot's bytes of the pieces memory stands. -/
theorem State.read_copyPieces_other {key : Nat} (h : s.inSlot (n / 5) r.slot ps key = false) :
    (s.copyPieces n c r ps).2.mem.read key = s.mem.read key := by
  rw [State.mem_copyPieces, Mem.read_copyTo_other _ _ fun a ha heq => ?_,
    Mem.read_filter _ fun key => !s.inSlot (n / 5) r.slot ps key, h]
  · rfl
  · rw [← heq, State.inSlot_copiedKey hn hslot ha] at h
    cases h

end

section
variable {s : State} {n c o : Nat} {r : RetireCopy} (hslots : look s.rel.slots (128 * n + c) = none)
  (hcopy : look s.rel.copies (128 * n + c) = some r) (hc : chanOf o = c)
include hslots hcopy hc

/-- Of a retiring channel a byte stands in the slot once its piece is copied (R301 step 3). -/
theorem State.homeKey_of_copy :
    s.homeKey n o = if pieceOf o < r.piece then s.reserveKey (n / 5) r.slot (chanByte o) else n * 2 ^ 40 + o := by
  unfold State.homeKey
  simp only [hc, hslots, hcopy]

end

/-- The piece due of a channel copied, and the next one due. -/
def State.pieceCopied (s : State) (n c : Nat) (r : RetireCopy) : State :=
  let q := s.copyPieces n c r (· == r.piece)
  { q.2 with rel := { q.2.rel with
    copies := put q.2.rel.copies (128 * n + c) { r with piece := r.piece + 1, poisoned := r.poisoned + q.1 } } }

theorem State.look_copies_pieceCopied (s : State) (n c : Nat) (r : RetireCopy) :
    ∃ bad, look (s.pieceCopied n c r).rel.copies (128 * n + c) =
      some { r with piece := r.piece + 1, poisoned := r.poisoned + bad } := ⟨_, look_put_same _ _ _⟩

theorem exec_retireCopyPiece {stack : Fin 20} {channel : Fin 128} {s : State} {r : RetireCopy}
    (hcopy : look s.rel.copies (128 * stack.val + channel.val) = some r) (hr : r.piece < 383) :
    exec (.retireCopyPiece stack channel) s = .next (s.pieceCopied stack.val channel.val r) := by
  show execRetireCopyPiece stack channel s = _
  unfold execRetireCopyPiece
  simp only [hcopy]
  rw [if_neg (by omega)]
  rfl

theorem retireCopyPiece_leads {stack : Fin 20} {channel : Fin 128} {s : State} {r : RetireCopy} (hmem : s.mem.wf = true)
    (hcopy : look s.rel.copies (128 * stack.val + channel.val) = some r)
    (hslots : look s.rel.slots (128 * stack.val + channel.val) = none) (hslot : r.slot < s.slotsOf (stack.val / 5))
    (hr : r.piece < 383) :
    leads (.retireCopyPiece stack channel) s (fun t =>
      (∃ bad, look t.rel.copies (128 * stack.val + channel.val) =
        some { r with piece := r.piece + 1, poisoned := r.poisoned + bad }) ∧
      (∀ o, o < (384 - s.rd F.memReserve_PER_STACK) * 2 ^ 28 → chanOf o = channel.val → pieceOf o = r.piece →
        s.homeKey stack.val o = stack.val * 2 ^ 40 + o ∧
        t.homeKey stack.val o = s.reserveKey (stack.val / 5) r.slot (chanByte o) ∧
        t.mem.read (t.homeKey stack.val o) = s.mem.read (stack.val * 2 ^ 40 + o)) ∧
      (∀ key, s.inSlot (stack.val / 5) r.slot (fun p => p == r.piece) key = false → t.mem.read key = s.mem.read key) ∧
      t.regs = s.regs ∧ t.rel.slots = s.rel.slots) := by
  obtain ⟨bad, hnext⟩ := s.look_copies_pieceCopied stack.val channel.val r
  refine ⟨_, exec_retireCopyPiece hcopy hr, ⟨bad, hnext⟩, fun o ho hc hp => ?_,
    fun key hkey => State.read_copyPieces_other stack.isLt hslot hkey, rfl, rfl⟩
  have hfrom := State.homeKey_of_copy hslots hcopy hc
  have hto := State.homeKey_of_copy (s := s.pieceCopied stack.val channel.val r) hslots hnext hc
  rw [hp, if_neg (Nat.lt_irrefl _)] at hfrom
  rw [hp, if_pos (Nat.lt_succ_self _)] at hto
  rw [hto]
  exact ⟨hfrom, rfl, State.read_copyPieces_slot stack.isLt hslot hmem ho hc (beq_iff_eq.mpr hp)⟩

end Sys2Proof.Machine
end

section
/-!
What the operations on granules and cached lines leave of the state (R294, R304): each as the state with the few fields
that it may change.
-/
namespace Sys2Proof.Machine

section
variable (s : State)

theorem State.watchLane_frame (n c : Nat) (bad : BitVec 72) :
    ∃ sig retrain, s.watchLane n c bad = { s with rel := { s.rel with sig := sig, retrain := retrain } } := by
  unfold State.watchLane
  dsimp only
  repeat' split
  all_goals exact ⟨_, _, rfl⟩

/-- The counts of a corrected granule: of its stack, of the life log, and of its channel's window (R294). -/
def State.countCorrected (n c : Nat) : State :=
  let u := (s.count F.memEccCount_CORRECTED n 1).lifeAdd (0x0340 + 8 * (128 * n + c)) 4 1
  { u with rel := { u.rel with ceWin := put u.rel.ceWin (128 * n + c) (lookD u.rel.ceWin (128 * n + c) 0 + 1) } }

theorem State.corrected_eq (key : Nat) (bad : BitVec 72) :
    s.corrected key bad =
      let n := key / 2 ^ 40 % 64
      let c := chanOf (key % 2 ^ 40)
      let u := (s.countCorrected n c).watchLane n c bad
      if u.retrainPending n c then u else { u with ecc := del u.ecc key } := rfl

/-- A granule corrected is counted, and loses its error mark unless its group is to be trained again (R294). -/
theorem State.corrected_frame (key : Nat) (bad : BitVec 72) :
    ∃ l r e, s.corrected key bad =
        { s.count F.memEccCount_CORRECTED (key / 2 ^ 40 % 64) 1 with life := l, rel := r, ecc := e } ∧
      r.held = s.rel.held ∧
      (r.retrain.contains (4 * (key / 2 ^ 40 % 64) + chanOf (key % 2 ^ 40) / 32) = false → e = del s.ecc key) := by
  rw [State.corrected_eq]
  generalize key / 2 ^ 40 % 64 = n
  generalize chanOf (key % 2 ^ 40) = c
  obtain ⟨sig, retrain, hw⟩ := (s.countCorrected n c).watchLane_frame n c bad
  dsimp only
  rw [hw]
  split
  next hp => exact ⟨_, _, _, rfl, rfl, fun h => absurd (hp.symm.trans h) (by decide)⟩
  next => exact ⟨_, _, _, rfl, rfl, fun _ => rfl⟩

theorem State.writeBack_frame (line : Nat) : ∃ e c, s.writeBack line = { s with ecc := e, cache := c } ∧
    ∀ k, look s.cache k = none → k ≠ line → look c k = none := by
  have hfold : ∀ (d : BitVec 4) (n o : Nat), ∃ e, (List.range 4).foldl (fun s i =>
      if d.getLsbD i then { s with ecc := del s.ecc (s.homeKey n (o + 64 * i)) } else s) s = { s with ecc := e } :=
    fun d n o => List.foldlRecOn (motive := fun t : State => ∃ e, t = { s with ecc := e }) _ _ ⟨s.ecc, rfl⟩
      fun t ⟨e, ht⟩ i _ => by
        split
        · exact ⟨_, by rw [ht]⟩
        · exact ⟨e, ht⟩
  unfold State.writeBack
  dsimp only
  obtain ⟨e, he⟩ := hfold (lookD s.cache line {}).dirty (line / 2 ^ 32) (line % 2 ^ 32 * 256)
  rw [he]
  split
  · exact ⟨_, _, rfl, fun _ hk _ => hk⟩
  · exact ⟨_, _, rfl, fun k hk hne => (look_put_other _ _ hne).trans hk⟩

theorem State.dropLine_frame (line : Nat) : ∃ e c, s.dropLine line = { s with ecc := e, cache := c } ∧
    ∀ k, look s.cache k = none → look c k = none := by
  obtain ⟨e, c, hback, hnone⟩ := s.writeBack_frame line
  unfold State.dropLine
  rw [hback]
  refine ⟨_, _, rfl, fun k hk => ?_⟩
  rw [look_del]
  split
  · rfl
  next hne => exact hnone k hk hne

/-- Room for a line that is not held: another line may go. -/
theorem State.lineRoom_frame (line : Nat) : ∃ e c m, s.lineRoom line = { s with ecc := e, cache := c, nfree := m } ∧
    (look s.cache line = none → look c line = none) := by
  unfold State.lineRoom State.fresh
  dsimp only
  split
  · exact ⟨_, _, _, rfl, id⟩
  · split
    · exact ⟨_, _, _, rfl, id⟩
    · split
      · obtain ⟨e, c, hdrop, hnone⟩ := State.dropLine_frame { s with nfree := s.nfree + 1 } _
        exact ⟨e, c, _, hdrop, hnone line⟩
      · exact ⟨_, _, _, rfl, id⟩

/-- A granule comes to be held by its home cache; the rest of its line stands. -/
theorem State.cacheFill_frame (n o : Nat) (dirty : Bool) :
    let l := lookD s.cache (lineOf n o) {}
    let bit : BitVec 4 := BitVec.ofNat 4 (1 <<< sectorOf o)
    ∃ e c m, s.cacheFill n o dirty = { s with ecc := e, cache := c, nfree := m } ∧
      look c (lineOf n o) = some { valid := l.valid ||| bit, dirty := if dirty then l.dirty ||| bit else l.dirty } := by
  unfold State.cacheFill
  dsimp only
  by_cases hl : (look s.cache (lineOf n o)).isSome = true
  · rw [if_pos hl]
    exact ⟨_, _, _, rfl, look_put_same _ _ _⟩
  · rw [if_neg hl]
    obtain ⟨e, c, m, hroom, hnone⟩ := s.lineRoom_frame (lineOf n o)
    rw [hroom]
    have h := Option.not_isSome_iff_eq_none.mp hl
    refine ⟨_, _, _, rfl, ?_⟩
    rw [look_put_same, lookD, lookD, hnone h, h]

theorem State.poke_frame (pa : Nat) (b : Byte) : ∃ m h, s.poke pa b = { s with mem := m, host := h } := by
  unfold State.poke
  split
  · exact ⟨_, _, rfl⟩
  · split
    · exact ⟨_, _, rfl⟩
    · exact ⟨_, _, rfl⟩

theorem State.pokeN_frame (pa : Nat) (bs : List Byte) : ∃ m h, s.pokeN pa bs = { s with mem := m, host := h } := by
  induction bs generalizing pa s with
  | nil => exact ⟨_, _, rfl⟩
  | cons b bs ih =>
    obtain ⟨m, h, hpoke⟩ := s.poke_frame pa b
    obtain ⟨m', h', hrest⟩ := ih { s with mem := m, host := h } (pa + 1)
    exact ⟨m', h', by rw [State.pokeN, hpoke, hrest]⟩

end
end Sys2Proof.Machine
end

section
/-!
What the delivery of a notice leaves beside what `Told` says of it: the notices that are held back (R524), a lost granule
that MEM_ERR_LOG holds (R322), and, where no queue rings a doorbell in memory (R404), the counts of the codes.
-/
namespace Sys2Proof.Machine

/-- The notices held back stand, and MEM_ERR_LOG still holds a granule when it held one. -/
structure LogsStand (s t : State) : Prop where
  held : t.rel.held = s.rel.held
  logged : s.flag F.memErrLog_VALID = true → t.flag F.memErrLog_VALID = true

section
variable {s t u : State}

theorem LogsStand.refl (s : State) : LogsStand s s := ⟨rfl, id⟩

theorem LogsStand.trans (h : LogsStand s t) (k : LogsStand t u) : LogsStand s u :=
  ⟨k.held.trans h.held, k.logged ∘ h.logged⟩

theorem LogsStand.of_regs (hr : t.regs = s.regs) (hh : t.rel.held = s.rel.held) : LogsStand s t :=
  ⟨hh, by unfold State.flag State.rd; rw [State.reg_of_regs hr]; exact id⟩

theorem LogsStand.wr (s : State) (f : Fld) {i : Nat} (v : Nat) (hi : i < 1048576) (hf : f.reg ≠ Reg.memErrLog) :
    LogsStand s (s.wr f i v) :=
  ⟨rfl, by unfold State.flag; rw [State.rd_wr_ne _ _ _ _ _ _ hf.symm hi (by decide)]; exact id⟩

theorem LogsStand.count (s : State) (f : Fld) {i : Nat} (n : Nat) (hi : i < 1048576) (hf : f.reg ≠ Reg.memErrLog) :
    LogsStand s (s.count f i n) := .wr s f _ hi hf

end

/-! ### Writes of memory -/

theorem LogsStand.domUp (s : State) {d : Nat} (h : d < 1048576) : LogsStand s (s.domUp d) :=
  (((LogsStand.wr s F.pwrDomStatus_STATE Dom.on h (by decide)).trans
    (.wr _ F.pwrDomStatus_WAKING 0 h (by decide))).trans
    (.count _ F.pwrDomStatus_WAKES 1 h (by decide))).trans (.of_regs rfl rfl)

section
variable (s : State) {p : Place} (hp : ∀ n o, p = .stack n o → n < 40)
include hp

theorem LogsStand.touch : LogsStand s (s.touch p) := by
  unfold State.touch
  split
  next n o =>
    have := hp n o rfl
    dsimp only
    split
    · exact .refl s
    · split
      · exact .domUp s (by unfold dieDom; omega)
      · split
        · exact .of_regs rfl rfl
        · exact .refl s
  next => exact .refl s

end

theorem LogsStand.corrected (s : State) (key : Nat) (bad : BitVec 72) : LogsStand s (s.corrected key bad) := by
  obtain ⟨l, r, e, heq, hheld, -⟩ := s.corrected_frame key bad
  rw [heq]
  exact ⟨hheld, (LogsStand.count s F.memEccCount_CORRECTED 1 (by omega) (by decide)).logged⟩

theorem LogsStand.logLost (s : State) (pa n c : Nat) (poison sram : Bool) : LogsStand s (s.logLost pa n c poison sram) := by
  unfold State.logLost
  split
  · exact .refl s
  next h => exact ⟨rfl, fun hv => absurd hv h⟩

theorem LogsStand.lostRead (s : State) (pa : Nat) {p : Place} (poison : Bool) (hp : ∀ n o, p = .stack n o → n < 40) :
    LogsStand s (s.lostRead pa p poison) := by
  unfold State.lostRead
  split
  next n o =>
    refine (LogsStand.count s F.memEccCount_UNCORRECTABLE 1 (Nat.lt_trans (hp n o rfl) (by decide)) (by decide)).trans ?_
    refine .trans ?_ (.logLost _ _ _ _ _ _)
    exact .of_regs rfl rfl
  next => exact .logLost _ _ _ _ _ _

theorem LogsStand.cacheFill (s : State) (n o : Nat) (dirty : Bool) : LogsStand s (s.cacheFill n o dirty) := by
  obtain ⟨e, c, m, heq, -⟩ := s.cacheFill_frame n o dirty
  rw [heq]
  exact .of_regs rfl rfl

theorem LogsStand.pokeN (s : State) (pa : Nat) (bs : List Byte) : LogsStand s (s.pokeN pa bs) := by
  obtain ⟨m, h, heq⟩ := s.pokeN_frame pa bs
  rw [heq]
  exact .of_regs rfl rfl

section
variable (s : State) (pa : Nat)

theorem LogsStand.stackGran {n : Nat} (hn : n < 40) (o key : Nat) : LogsStand s (s.stackGran pa n o key).2 := by
  unfold State.stackGran
  dsimp only
  split
  · exact .refl s
  · exact .corrected s _ _
  · exact .lostRead s pa _ fun _ _ h => (Place.stack.inj h).1 ▸ hn
  · refine .trans ?_ (.corrected _ _ _)
    exact .of_regs rfl rfl

theorem LogsStand.judgeGran {p : Place} (hp : ∀ n o, p = .stack n o → n < 40) : LogsStand s (s.judgeGran pa p).2 := by
  unfold State.judgeGran
  split
  next n o =>
    split
    · exact .lostRead s pa _ hp
    · split
      · exact .refl s
      · have hgran := LogsStand.stackGran s pa (hp n o rfl) o (s.homeKey n o)
        split
        next h => rw [h] at hgran; exact hgran
        next h => rw [h] at hgran; exact hgran.trans (.cacheFill _ _ _ _)
  next =>
    split
    · exact .refl s
    · split
      · exact .lostRead s pa _ hp
      · exact .refl s

theorem LogsStand.writeGran (bs : List Byte) : LogsStand s (s.writeGran pa bs).2 := by
  have hp := s.place_stack_lt (pa / 64 * 64)
  have htouch := LogsStand.touch s hp
  unfold State.writeGran
  dsimp only
  generalize s.touch (s.place (pa / 64 * 64)) = t at *
  split
  · exact htouch
  · split
    next n o _ =>
      split
      · exact (htouch.trans (.pokeN t pa bs)).trans (.cacheFill _ _ _ _)
      · have hjudge := htouch.trans (LogsStand.judgeGran t pa hp)
        split
        next h => rw [h] at hjudge; exact hjudge
        next h => rw [h] at hjudge; exact (hjudge.trans (.pokeN _ pa bs)).trans (.cacheFill _ _ _ _)
    next =>
      split
      · refine .trans ?_ (.pokeN _ pa bs)
        exact htouch.trans (.of_regs rfl rfl)
      · split
        · exact htouch
        · exact htouch.trans (.pokeN t pa bs)

theorem LogsStand.writePhys (bs : List Byte) : LogsStand s (s.writePhys pa bs).2 :=
  List.foldlRecOn (motive := fun a : Bool × State => LogsStand s a.2) _ _ (.refl s)
    fun _ h g _ => h.trans (.writeGran _ g.1 g.2)

end

/-! ### Queues and notices -/

/-- The notices held back and MEM_ERR_LOG stand so, and with no queue that rings in memory the counts of the codes do. -/
structure Delivered (s t : State) : Prop extends LogsStand s t where
  quiet : s.quietQueues → t.quietQueues ∧ ∀ i, i < 1048576 → t.reg Reg.memEccCount i = s.reg Reg.memEccCount i

section
variable {s t u : State}

theorem Delivered.refl (s : State) : Delivered s s := ⟨.refl s, fun h => ⟨h, fun _ _ => rfl⟩⟩

theorem Delivered.trans (h : Delivered s t) (k : Delivered t u) : Delivered s u :=
  ⟨h.toLogsStand.trans k.toLogsStand, fun hq =>
    have ⟨ht, hst⟩ := h.quiet hq
    have ⟨hu, htu⟩ := k.quiet ht
    ⟨hu, fun i hi => (htu i hi).trans (hst i hi)⟩⟩

theorem Delivered.of_regs (hr : t.regs = s.regs) (hh : t.rel.held = s.rel.held) : Delivered s t :=
  ⟨.of_regs hr hh, fun hq => ⟨fun q hlt => by unfold State.rd; rw [State.reg_of_regs hr]; exact hq q hlt,
    fun i _ => State.reg_of_regs hr _ i⟩⟩

theorem Delivered.wr (s : State) (f : Fld) {i : Nat} (v : Nat) (hi : i < 1048576)
    (hf : f.reg = Reg.queLost ∨ f.reg = Reg.hubHealth) : Delivered s (s.wr f i v) := by
  have hne : ∀ r, r ≠ Reg.queLost → r ≠ Reg.hubHealth → r ≠ f.reg := fun r h h' => by
    obtain h'' | h'' := hf <;> rw [h''] <;> assumption
  refine ⟨.wr s f v hi (hne _ (by decide) (by decide)).symm, fun hq => ⟨fun q hlt => ?_, fun j hj => ?_⟩⟩
  · rw [State.rd_wr_ne _ _ _ _ _ _ (hne _ (by decide) (by decide)) hi (by omega)]
    exact hq q hlt
  · refine State.reg_wr_other _ _ _ _ ?_
    rw [Ne, regKey_inj hj hi]
    exact fun h => hne _ (by decide) (by decide) h.1

theorem Delivered.count (s : State) (f : Fld) {i : Nat} (n : Nat) (hi : i < 1048576)
    (hf : f.reg = Reg.queLost ∨ f.reg = Reg.hubHealth) : Delivered s (s.count f i n) := .wr s f _ hi hf

theorem Delivered.countLost (s : State) {q : Nat} (e p : Nat) (hq : q < 256) : Delivered s (s.countLost q e p) :=
  ((Delivered.count s F.queLost_ENTRIES e (by omega) (.inl rfl)).trans
    (.count _ F.queLost_PACKETS p (by omega) (.inl rfl))).trans (.of_regs rfl rfl)

theorem Delivered.interrupt (s : State) (v : Nat) : Delivered s (s.interrupt v) := by
  unfold State.interrupt
  split <;> exact .of_regs rfl rfl

theorem Delivered.queNotify (s : State) {q : Nat} (n : Nat) (hq : q < 256) : Delivered s (s.queNotify q n) := by
  unfold State.queNotify
  split
  · exact .interrupt s _
  next hmode => exact ⟨.writePhys s _ _, fun h => absurd hmode (h q hq)⟩
  · exact .refl s

theorem Delivered.quePut (s : State) {q : Nat} (prio : Nat) (ents : List (List Byte)) (producer : Nat) (hq : q < 256) :
    Delivered s (s.quePut q prio ents producer).2.1 := by
  unfold State.quePut
  dsimp only
  split
  · split
    · split <;> exact .of_regs rfl rfl
    · exact .of_regs rfl rfl
  · generalize makeRoom (s.queCap q) ents.length prio ((s.que q).pkts.length + 1) (s.que q) 0 0 0 = r
    obtain ⟨y, e, p, lp, stays⟩ := r
    have hcounted : Delivered s (if e = 0 then s else s.countLost q e p) := by
      split
      · exact .refl s
      · exact .countLost s e p hq
    dsimp only
    generalize (if e = 0 then s else s.countLost q e p) = t at *
    cases stays with
    | false => exact hcounted.trans (.of_regs rfl rfl)
    | true =>
      refine .trans ?_ (.queNotify (t.setQue q _) _ hq)
      exact hcounted.trans (.of_regs rfl rfl)

theorem Delivered.queReset (s : State) {q : Nat} (hq : q < 256) : Delivered s (s.queReset q).1 := by
  have hcount := (Delivered.countLost s ((s.que q).pkts.map (s.que q).left).sum (s.que q).pkts.length hq).trans
    (.count _ F.queLost_RESETS (i := q) 1 (by omega) (.inl rfl))
  unfold State.queReset
  dsimp only
  split
  · refine .trans ?_ (.wr _ F.hubHealth_ERRQ_RESET (i := 0) 1 (by decide) (.inr rfl))
    exact hcount.trans (.of_regs rfl rfl)
  · exact hcount.trans (.of_regs rfl rfl)

theorem Delivered.noticePut (s : State) {q : Nat} (n : Ntc) (r : List Byte) (hq : q < 256) :
    Delivered s (s.noticePut q n r).1 := by
  have hfresh : Delivered s { s with nfree := s.nfree + 1 } := .of_regs rfl rfl
  unfold State.noticePut State.ptrsDiffer
  split
  · exact .quePut s _ _ _ hq
  · cases Config.ptrMismatch s.nfree with
    | false => exact hfresh.trans (.quePut _ _ _ _ hq)
    | true => exact hfresh.trans (.queReset _ hq)

theorem Delivered.deliver (s : State) {n : Ntc} (hn : n.named) : Delivered s (s.deliver n).1 := by
  have hseen : Delivered s (if n.sev = Sev.fatal then s.wr F.hubHealth_FATAL_SEEN 0 1 else s) := by
    split
    · exact .wr s F.hubHealth_FATAL_SEEN 1 (by decide) (.inr rfl)
    · exact .refl s
  unfold State.deliver
  dsimp only
  generalize (if n.sev = Sev.fatal then s.wr F.hubHealth_FATAL_SEEN 0 1 else s) = t at *
  split
  · exact hseen.trans (.of_regs rfl rfl)
  · have hfirst := hseen.trans (.noticePut t (q := 0) n (n.record t.time) (by decide))
    split
    next c hc _ => exact hfirst.trans (.noticePut _ n _ (by have := hn c hc; omega))
    next => exact hfirst

theorem Delivered.raiseN (f : Nat) (s : State) {n : Ntc} (hn : n.named) : Delivered s (State.raiseN f s n) := by
  induction f generalizing s n with
  | zero => exact .refl s
  | succ f ih =>
    exact List.foldlRecOn (motive := fun t : State => Delivered s t) _ _ (.deliver s hn)
      fun t ht m hm => ht.trans (ih t ((Told.deliver s n hn).2 m hm))

end

/-! ### Notices raised -/

section
variable {s : State} {n : Ntc} (hn : n.named)
include hn

/-- MEM_ERR_LOG keeps the granule that it holds while a notice is raised. -/
theorem State.logged_raise (h : s.flag F.memErrLog_VALID = true) : (s.raise n).flag F.memErrLog_VALID = true := by
  unfold State.raise
  split
  · dsimp only
    split
    · exact h
    · exact h
  · exact (Delivered.raiseN 4 s hn).logged h

/-- Where no queue rings in memory a notice leaves the counts of the codes. -/
theorem State.eccCount_raise (hq : s.quietQueues) {i : Nat} (hi : i < 1048576) :
    (s.raise n).reg Reg.memEccCount i = s.reg Reg.memEccCount i := by
  unfold State.raise
  split
  · dsimp only
    split
    · rfl
    · rfl
  · exact ((Delivered.raiseN 4 s hn).quiet hq).2 i hi

end

end Sys2Proof.Machine
end

section
/-!
Tests of idle tiles (R521), what the decoder makes of a granule (R293), and the scrub of the stacks (R294, R296, R311).
-/
namespace Sys2Proof.Machine

/-! ### Tests of idle tiles (R521) -/

theorem State.rel_askWake (s : State) (d : Nat) : (s.askWake d).rel = s.rel := by
  unfold State.askWake
  dsimp only
  split <;> rfl

/-- A fitted domain that is not ON has a wake under way once it is asked for. -/
theorem State.wake_askWake {s : State} {d : Nat} (hoff : s.domOn d = false) (hf : s.domFitted d = true) :
    (look (s.askWake d).pwr.wake d).isSome = true := by
  unfold State.askWake
  dsimp only
  split
  next h =>
    change (s.domOn d || !s.domFitted d || (look s.pwr.wake d).isSome) = true at h
    rwa [hoff, hf] at h
  next => exact congrArg Option.isSome (look_put_same _ _ _)

theorem State.domOn_of_testDue {s : State} {t : Nat} (h : s.testDue t = true) : s.domOn (tileDom t) = false := by
  simp only [State.testDue, Bool.and_eq_true, Bool.not_eq_true'] at h
  obtain ⟨⟨⟨⟨-, hoff⟩, -⟩, -⟩, -⟩ := h
  exact hoff

theorem tileIdleTest_leads {tile : Fin 48} {s : State} (h : s.testDue tile.val = true) :
    leads (.tileIdleTest tile) s (fun t =>
      t.rel.testing = s.rel.testing ++ [tile.val] ∧ t.mem = s.mem ∧ t.rings = s.rings ∧
      (s.domFitted (tileDom tile.val) = true → (look t.pwr.wake (tileDom tile.val)).isSome = true)) := by
  obtain ⟨-, hmem, hrings⟩ :=
    State.askWake_frame { s with rel := { s.rel with testing := s.rel.testing ++ [tile.val] } } (tileDom tile.val)
  have hoff := State.domOn_of_testDue h
  exact ⟨_, congrArg Host.Outcome.next (if_pos h), by rw [State.rel_askWake], hmem, hrings,
    fun hf => State.wake_askWake (s := { s with rel := _ }) hoff hf⟩

theorem tileTestEnd_leads {tile : Fin 48} {s : State} (ht : tile.val ∈ s.rel.testing) (hon : s.domOn (tileDom tile.val) = true) :
    leads (.tileTestEnd tile 0) s (fun t =>
      t = { s with rel := { s.rel with testing := s.rel.testing.filter (· != tile.val),
                                       tested := put s.rel.tested tile.val (s.ivl + 1) } }) := by
  refine ⟨_, congrArg Host.Outcome.next (if_neg ?_), if_pos rfl⟩
  simp [ht, hon]

/-! ### The decoder (R293) -/

theorem badCount_pos {x : BitVec 72} (h : x ≠ 0) : badCount x ≠ 0 := fun h0 => h <| by
  refine BitVec.eq_of_getLsbD_eq fun i hi => ?_
  have hbit := List.countP_eq_zero.mp h0 i (List.mem_range.mpr hi)
  simpa using hbit

section
variable {g : Gran} {r : Nat} (hp : g.poison = false)
include hp

theorem Gran.decode_of_within (h0 : badCount g.bad ≠ 0) (h : badCount g.bad ≤ r) : g.decode r = .corrected := by
  unfold Gran.decode
  dsimp only
  rw [hp, if_neg (by decide), if_neg h0, if_pos h]

theorem Gran.decode_of_detected (h : r < badCount g.bad) (h' : badCount g.bad ≤ 8 - r) : g.decode r = .lost := by
  unfold Gran.decode
  dsimp only
  rw [hp, if_neg (by decide), if_neg (by omega), if_neg (by omega), if_pos h']

end

/-! ### Reports (R322, R323) -/

/-- The state with the counter of free values moved on. -/
def State.drawn (s : State) (m : Nat) : State := { s with nfree := m }

section
variable (s : State)

/-- A region ends below 2^50: its base and its share of each of at most twenty stacks are 16-bit counts of 256 MiB. -/
theorem State.regionEnd_le (r : Nat) : s.rd F.memRegionCfg_BASE r * 2 ^ 28 + s.regionBytes r ≤ 2 ^ 50 := by
  have hbase : s.rd F.memRegionCfg_BASE r < 2 ^ 16 := s.rd_lt F.memRegionCfg_BASE r
  have hshare : s.rd F.memRegionCfg_SHARE r < 2 ^ 16 := s.rd_lt F.memRegionCfg_SHARE r
  have hstacks : s.stacksPerDie ≤ 5 := by
    unfold State.stacksPerDie
    split <;> decide
  have hbytes : s.regionBytes r ≤ s.rd F.memRegionCfg_SHARE r * 2 ^ 28 * 20 :=
    Nat.mul_le_mul_left _ (by split <;> omega)
  omega

/-- The address of a report fits its field, and nothing but the counter of free values stands changed. -/
theorem State.reportAddr_frame (n o : Nat) : ∃ pa m, s.reportAddr n o = (pa, s.drawn m) ∧ pa < 2 ^ 50 := by
  unfold State.reportAddr
  split
  next pa h =>
    refine ⟨pa, s.nfree, rfl, ?_⟩
    unfold State.physOf at h
    obtain ⟨e, he, rfl⟩ := Option.map_eq_some_iff.mp h
    have hin := List.find?_some he
    simp only [Bool.and_eq_true, State.inRegion, decide_eq_true_eq] at hin
    obtain ⟨⟨-, hlt⟩, -⟩ := hin
    exact Nat.lt_of_lt_of_le hlt (s.regionEnd_le e.1)
  next => exact ⟨_, _, rfl, by omega⟩

theorem State.logLost_frame (pa n c : Nat) (poison sram : Bool) :
    ∃ w, s.logLost pa n c poison sram = { s with regs := w } := by
  unfold State.logLost
  split
  · exact ⟨_, rfl⟩
  · exact ⟨_, rfl⟩

theorem State.rd_logLost (pa n c : Nat) (poison sram : Bool) (f : Fld) {i : Nat} (hf : f.reg ≠ Reg.memErrLog)
    (hi : i < 1048576) : (s.logLost pa n c poison sram).rd f i = s.rd f i := by
  unfold State.logLost
  split
  · rfl
  · unfold State.rd
    rw [State.reg_setReg_other]
    rw [Ne, regKey_inj hi (by decide)]
    exact fun h => hf h.1

theorem State.flag_logLost {pa n c : Nat} (hpa : pa < 2 ^ 50) (hn : n < 40) (hc : c < 128) (poison sram : Bool) :
    (s.logLost pa n c poison sram).flag F.memErrLog_VALID = true := by
  unfold State.logLost
  split
  · assumption
  · have hpoison : b2n poison ≤ 1 := by cases poison <;> decide
    have hsram : b2n sram ≤ 1 := by cases sram <;> decide
    unfold State.flag State.rd
    rw [State.reg_setReg_same, BitVec.toNat_ofNat, beq_iff_eq]
    simp only [bitsOf, Nat.shiftLeft_eq, Nat.shiftRight_eq_div_pow]
    omega

end

theorem State.tellGran_eq (s : State) (n o pa : Nat) (poison : Bool) :
    ∃ x : Ntc, s.tellGran n o pa poison = s.raise x ∧ x.named := ⟨_, rfl, fun _ h => nomatch h⟩

theorem State.ecc_of_memories {s t : State} (h : t.memories = s.memories) : t.ecc = s.ecc :=
  congrArg (fun m => m.2.2.1) h

theorem State.cache_of_memories {s t : State} (h : t.memories = s.memories) : t.cache = s.cache :=
  congrArg (fun m => m.2.2.2) h

theorem chanOf_lt (o : Nat) : chanOf o < 128 := Nat.xor_lt_two_pow (n := 7) (bitsOf_lt o 8 7) (bitsOf_lt o 15 7)

/-- A lost granule of a stack read: it is counted, and MEM_ERR_LOG holds it or an earlier one (R296, R322). -/
theorem State.lostRead_stack (s : State) {pa n : Nat} (o : Nat) (poison : Bool) (hpa : pa < 2 ^ 50) (hn : n < 40) :
    let t := s.lostRead pa (.stack n o) poison
    (∃ w l, t = { s with regs := w, life := l }) ∧ t.flag F.memErrLog_VALID = true ∧
      t.rd F.memEccCount_UNCORRECTABLE n = satAdd F.memEccCount_UNCORRECTABLE.width (s.rd F.memEccCount_UNCORRECTABLE n) 1 := by
  unfold State.lostRead
  dsimp only
  generalize hu : (s.count F.memEccCount_UNCORRECTABLE n 1).lifeAdd _ 4 1 = u
  refine ⟨?_, u.flag_logLost hpa hn (chanOf_lt o) poison false, ?_⟩
  · obtain ⟨w, hw⟩ := u.logLost_frame pa n (chanOf o) poison false
    exact ⟨w, _, by rw [hw, ← hu]; rfl⟩
  · rw [State.rd_logLost _ _ _ _ _ _ _ (by decide) (by omega), ← hu]
    exact s.rd_count_same F.memEccCount_UNCORRECTABLE n 1 (by decide)

/-! ### The scrub of a stack (R293, R294, R311) -/

/-- What the scrub reads: the symbols in error stand in the granule's mark, and the free values drawn are counted. -/
def State.spoilt (s : State) (key : Nat) (g : Gran) (m : Nat) : State := { s with ecc := put s.ecc key g, nfree := m }

/-- A granule marked by the scrub: not poisoned, with these symbols in error. -/
def Gran.marked (g : Gran) (symbols : BitVec 72) : Prop := g.poison = false ∧ g.bad = symbols

section
variable {s : State} {key : Nat} {g : Gran} (hg : lookD s.ecc key {} = g) (hp : g.poison = false) {n o : Nat} (pa : Nat)
include hg hp

theorem State.stackGran_of_within (h0 : badCount g.bad ≠ 0) (h : badCount g.bad ≤ s.radius n o) :
    s.stackGran pa n o key = (false, s.corrected key g.bad) := by
  unfold State.stackGran
  dsimp only
  rw [hg, Gran.decode_of_within hp h0 h]

theorem State.stackGran_of_detected (h : s.radius n o < badCount g.bad) (h' : badCount g.bad ≤ 8 - s.radius n o) :
    s.stackGran pa n o key = (true, s.lostRead pa (.stack n o) false) := by
  unfold State.stackGran
  dsimp only
  rw [hg, Gran.decode_of_detected hp h h', hp]

end

/-- The stack's read by a scrub leaves the bytes of a granule that the shared cache holds dirty as they were. -/
def State.scrubbed (s : State) (n o : Nat) (t : State) : State := if s.dirtyAt n o then { t with mem := s.mem } else t

theorem State.scrubbed_of_mem {s t : State} (h : t.mem = s.mem) (n o : Nat) : s.scrubbed n o t = t := by
  unfold State.scrubbed
  split
  · rw [← h]
  · rfl

theorem State.scrubGran_of_kept {s : State} {n o : Nat} (h : s.chanLost n (chanOf o) = false) (pa : Nat) :
    s.scrubGran pa n o =
      let r := s.stackGran pa n o (s.homeKey n o)
      (r.1, s.scrubbed n o r.2) := by
  unfold State.scrubGran
  rw [h]
  rfl

section
variable {stack : Fin 20} {granule : BitVec 32} {symbols : BitVec 72} {s : State}
  (hup : s.stackUp stack.val = true) (hon : s.domOn (dieDom (stack.val / 5)) = true)
  (hlost : s.chanLost stack.val (chanOf (granule.toNat * 64)) = false)
  (hpoison : (lookD s.ecc (s.homeKey stack.val (granule.toNat * 64)) {}).poison = false) (hsym : symbols ≠ 0)

include hup hon hlost hpoison hsym in
theorem exec_patrolScrub : ∃ g m pa, g.marked symbols ∧ pa < 2 ^ 50 ∧
    exec (.patrolScrub stack granule symbols) s = .next (
      let n := stack.val
      let o := granule.toNat * 64
      let u := s.spoilt (s.homeKey n o) g m
      let r := u.stackGran pa n o (s.homeKey n o)
      if r.1 then (s.scrubbed n o r.2).tellGran n o pa false else s.scrubbed n o r.2) := by
  show ∃ g m pa, _ ∧ _ ∧ execPatrolScrub stack granule symbols s = _
  generalize hn : stack.val = n at *
  generalize ho : granule.toNat * 64 = o at *
  let g : Gran := { lookD s.ecc (s.homeKey n o) {} with bad := symbols, stamp := s.nfree }
  have hspoil : s.spoil (s.homeKey n o) symbols = s.spoilt (s.homeKey n o) g (s.nfree + 1) :=
    if_neg fun h => h.elim hsym fun hp => absurd (hp.symm.trans hpoison) (by decide)
  have hclean : (lookD (s.spoilt (s.homeKey n o) g (s.nfree + 1)).ecc
      ((s.spoilt (s.homeKey n o) g (s.nfree + 1)).homeKey n o) {}).poison = false :=
    (congrArg Gran.poison (lookD_put_same _ _ _ _)).trans hpoison
  obtain ⟨pa, m, hreport, hpa⟩ := (s.spoilt (s.homeKey n o) g (s.nfree + 1)).reportAddr_frame n o
  change _ = (pa, s.spoilt (s.homeKey n o) g m) at hreport
  have hscrub := State.scrubGran_of_kept (s := s.spoilt (s.homeKey n o) g m) (n := n) (o := o) hlost pa
  refine ⟨g, m, pa, ⟨hpoison, rfl⟩, hpa, ?_⟩
  unfold execPatrolScrub
  simp only [hn, ho, hup, hon, Bool.not_true, Bool.false_eq_true, or_self, if_false, hspoil, hreport, hclean, hscrub]
  cases hgone : ((s.spoilt (s.homeKey n o) g m).stackGran pa n o ((s.spoilt (s.homeKey n o) g m).homeKey n o)).1 with
  | false => exact congrArg Host.Outcome.next (if_neg (ne_true_of_eq_false hgone)).symm
  | true => exact congrArg Host.Outcome.next (if_pos hgone).symm

include hup hon hlost hpoison hsym

/-- A pattern within the radius is corrected and counted, and written back unless the group is to be trained again. -/
theorem patrolScrub_within (h : badCount symbols ≤ s.radius stack.val (granule.toNat * 64)) :
    let key := s.homeKey stack.val (granule.toNat * 64)
    let m := key / 2 ^ 40 % 64
    leads (.patrolScrub stack granule symbols) s (fun t =>
      t.rd F.memEccCount_CORRECTED m = satAdd 32 (s.rd F.memEccCount_CORRECTED m) 1 ∧
      t.rd F.memEccCount_UNCORRECTABLE stack.val = s.rd F.memEccCount_UNCORRECTABLE stack.val ∧
      (t.retrainPending m (chanOf (key % 2 ^ 40)) = false → look t.ecc key = none) ∧
      t.mem = s.mem ∧ t.host = s.host ∧ t.rings = s.rings ∧ keepsRegs s t [Reg.memEccCount]) := by
  obtain ⟨g, m, pa, ⟨hg, hbad⟩, -, hexec⟩ := exec_patrolScrub hup hon hlost hpoison hsym
  dsimp only at hexec ⊢
  generalize hk : s.homeKey stack.val (granule.toNat * 64) = key at *
  rw [State.stackGran_of_within (lookD_put_same _ _ _ _) hg pa (by rw [hbad]; exact badCount_pos hsym) (by rw [hbad]; exact h),
    if_neg Bool.false_ne_true] at hexec
  obtain ⟨l, r, e, hcorrected, -, hback⟩ := (s.spoilt key g m).corrected_frame key g.bad
  have hmem : ((s.spoilt key g m).corrected key g.bad).mem = s.mem := by
    rw [hcorrected]
    rfl
  rw [State.scrubbed_of_mem hmem, hcorrected] at hexec
  have hm : key / 2 ^ 40 % 64 < 64 := Nat.mod_lt _ (by decide)
  refine ⟨_, hexec, s.rd_count_same F.memEccCount_CORRECTED _ 1 (by decide), ?_, fun hr => ?_, rfl, rfl, rfl,
    keepsRegs_of_setReg (i := key / 2 ^ 40 % 64) (by omega) rfl⟩
  · by_cases hmn : stack.val = key / 2 ^ 40 % 64
    · rw [hmn]
      exact s.rd_wr_fld F.memEccCount_CORRECTED F.memEccCount_UNCORRECTABLE _ _ rfl (by decide) (by decide)
    · exact s.rd_wr_idx F.memEccCount_CORRECTED F.memEccCount_UNCORRECTABLE _ _ _ hmn (by omega) (by omega)
  · exact (congrArg (fun e => look e key) (hback hr)).trans (look_del_same _ _)

/-- A pattern that the code detects leaves the granule lost, counted and logged. -/
theorem patrolScrub_detected (h : s.radius stack.val (granule.toNat * 64) < badCount symbols)
    (h' : badCount symbols ≤ 8 - s.radius stack.val (granule.toNat * 64)) :
    leads (.patrolScrub stack granule symbols) s (fun t =>
      t.flag F.memErrLog_VALID = true ∧ t.rings = s.rings ∧
      (s.quietQueues → t.rd F.memEccCount_UNCORRECTABLE stack.val =
          satAdd F.memEccCount_UNCORRECTABLE.width (s.rd F.memEccCount_UNCORRECTABLE stack.val) 1 ∧
        (lookD t.ecc (s.homeKey stack.val (granule.toNat * 64)) {}).bad = symbols ∧ t.mem = s.mem)) := by
  obtain ⟨g, m, pa, ⟨hg, hbad⟩, hpa, hexec⟩ := exec_patrolScrub hup hon hlost hpoison hsym
  dsimp only at hexec
  generalize s.homeKey stack.val (granule.toNat * 64) = key at *
  have hn : stack.val < 40 := by omega
  rw [State.stackGran_of_detected (lookD_put_same _ _ _ _) hg pa (by rw [hbad]; exact h) (by rw [hbad]; exact h'),
    if_pos rfl] at hexec
  obtain ⟨⟨w, l, hframe⟩, hlogged, hcount⟩ := (s.spoilt key g m).lostRead_stack (granule.toNat * 64) false hpa hn
  have htold := Told.lostRead (s.spoilt key g m) pa (.stack stack.val (granule.toNat * 64)) false
    fun _ _ hp => (Place.stack.inj hp).1 ▸ hn
  generalize (s.spoilt key g m).lostRead pa (.stack stack.val (granule.toNat * 64)) false = v at *
  have hmem : v.mem = s.mem := by rw [hframe]; rfl
  rw [State.scrubbed_of_mem hmem] at hexec
  obtain ⟨x, hraise, hx⟩ := v.tellGran_eq stack.val (granule.toNat * 64) pa false
  rw [hraise] at hexec
  refine ⟨_, hexec, State.logged_raise hx hlogged, ?_, fun hq => ?_⟩
  · rw [(v.raise_told x hx).same State.rings fun _ => rfl, hframe]
    rfl
  · have hquiet : v.quietQueues := State.quietQueues_of_told htold hq
    have hstand := State.memories_raise hquiet hx
    refine ⟨?_, ?_, (State.mem_of_memories hstand).trans hmem⟩
    · unfold State.rd
      rw [State.eccCount_raise hx hquiet (by omega)]
      exact hcount
    · rw [State.ecc_of_memories hstand, hframe]
      exact (congrArg Gran.bad (lookD_put_same _ _ _ _)).trans hbad

end

end Sys2Proof.Machine
end

section
/-!
The scrubs of the tile stores and of the shared caches (R295, R297, R311), the inner code's counts (R292), and O23.
-/
namespace Sys2Proof.Machine

/-! ### The scrub of a tile store (R295, R297, R323) -/

theorem State.place_tile (s : State) {t o : Nat} (ht : t < 48) (ho : o < 0x1C00000) :
    s.place (0x080000000000 + t * 0x2000000 + o) = .tile t o := by
  have htop : s.stackTop ≤ 0x01E000000000 := by
    unfold State.stackTop
    split <;> decide
  generalize hpa : 0x080000000000 + t * 0x2000000 + o = pa
  have hdiv : (pa - 0x080000000000) / 0x2000000 = t := by omega
  have hmod : (pa - 0x080000000000) % 0x2000000 = o := by omega
  unfold State.place
  rw [if_neg (by omega), if_pos (by omega), hdiv, hmod]
  exact if_pos ho

/-- A word of a tile store that cannot be corrected: its granule is poisoned, logged and reported. The place of the address is
a variable while the word is told apart, for the kernel would count the address up to evaluate it. -/
theorem exec_sramScrub_tile {tile : Fin 48} {g : BitVec 20} {s : State} {pa t o : Nat}
    (hpa : 0x080000000000 + tile.val * 0x2000000 + g.toNat * 64 = pa) (hplace : s.place pa = .tile t o) :
    exec (.sramScrub (.tile tile g false)) s =
      .next (((s.poisonGran pa).logLost pa 0 0 true true).tellUncorrectable pa) := by
  show execSramScrub (.tile tile g false) s = _
  delta execSramScrub
  obtain ⟨place, hp⟩ := exists_eq' (a' := State.place)
  rw [hp] at hplace ⊢
  dsimp only
  rw [hpa, hplace]

/-! ### The scrub of a shared cache (R295) -/

section
variable {k : Nat} (hk : k < 4) (x : BitVec 4)
include hk

theorem getLsbD_with_sector : (x ||| BitVec.ofNat 4 (1 <<< k)).getLsbD k = true := by
  simp [BitVec.getLsbD_ofNat, hk]

theorem getLsbD_without_sector : (x &&& ~~~BitVec.ofNat 4 (1 <<< k)).getLsbD k = false := by
  simp [BitVec.getLsbD_ofNat, hk]

end

theorem sectorOf_lt (o : Nat) : sectorOf o < 4 := Nat.mod_lt _ (by decide)

/-- A granule given up is not held, and not dirty. -/
theorem State.cacheForget_frame (s : State) (n o : Nat) :
    ∃ c, s.cacheForget n o = { s with cache := c } ∧
      (lookD c (lineOf n o) {}).valid.getLsbD (sectorOf o) = false ∧
      (lookD c (lineOf n o) {}).dirty.getLsbD (sectorOf o) = false := by
  unfold State.cacheForget
  dsimp only
  split
  next h => exact ⟨_, rfl, by rw [lookD, h]; simp, by rw [lookD, h]; simp⟩
  next l h =>
    split
    · refine ⟨_, rfl, ?_⟩
      rw [lookD, look_del_same]
      simp
    · refine ⟨_, rfl, ?_⟩
      rw [lookD_put_same]
      exact ⟨getLsbD_without_sector (sectorOf_lt o) _, getLsbD_without_sector (sectorOf_lt o) _⟩

/-- A granule poisoned in its stack and given up by the shared cache. -/
def State.cachePoisoned (s : State) (n o : Nat) : State :=
  { s with ecc := put s.ecc (s.homeKey n o) { poison := true } }.cacheForget n o

theorem State.cachePoisoned_frame (s : State) (n o : Nat) :
    ∃ c, s.cachePoisoned n o = { s with ecc := put s.ecc (s.homeKey n o) { poison := true }, cache := c } ∧
      (lookD c (lineOf n o) {}).valid.getLsbD (sectorOf o) = false := by
  obtain ⟨c, hforget, hgone, -⟩ :=
    State.cacheForget_frame { s with ecc := put s.ecc (s.homeKey n o) { poison := true } } n o
  exact ⟨c, hforget, hgone⟩

/-- A granule that a shared cache has lost: given up, and counted as corrected. -/
def State.fetchCounted (s : State) (n o : Nat) : State :=
  ((s.cacheForget n o).count F.memEccCount_CORRECTED n 1).lifeAdd (0x0340 + 8 * (128 * n + chanOf o)) 4 1

theorem State.fetchCounted_frame (s : State) (n o : Nat) :
    ∃ c l, s.fetchCounted n o = { s.count F.memEccCount_CORRECTED n 1 with cache := c, life := l } ∧
      (lookD c (lineOf n o) {}).valid.getLsbD (sectorOf o) = false ∧
      (lookD c (lineOf n o) {}).dirty.getLsbD (sectorOf o) = false := by
  obtain ⟨c, hforget, hgone⟩ := s.cacheForget_frame n o
  exact ⟨c, _, by rw [State.fetchCounted, hforget]; rfl, hgone⟩

section
variable (s : State) {n : Nat} (hn : n < 1048576) (m o : Nat)

include hn in
/-- A count of the codes leaves the channels in and out of service. -/
theorem State.chanLost_count (f : Fld) (hf : f.reg = Reg.memEccCount) (k c : Nat) :
    (s.count f n k).chanLost n c = s.chanLost n c := by
  have hrd := fun (g : Fld) (hg : g.reg ≠ Reg.memEccCount) => s.rd_wr_ne f g n n (satAdd f.width (s.rd f n) k) (by rwa [hf]) hn hn
  unfold State.chanLost State.chanOut State.count
  rw [hrd F.memChRetiredLo_OUT (by decide), hrd F.memChRetiredHi_OUT (by decide)]
  rfl

include hn in
/-- A count of the codes leaves where the bytes of a channel stand. -/
theorem State.homeKey_count (f : Fld) (hf : f.reg = Reg.memEccCount) (k : Nat) :
    (s.count f n k).homeKey m o = s.homeKey m o := by
  have hrd := s.rd_wr_ne f F.memReserve_PER_STACK n 0 (satAdd f.width (s.rd f n) k) (by rw [hf]; decide) hn (by decide)
  unfold State.homeKey State.reserveKey State.count
  rw [hrd]
  rfl

end

theorem State.judgeGran_of_sound {s : State} {n o : Nat} (pa : Nat) (hlost : s.chanLost n (chanOf o) = false)
    (hheld : s.cached n o = false) (hgran : lookD s.ecc (s.homeKey n o) {} = {}) :
    s.judgeGran pa (.stack n o) = (false, s.cacheFill n o false) := by
  have hread : s.stackGran pa n o (s.homeKey n o) = (false, s) := by
    unfold State.stackGran
    dsimp only
    rw [hgran]
    rfl
  unfold State.judgeGran
  dsimp only
  rw [hlost, hheld, if_neg (by decide), if_neg (by decide), hread]

section
variable {s q : State} {n o pa : Nat} (hheld : s.cached n o = true) (hreport : s.reportAddr n o = (pa, q))
include hheld hreport

/-- Of a dirty line the granule is poisoned in its stack, given up, logged and reported. -/
theorem State.scrubCache_of_dirty (hdirty : q.dirtyAt n o = true) : ∃ x : Ntc, x.named ∧
    s.scrubCache n o = ((q.cachePoisoned n o).logLost pa 0 0 true true).raise x := by
  unfold State.scrubCache
  rw [hheld, if_neg (by decide), hreport]
  dsimp only
  rw [if_pos hdirty]
  refine ⟨_, ?_, rfl⟩
  exact fun _ h => nomatch h

/-- Of a clean line the granule is given up, counted as corrected, and fetched again. -/
theorem State.scrubCache_of_clean (hclean : q.dirtyAt n o = false) {t : State}
    (hread : (q.fetchCounted n o).judgeGran pa (.stack n o) = (false, t)) : s.scrubCache n o = t := by
  unfold State.scrubCache
  rw [hheld, if_neg (by decide), hreport]
  dsimp only
  rw [hclean, if_neg (by decide)]
  rw [State.fetchCounted] at hread
  rw [hread]

end

section
variable {stack : Fin 20} {g : BitVec 32} {s : State}
  (hup : s.stackUp stack.val = true) (hheld : s.cached stack.val (g.toNat * 64) = true)
include hup

theorem exec_sramScrub_cache :
    exec (.sramScrub (.cache stack g false)) s = .next (s.scrubCache stack.val (g.toNat * 64)) :=
  congrArg Host.Outcome.next (if_pos hup)

include hheld

theorem sramScrub_dirty (hdirty : s.dirtyAt stack.val (g.toNat * 64) = true) :
    leads (.sramScrub (.cache stack g false)) s (fun t => t.flag F.memErrLog_VALID = true ∧ t.rings = s.rings ∧
      (s.quietQueues → (lookD t.ecc (s.homeKey stack.val (g.toNat * 64)) {}).poison = true ∧
        t.cached stack.val (g.toNat * 64) = false ∧ t.mem = s.mem)) := by
  have hexec := exec_sramScrub_cache (g := g) hup
  generalize g.toNat * 64 = o at *
  obtain ⟨pa, m, hreport, hpa⟩ := s.reportAddr_frame stack.val o
  obtain ⟨x, hx, hscrub⟩ := State.scrubCache_of_dirty hheld hreport hdirty
  rw [hscrub] at hexec
  obtain ⟨c, hframe, hgone⟩ := (s.drawn m).cachePoisoned_frame stack.val o
  generalize (s.drawn m).cachePoisoned stack.val o = u at *
  have hlogged := u.flag_logLost hpa (by decide : 0 < 40) (by decide : 0 < 128) true true
  have htold : Told s (u.logLost pa 0 0 true true) :=
    .trans (by rw [hframe]; exact .of_eq rfl rfl id id id) (Told.logLost u pa 0 0 true true)
  obtain ⟨w, hlog⟩ := u.logLost_frame pa 0 0 true true
  generalize u.logLost pa 0 0 true true = v at *
  refine ⟨_, hexec, State.logged_raise hx hlogged, ?_, fun hq => ?_⟩
  · exact ((v.raise_told x hx).same State.rings fun _ => rfl).trans (htold.same State.rings fun _ => rfl)
  · have hstand := State.memories_raise (State.quietQueues_of_told htold hq) hx
    rw [hframe] at hlog
    refine ⟨?_, ?_, ?_⟩
    · rw [State.ecc_of_memories hstand, hlog]
      exact congrArg Gran.poison (lookD_put_same _ _ _ _)
    · unfold State.cached
      rw [State.cache_of_memories hstand, hlog]
      exact hgone
    · rw [State.mem_of_memories hstand, hlog]
      rfl

theorem sramScrub_clean (hclean : s.dirtyAt stack.val (g.toNat * 64) = false)
    (hlost : s.chanLost stack.val (chanOf (g.toNat * 64)) = false)
    (hgran : lookD s.ecc (s.homeKey stack.val (g.toNat * 64)) {} = {}) :
    leads (.sramScrub (.cache stack g false)) s (fun t =>
      t.rd F.memEccCount_CORRECTED stack.val = satAdd 32 (s.rd F.memEccCount_CORRECTED stack.val) 1 ∧
      t.cached stack.val (g.toNat * 64) = true ∧ t.dirtyAt stack.val (g.toNat * 64) = false ∧
      t.mem = s.mem ∧ t.rings = s.rings ∧ keepsRegs s t [Reg.memEccCount]) := by
  have hexec := exec_sramScrub_cache (g := g) hup
  have hn := stack.isLt
  generalize g.toNat * 64 = o at *
  generalize stack.val = n at *
  obtain ⟨pa, m, hreport, -⟩ := s.reportAddr_frame n o
  obtain ⟨c, l, hframe, hvalid, hsound⟩ := (s.drawn m).fetchCounted_frame n o
  have hread : ((s.drawn m).fetchCounted n o).judgeGran pa (.stack n o) =
      (false, ((s.drawn m).fetchCounted n o).cacheFill n o false) := by
    rw [hframe]
    refine State.judgeGran_of_sound pa ?_ hvalid ?_
    · exact ((s.drawn m).chanLost_count (by omega) F.memEccCount_CORRECTED rfl 1 _).trans hlost
    · exact (congrArg (fun key => lookD s.ecc key {})
        ((s.drawn m).homeKey_count (by omega) n o F.memEccCount_CORRECTED rfl 1)).trans hgran
  rw [State.scrubCache_of_clean hheld hreport hclean hread] at hexec
  obtain ⟨e, c', m', hfill, hline⟩ := ((s.drawn m).fetchCounted n o).cacheFill_frame n o false
  rw [hfill, hframe] at hexec
  rw [hframe] at hline
  refine ⟨_, hexec, s.rd_count_same F.memEccCount_CORRECTED n 1 (by decide), ?_, ?_, rfl, rfl,
    keepsRegs_of_setReg (i := n) (by omega) rfl⟩
  · unfold State.cached
    rw [lookD, hline]
    exact getLsbD_with_sector (sectorOf_lt o) _
  · unfold State.dirtyAt
    rw [lookD, hline]
    exact hsound

end

/-! ### The inner code's counts (R292) -/

theorem innerCountPoll_leads {stack : Fin 20} (n : BitVec 16) {s : State} (hup : s.stackUp stack.val = true) :
    leads (.innerCountPoll stack n) s (fun t =>
      t.rd F.memEccCount_INNER stack.val = satAdd 16 (s.rd F.memEccCount_INNER stack.val) n.toNat ∧
      t.rd F.memEccCount_CORRECTED stack.val = s.rd F.memEccCount_CORRECTED stack.val ∧
      t.mem = s.mem ∧ t.ecc = s.ecc ∧ keepsRegs s t [Reg.memEccCount]) :=
  ⟨_, congrArg Host.Outcome.next (if_pos hup), s.rd_count_same F.memEccCount_INNER _ _ (by decide),
    s.rd_wr_fld F.memEccCount_INNER F.memEccCount_CORRECTED _ _ rfl (by decide) (by decide), rfl, rfl,
    keepsRegs_of_setReg (i := stack.val) (by omega) rfl⟩

/-! ### The obligation -/

/-- Settles O23: each row by what it leads to in the case that the clause names. -/
theorem testsAndScrubs : Obligations.TestsAndScrubs := by
  unfold Obligations.TestsAndScrubs
  refine ⟨⟨fun tile s => tileIdleTest_leads, fun tile s => tileTestEnd_leads⟩, ?patrol, ?tileWord, ?sound, ?cacheWord,
    fun stack n s => innerCountPoll_leads n⟩
  case patrol =>
    intro stack granule symbols s n o key m hup hon hlost hpoison hsym
    exact ⟨patrolScrub_within hup hon hlost hpoison hsym, patrolScrub_detected hup hon hlost hpoison hsym⟩
  case tileWord =>
    intro tile g s h
    exact ⟨_, exec_sramScrub_tile rfl (s.place_tile tile.isLt h), rfl⟩
  case sound =>
    rintro w s (⟨tile, g, rfl⟩ | ⟨stack, g, rfl⟩)
    · rfl
    · rfl
  case cacheWord =>
    intro stack g s n o hup hheld
    exact ⟨sramScrub_dirty hup hheld, sramScrub_clean hup hheld⟩

end Sys2Proof.Machine
end

section
/-!
What the work of the management cores leaves (R517 to R519, R524 to R526): notices, causes, restarts and the cross-check of an
action leave rings, spare lanes and copies as they were, and where no queue rings in memory the memories too.
-/
namespace Sys2Proof.Machine

/-- The notices held back name contexts of the device, so that they may be delivered. -/
def State.heldNamed (s : State) : Prop := ∀ h ∈ s.rel.held, h.2.getD 2 0 ≤ 16

/-- `t` is `s` as the work of the management cores may leave it. -/
structure Tended (s t : State) : Prop where
  rings : t.rings = s.rings
  spares : t.rel.spares = s.rel.spares
  copies : t.rel.copies = s.rel.copies
  held : t.heldNamed
  quiet : s.quietQueues → t.quietQueues ∧ t.memories = s.memories

theorem hubNtc_named (code sev a b c : Nat) : (hubNtc code sev a b c).named := fun _ h => nomatch h

theorem memNtc_named (code sev n a b c : Nat) : (memNtc code sev n a b c).named := fun _ h => nomatch h

/-- A core goes down: it is counted and halted, and an armed activation is to be prepared again (R524, R565). -/
def State.coreDown (s : State) (core cause : Nat) : State :=
  let t := ((s.count F.mgtCores_RESTARTS 0 1).wr F.mgtCores_LAST_CORE 0 core).wr F.mgtCores_LAST_CAUSE 0 cause
  let t := (t.wr F.mgtCores_UP 0 (setBits (t.rd F.mgtCores_UP) core 1 0)).lifeAdd 32 4 1
  let t := if t.rd F.secActStatus_STATE = 2 then t.wr F.secActStatus_STATE 0 1 else t
  { t with rel := { t.rel with
    restarts := s.recentRestarts ++ [(core, s.ivl)], halted := t.rel.halted ++ [(core, cause, t.ivl)] } }

theorem State.restartCore_eq (s : State) (core cause : Nat) : s.restartCore core cause =
    if !s.coreRuns core then s
    else
      let n := ((s.recentRestarts ++ [(core, s.ivl)]).filter (fun r => r.1 == core)).length
      let u := (s.coreDown core cause).raise (hubNtc 0x0E03 Sev.warn core cause n)
      if n < 3 || u.rd F.mgtCores_RETIRED != 0 then u else u.retireCore core cause := rfl

section
variable {s t u : State}

theorem Tended.trans (h : Tended s t) (k : Tended t u) : Tended s u :=
  ⟨k.rings.trans h.rings, k.spares.trans h.spares, k.copies.trans h.copies, k.held, fun hq =>
    have ⟨ht, hst⟩ := h.quiet hq
    have ⟨hu, htu⟩ := k.quiet ht
    ⟨hu, htu.trans hst⟩⟩

theorem Tended.andThen (h : Tended s t) (k : t.heldNamed → Tended t u) : Tended s u := h.trans (k h.held)

theorem Tended.of_told (h : Told s t) (hheld : t.heldNamed) (hmem : s.quietQueues → t.memories = s.memories) : Tended s t :=
  ⟨h.same State.rings fun _ => rfl, h.same (fun x => x.rel.spares) fun _ => rfl, h.same (fun x => x.rel.copies) fun _ => rfl,
    hheld, fun hq => ⟨State.quietQueues_of_told h hq, hmem hq⟩⟩

variable (hs : s.heldNamed)
include hs

theorem Tended.refl : Tended s s := ⟨rfl, rfl, rfl, hs, fun hq => ⟨hq, rfl⟩⟩

theorem Tended.wr (f : Fld) {i : Nat} (v : Nat) (hi : i < 1048576) (hf : f.reg ≠ Reg.queNotify) : Tended s (s.wr f i v) :=
  ⟨rfl, rfl, rfl, hs, fun hq => ⟨fun q hlt => by
    rw [s.rd_wr_ne f F.queNotify_MODE i q v hf.symm hi (by omega)]
    exact hq q hlt, rfl⟩⟩

theorem Tended.count (f : Fld) {i : Nat} (n : Nat) (hi : i < 1048576) (hf : f.reg ≠ Reg.queNotify) :
    Tended s (s.count f i n) := .wr hs f _ hi hf

theorem Tended.goto (d : Nat) : Tended s (s.goto d) :=
  (Tended.wr hs F.hubState_PREV (i := 0) s.dev (by decide) (by decide)).andThen fun ht =>
    .wr ht F.hubState_STATE (i := 0) d (by decide) (by decide)

theorem Tended.lifeAdd (off n v : Nat) : Tended s (s.lifeAdd off n v) := ⟨rfl, rfl, rfl, hs, fun hq => ⟨hq, rfl⟩⟩

/-- An armed activation is prepared again after a restart (R565). -/
theorem Tended.prepareAgain :
    Tended s (if s.rd F.secActStatus_STATE = 2 then s.wr F.secActStatus_STATE 0 1 else s) := by
  split
  · exact .wr hs _ _ (by decide) (by decide)
  · exact .refl hs

/-- The cores' own bookkeeping. -/
theorem Tended.withCores (restarts : List (Nat × Nat)) (halted : List (Nat × Nat × Nat)) :
    Tended s { s with rel := { s.rel with restarts := restarts, halted := halted } } :=
  ⟨rfl, rfl, rfl, hs, fun hq => ⟨hq, rfl⟩⟩

theorem Tended.raiseN (f : Nat) {n : Ntc} (hn : n.named) : Tended s (State.raiseN f s n) :=
  .of_told (.raiseN f s n hn) (by unfold State.heldNamed; rw [(Delivered.raiseN f s hn).held]; exact hs)
    fun hq => State.memories_raiseN f hq hn

theorem Tended.raise {n : Ntc} (hn : n.named) : Tended s (s.raise n) := by
  refine .of_told (s.raise_told n hn) ?_ fun hq => State.memories_raise hq hn
  unfold State.raise
  split
  · dsimp only
    split
    · intro h hmem
      obtain hmem | hmem := List.mem_append.mp hmem
      · exact hs h hmem
      · rw [List.mem_singleton.mp hmem]
        cases hc : n.ctx with
        | none => exact Nat.zero_le 16
        | some c => exact hn c hc
    · exact hs
  · exact (Tended.raiseN hs 4 hn).held

theorem Tended.raiseHeld {l : List (Nat × List Nat)} (hl : ∀ h ∈ l, h.2.getD 2 0 ≤ 16) : Tended s (s.raiseHeld l) := by
  fun_induction State.raiseHeld s l with
  | case1 s => exact .refl hs
  | case2 s bar c v x d p a b e o t ih =>
    have hx : x ≤ 16 := hl _ List.mem_cons_self
    have hctx : ∀ y, (if x = 0 then none else some (x - 1)) = some y → y < 16 := by
      intro y hy
      split at hy
      · cases hy
      · have := Option.some.inj hy
        omega
    refine Tended.andThen (Tended.raiseN hs 4 ?_) fun ht => ih ht fun h hm => hl h (List.mem_cons_of_mem _ hm)
    exact hctx
  | case3 s e t hshape ih => exact ih hs fun h hm => hl h (List.mem_cons_of_mem _ hm)

theorem Tended.releaseNotices : Tended s s.releaseNotices := by
  unfold State.releaseNotices
  split
  · exact .refl hs
  · have hempty : Tended s { s with rel := { s.rel with held := [] } } :=
      ⟨rfl, rfl, rfl, fun _ h => absurd h List.not_mem_nil, fun hq => ⟨hq, rfl⟩⟩
    exact hempty.trans (.raiseHeld hempty.held hs)

theorem Tended.setCause (b detail : Nat) : Tended s (s.setCause b detail) := by
  unfold State.setCause
  dsimp only
  split
  · exact .refl hs
  · have hcause := fun a => ((Tended.wr hs F.mgtDegraded_CAUSES (i := 0) (setBits (s.rd F.mgtDegraded_CAUSES) b 1 1) (by decide)
      (by decide)).andThen fun ht => .wr ht F.mgtDegraded_SEEN (i := 0) (setBits (s.rd F.mgtDegraded_SEEN) b 1 1) (by decide)
      (by decide)).andThen fun ht => .raise ht (hubNtc_named 0x0E01 Sev.warn b a detail)
    split
    · exact (hcause _).andThen fun ht => .goto ht _
    · exact hcause _

theorem Tended.retireCore (core cause : Nat) : Tended s (s.retireCore core cause) := by
  have hretired := (Tended.wr hs F.mgtCores_RETIRED (i := 0) (setBits (s.rd F.mgtCores_RETIRED) core 1 1) (by decide)
    (by decide)).andThen fun ht => .withCores ht s.rel.restarts (s.rel.halted.filter (fun h => h.1 != core))
  unfold State.retireCore
  dsimp only
  exact ((hretired.andThen fun ht => .raise ht (hubNtc_named _ _ _ _ _)).andThen fun ht => .setCause ht _ _).andThen
    fun ht => .releaseNotices ht

theorem Tended.coreDown (core cause : Nat) : Tended s (s.coreDown core cause) := by
  unfold State.coreDown
  dsimp only
  generalize hu : State.lifeAdd _ 32 4 1 = u
  have hdown : Tended s u := by
    rw [← hu]
    exact (((Tended.count hs F.mgtCores_RESTARTS (i := 0) 1 (by decide) (by decide)).andThen fun ht =>
      .wr ht F.mgtCores_LAST_CORE (i := 0) core (by decide) (by decide)).andThen fun ht =>
      .wr ht F.mgtCores_LAST_CAUSE (i := 0) cause (by decide) (by decide)).andThen fun ht =>
      (Tended.wr ht F.mgtCores_UP (i := 0) _ (by decide) (by decide)).andThen fun ht => .lifeAdd ht _ _ _
  have hact := hdown.andThen fun ht => .prepareAgain ht
  generalize (if u.rd F.secActStatus_STATE = 2 then u.wr F.secActStatus_STATE 0 1 else u) = v at hact ⊢
  exact hact.andThen fun ht => .withCores ht _ _

theorem Tended.restartCore (core cause : Nat) : Tended s (s.restartCore core cause) := by
  rw [State.restartCore_eq]
  have hraised := fun n => (Tended.coreDown hs core cause).andThen fun ht =>
    .raise ht (hubNtc_named 0x0E03 Sev.warn core cause n)
  split
  · exact .refl hs
  · dsimp only
    split
    · exact hraised _
    · exact (hraised _).andThen fun ht => .retireCore ht core cause

theorem Tended.crossCheck (act : Nat) : Tended s (s.crossCheck act).2 := by
  have hdrawn : Tended s { s with nfree := s.nfree + 1 } := ⟨rfl, rfl, rfl, hs, fun hq => ⟨hq, rfl⟩⟩
  unfold State.crossCheck
  dsimp only
  split
  · exact hdrawn
  · exact ((hdrawn.andThen fun ht => .raise ht (hubNtc_named _ _ _ _ _)).andThen fun ht => .restartCore ht _ 3).andThen
      fun ht => .restartCore ht _ 3

end

/-! ### Lanes at a retrain (R299, R300) -/

section
variable {c : Instr} {stack : Fin 20} {group : Fin 4} {s : State}

/-- The state with the pending retrain of a group done. -/
def State.retrained (s : State) (n g : Nat) : State :=
  { s with rel := { s.rel with retrain := s.rel.retrain.filter (· != 4 * n + g) } }

theorem State.retrained_of_not_mem {n g : Nat} (h : 4 * n + g ∉ s.rel.retrain) : s.retrained n g = s := by
  have hall : s.rel.retrain.filter (· != 4 * n + g) = s.rel.retrain :=
    List.filter_eq_self.mpr fun x hx => bne_iff_ne.mpr fun he => h (he ▸ hx)
  unfold State.retrained
  rw [hall]

theorem exec_periodicRetrain (failing : List LaneFail) (hup : s.stackUp stack.val = true) :
    exec (.periodicRetrain stack group failing) s = .next (s.trainGroup stack.val group.val failing) :=
  congrArg Host.Outcome.next (if_pos hup)

theorem exec_earlyRetrain (failing : List LaneFail) (hup : s.stackUp stack.val = true)
    (hdue : 4 * stack.val + group.val ∈ s.rel.retrain) :
    exec (.earlyRetrain stack group failing) s = .next (s.trainGroup stack.val group.val failing) :=
  congrArg Host.Outcome.next (if_pos ⟨hup, List.contains_iff_mem.mpr hdue⟩)

theorem exec_earlyRetrain_of_not_due (failing : List LaneFail) (hdue : 4 * stack.val + group.val ∉ s.rel.retrain) :
    exec (.earlyRetrain stack group failing) s = .next s :=
  congrArg Host.Outcome.next (if_neg fun h => hdue (List.contains_iff_mem.mp h.2))

/-- A retrain that finds every lane sound. -/
theorem exec_retrain_sound (hc : c = .periodicRetrain stack group [] ∨ c = .earlyRetrain stack group [])
    (hup : s.stackUp stack.val = true) : exec c s = .next (s.retrained stack.val group.val) := by
  obtain rfl | rfl := hc
  · exact exec_periodicRetrain [] hup
  · by_cases hdue : 4 * stack.val + group.val ∈ s.rel.retrain
    · exact exec_earlyRetrain [] hup hdue
    · rw [State.retrained_of_not_mem hdue]
      exact exec_earlyRetrain_of_not_due [] hdue

theorem State.trainGroup_lane {n g : Nat} {lane : LaneFail} (hg : lane.channel.val / 32 = g) :
    s.trainGroup n g [lane] = (s.retrained n g).trainLane false n lane.channel.val lane.lane.val := by
  have hone : [lane].filter (fun f => f.channel.val / 32 == g) = [lane] :=
    List.filter_cons_of_pos (p := fun f : LaneFail => f.channel.val / 32 == g) (beq_iff_eq.mpr hg)
  unfold State.trainGroup
  rw [hone]
  rfl

variable {lane : LaneFail}

/-- A retrain that finds one lane of its group failing. -/
theorem exec_retrain_lane (hc : c = .periodicRetrain stack group [lane] ∨
      c = .earlyRetrain stack group [lane] ∧ 4 * stack.val + group.val ∈ s.rel.retrain)
    (hup : s.stackUp stack.val = true) (hg : lane.channel.val / 32 = group.val) :
    exec c s =
      .next ((s.retrained stack.val group.val).trainLane false stack.val lane.channel.val lane.lane.val) := by
  rw [← State.trainGroup_lane hg]
  obtain rfl | ⟨rfl, hdue⟩ := hc
  · exact exec_periodicRetrain [lane] hup
  · exact exec_earlyRetrain [lane] hup hdue

theorem State.stackFitted_of_stackUp {n : Nat} (h : s.stackUp n = true) : s.stackFitted n = true := by
  simp only [State.stackUp, Bool.and_eq_true] at h
  obtain ⟨⟨⟨hfit, -⟩, -⟩, -⟩ := h
  exact hfit

end

section
variable {s : State} {n c lane : Nat}

/-- A spare lane of the group stands in for a lane (R299): it is kept and counted. -/
def State.spareKept (s : State) (n c lane : Nat) : State :=
  State.lifeAdd { s with rel := { s.rel with spares := s.rel.spares ++ [(n, c, lane, 4 - s.sparesLeft n (c / 32))] } }
    (lifeEvent 0) 8 1

/-- A spare lane that stands in is told. -/
def State.spareTaken (s : State) (n c lane : Nat) : State :=
  (s.spareKept n c lane).raise (memNtc 0x0304 Sev.info n n c (s.sparesLeft n (c / 32) - 1))

theorem State.writeRecord_of_no_key (h : s.sec.xi = none) (typ unit chan lane dat : Nat) :
    s.writeRecord typ unit chan lane dat = s := by
  unfold State.writeRecord
  rw [h]

theorem State.told_spareTaken (s : State) (n c lane : Nat) : Told (s.spareKept n c lane) (s.spareTaken n c lane) :=
  State.raise_told _ _ (memNtc_named _ _ _ _ _ _)

theorem State.memories_spareTaken (hq : s.quietQueues) : (s.spareTaken n c lane).memories = s.memories :=
  State.memories_raise (s := s.spareKept n c lane) hq (memNtc_named _ _ _ _ _ _)

theorem State.trainLane_spare (hfit : s.stackFitted n = true) (hin : s.chanOut n c = false)
    (hleft : 0 < s.sparesLeft n (c / 32)) (hxi : s.sec.xi = none) (now : Bool) :
    s.trainLane now n c lane = s.spareTaken n c lane := by
  have hkey : (s.spareTaken n c lane).sec.xi = none :=
    ((s.told_spareTaken n c lane).same (fun x => x.sec.xi) fun _ => rfl).trans hxi
  unfold State.trainLane
  rw [hfit, hin, if_neg (by decide)]
  dsimp only
  rw [if_neg (by omega)]
  exact State.writeRecord_of_no_key hkey _ _ _ _ _

theorem State.sparesLeft_of_taken {t : State} {spare : Nat}
    (h : t.rel.spares = s.rel.spares ++ [(n, c, lane, spare)]) : t.sparesLeft n (c / 32) = s.sparesLeft n (c / 32) - 1 := by
  unfold State.sparesLeft
  rw [h, List.filter_append, List.length_append, List.filter_cons_of_pos (by simp), List.filter_nil, List.length_singleton]
  omega

theorem State.trainLane_none (hfit : s.stackFitted n = true) (hin : s.chanOut n c = false)
    (hleft : s.sparesLeft n (c / 32) = 0) (now : Bool) : s.trainLane now n c lane = s.retire n c lane now := by
  unfold State.trainLane
  rw [hfit, hin, if_neg (by decide)]
  dsimp only
  rw [if_pos hleft]

/-! ### A channel that begins to retire (R301) -/

theorem State.crossCheck_pass (h : Config.crossFails s.nfree = false) (act : Nat) :
    s.crossCheck act = (true, { s with nfree := s.nfree + 1 }) := by
  unfold State.crossCheck
  rw [h]
  rfl

theorem State.crossCheck_fail (h : Config.crossFails s.nfree = true) (act : Nat) :
    s.crossCheck act = (false, (s.crossCheck act).2) := by
  unfold State.crossCheck
  rw [h]
  rfl

theorem State.retire_fail (hin : s.chanOut n c = false) (hnone : look s.rel.copies (128 * n + c) = none)
    (h : Config.crossFails s.nfree = true) (now : Bool) : s.retire n c lane now = (s.crossCheck Act.retire).2 := by
  unfold State.retire
  rw [hin, hnone, if_neg (by decide), State.crossCheck_fail h]

/-- The copy of a retiring channel begins. -/
def State.copyBegun (s : State) (n c slot lane : Nat) : State :=
  { s with nfree := s.nfree + 1,
           rel := { s.rel with copies := put s.rel.copies (128 * n + c) { slot := slot, lane := lane } } }

theorem State.retire_pass {slot : Nat} (hin : s.chanOut n c = false) (hnone : look s.rel.copies (128 * n + c) = none)
    (h : Config.crossFails s.nfree = false) (hslot : s.freeSlot (n / 5) = some slot) :
    s.retire n c lane false =
      let u := (s.copyBegun n c slot lane).lifeAdd (lifeEvent 1) 8 1
      (u.raise (memNtc 0x0305 Sev.warn n n c (u.freeSlots (n / 5)))).setCause Cse.channel (chanDetail n c) := by
  have hfree : State.freeSlot { s with nfree := s.nfree + 1 } (n / 5) = some slot := hslot
  unfold State.retire
  rw [hin, hnone, if_neg (by decide), State.crossCheck_pass h]
  dsimp only
  rw [hfree]
  rfl

theorem State.retire_tended {slot : Nat} (hs : s.heldNamed) (hin : s.chanOut n c = false)
    (hnone : look s.rel.copies (128 * n + c) = none) (h : Config.crossFails s.nfree = false)
    (hslot : s.freeSlot (n / 5) = some slot) :
    Tended (s.copyBegun n c slot lane) (s.retire n c lane false) := by
  have hbegun : (s.copyBegun n c slot lane).heldNamed := hs
  rw [State.retire_pass hin hnone h hslot]
  exact ((Tended.lifeAdd hbegun _ _ _).andThen fun ht => .raise ht (memNtc_named _ _ _ _ _ _)).andThen
    fun ht => .setCause ht _ _

end

section
variable {c : Instr} {stack : Fin 20} {lane : LaneFail} {group : Fin 4} {s : State}

theorem retrain_spare_leads (hc : c = .periodicRetrain stack group [lane] ∨
      c = .earlyRetrain stack group [lane] ∧ 4 * stack.val + group.val ∈ s.rel.retrain)
    (hup : s.stackUp stack.val = true) (hg : lane.channel.val / 32 = group.val)
    (hin : s.chanOut stack.val lane.channel.val = false) (hleft : 0 < s.sparesLeft stack.val group.val)
    (hxi : s.sec.xi = none) :
    leads c s (fun t =>
      t.rel.spares = s.rel.spares ++ [(stack.val, lane.channel.val, lane.lane.val, 4 - s.sparesLeft stack.val group.val)] ∧
      t.sparesLeft stack.val group.val = s.sparesLeft stack.val group.val - 1 ∧ t.rel.slots = s.rel.slots ∧
      (s.quietQueues → t.mem = s.mem ∧ t.ecc = s.ecc) ∧ t.nvmA = s.nvmA ∧ t.nvmB = s.nvmB ∧ t.rings = s.rings) := by
  have hexec := exec_retrain_lane hc hup hg
  rw [← hg] at hleft ⊢
  rw [State.trainLane_spare (s := s.retrained stack.val group.val) (State.stackFitted_of_stackUp hup) hin hleft hxi] at hexec
  have htold := (s.retrained stack.val group.val).told_spareTaken stack.val lane.channel.val lane.lane.val
  have hquiet : s.quietQueues → _ :=
    State.memories_spareTaken (s := s.retrained stack.val group.val) (n := stack.val) (c := lane.channel.val) (lane := lane.lane.val)
  have hspares := htold.same (fun x => x.rel.spares) fun _ => rfl
  refine ⟨_, hexec, hspares, State.sparesLeft_of_taken hspares, htold.same (fun x => x.rel.slots) fun _ => rfl,
    fun hq => ⟨State.mem_of_memories (hquiet hq), State.ecc_of_memories (hquiet hq)⟩,
    htold.same State.nvmA fun _ => rfl, htold.same State.nvmB fun _ => rfl, htold.same State.rings fun _ => rfl⟩

theorem retrain_retire_leads {slot : Nat} (hc : c = .periodicRetrain stack group [lane] ∨
      c = .earlyRetrain stack group [lane] ∧ 4 * stack.val + group.val ∈ s.rel.retrain)
    (hup : s.stackUp stack.val = true) (hg : lane.channel.val / 32 = group.val)
    (hin : s.chanOut stack.val lane.channel.val = false)
    (hnone : look s.rel.copies (128 * stack.val + lane.channel.val) = none) (hleft : s.sparesLeft stack.val group.val = 0)
    (hslot : s.freeSlot (stack.val / 5) = some slot) (hheld : s.rel.held = []) :
    leads c s (fun t => t.rel.spares = s.rel.spares ∧ t.rings = s.rings ∧ (s.quietQueues → t.mem = s.mem ∧ t.ecc = s.ecc) ∧
      (Config.crossFails s.nfree = true → t.rel.copies = s.rel.copies) ∧
      (Config.crossFails s.nfree = false →
        look t.rel.copies (128 * stack.val + lane.channel.val) = some { slot := slot, lane := lane.lane.val })) := by
  have hexec := exec_retrain_lane hc hup hg
  rw [← hg] at hleft
  have hnamed : (s.retrained stack.val group.val).heldNamed := fun h hmem => absurd (hheld ▸ hmem) List.not_mem_nil
  rw [State.trainLane_none (s := s.retrained stack.val group.val) (State.stackFitted_of_stackUp hup) hin hleft] at hexec
  refine ⟨_, hexec, ?_⟩
  cases hcross : Config.crossFails s.nfree with
  | true =>
    rw [State.retire_fail (s := s.retrained stack.val group.val) hin hnone hcross]
    have ht := Tended.crossCheck hnamed Act.retire
    exact ⟨ht.spares, ht.rings, fun hq => have ⟨_, hm⟩ := ht.quiet hq
      ⟨State.mem_of_memories hm, State.ecc_of_memories hm⟩, fun _ => ht.copies, (nomatch ·)⟩
  | false =>
    have ht := State.retire_tended (lane := lane.lane.val) hnamed hin hnone hcross hslot
    exact ⟨ht.spares, ht.rings, fun hq => have ⟨_, hm⟩ := ht.quiet hq
      ⟨State.mem_of_memories hm, State.ecc_of_memories hm⟩, (nomatch ·),
      fun _ => (congrArg (look · _) ht.copies).trans (look_put_same _ _ _)⟩

end

/-- Settles O19: the copy is `retireCopyPiece_leads`, a retrain of a sound group `exec_retrain_sound`, and a failing
lane `retrain_spare_leads` and `retrain_retire_leads`. -/
theorem laneRepairs : Obligations.LaneRepairs := by
  unfold Obligations.LaneRepairs
  refine ⟨?copies, fun _ _ _ => rfl, ?sound, ?spare, ?retires⟩
  case copies =>
    intro stack channel s r n k hmem hcopy hslots hslot hr
    exact retireCopyPiece_leads hmem hcopy hslots hslot hr
  case sound =>
    intro c stack group s hc hup
    exact exec_retrain_sound hc hup
  case spare =>
    intro c stack lane group s hc hup hg hin hleft hxi
    exact retrain_spare_leads hc hup hg hin hleft hxi
  case retires =>
    intro c stack lane group slot s hc hup hg hin hnone hleft hslot hheld
    exact retrain_retire_leads hc hup hg hin hnone hleft hslot hheld

end Sys2Proof.Machine
end

section
/-!
Control of a context from outside (R344, R345, R348, R353): CTX_PREEMPT, CTX_EVICT and CTX_RESUME by what they leave in
the context's registers, in its entry of the context table and in the translation caches.
-/
namespace Sys2Proof.Machine

/-! ### Registers -/

section
variable {s t : State}

theorem State.rd_of_regs (h : t.regs = s.regs) (f : Fld) (i : Nat) : t.rd f i = s.rd f i := by
  unfold State.rd
  rw [State.reg_of_regs h]

theorem keepsRegs.rd {l : List Nat} (h : keepsRegs s t l) (f : Fld) {i : Nat} (hi : i < 1048576) (hf : f.reg ∉ l) :
    t.rd f i = s.rd f i := by
  unfold State.rd
  rw [h f.reg i hi hf]

/-- Two stretches that leave the same registers. -/
theorem keepsRegs.andThen {u : State} {l : List Nat} (h : keepsRegs s t l) (h' : keepsRegs t u l) : keepsRegs s u l :=
  fun r i hi hr => (h' r i hi hr).trans (h r i hi hr)

/-- The state of a context is a field of its own register. -/
theorem State.ctxState_of_wr {c d v : Nat} (hc : c < 16) (hd : d < 16) (hv : v < 8)
    (h : t.regs = (s.wr F.ctxState_STATE c v).regs) : t.ctxState d = if d = c then v else s.ctxState d := by
  unfold State.ctxState
  rw [State.rd_of_regs h]
  split
  next he => exact he ▸ (s.rd_wr_same F.ctxState_STATE c v (by decide)).trans (Nat.mod_eq_of_lt hv)
  next hne => exact s.rd_wr_idx F.ctxState_STATE F.ctxState_STATE c d v hne (by omega) (by omega)

theorem keepsRegs_of_ctxState {f : Fld} {c v : Nat} (hc : c < 16) (hf : f.reg = Reg.ctxState) (h : t.regs = (s.wr f c v).regs) :
    keepsRegs s t [Reg.ctxState] := hf ▸ keepsRegs_of_setReg (by omega) h

end

/-! ### Pre-emption begins (R344, R345) -/

section
variable {s : State} {c : Nat} (evict : Bool)

theorem State.saveUnusable_wr_ctxState (hc : c < 16) (v : Nat) :
    (s.wr F.ctxState_STATE c v).saveUnusable c = s.saveUnusable c := by
  have hrd : ∀ f : Fld, f.reg ≠ Reg.ctxState → (s.wr F.ctxState_STATE c v).rd f c = s.rd f c := fun f hf =>
    s.rd_wr_ne F.ctxState_STATE f c c v hf (by omega) (by omega)
  unfold State.saveUnusable
  rw [hrd F.ctxSave_BASE (by decide), hrd F.ctxSave_SIZE (by decide)]
  rfl

theorem State.preempt_spec (hc : c < 16) (h : s.ctxState c = Ctx.idle ∨ s.ctxState c = Ctx.active) :
    (s.preempt c evict).regs = (s.wr F.ctxState_STATE c Ctx.preempting).regs ∧
    (s.preempt c evict).ctx c = { s.ctx c with evict := evict || s.saveUnusable c, askedAt := s.ivl } ∧
    (s.preempt c evict).mem = s.mem ∧ (s.preempt c evict).conns = s.conns := by
  unfold State.preempt
  rw [if_neg (fun hn => h.elim hn.1 hn.2)]
  refine ⟨rfl, (State.ctx_setCtx_same _ c _).trans ?_, rfl, rfl⟩
  rw [State.saveUnusable_wr_ctxState hc]
  rfl

theorem preempt_leads {i : Instr} {ctx : Fin 16} {s : State} (hi : exec i s = .next (s.preempt ctx.val evict))
    (h : s.ctxState ctx.val = Ctx.idle ∨ s.ctxState ctx.val = Ctx.active) :
    leads i s (fun t => t.ctxState ctx.val = Ctx.preempting ∧ (t.ctx ctx.val).evict = (evict || s.saveUnusable ctx.val) ∧
      (t.ctx ctx.val).askedAt = s.ivl ∧ (∀ d, d < 16 → d ≠ ctx.val → t.ctxState d = s.ctxState d) ∧ t.mem = s.mem ∧
      t.conns = s.conns ∧ keepsRegs s t [Reg.ctxState]) := by
  obtain ⟨hregs, hctx, hmem, hconns⟩ := State.preempt_spec evict ctx.isLt h
  have hst : ∀ d, d < 16 → _ := fun d hd => State.ctxState_of_wr ctx.isLt hd (by decide) hregs
  exact ⟨_, hi, (hst _ ctx.isLt).trans (if_pos rfl), congrArg CtxRt.evict hctx, congrArg CtxRt.askedAt hctx,
    fun d hd hne => (hst d hd).trans (if_neg hne), hmem, hconns, keepsRegs_of_ctxState ctx.isLt rfl hregs⟩

end

/-! ### Translations discarded (R334) -/

/-- An entry of a cache touches a range of pages; no pages are all of them. -/
def TlbLeaf.touches (e : TlbLeaf) (vpn count : Nat) : Prop :=
  count = 0 ∨ e.base < (vpn + count) * 65536 ∧ vpn * 65536 < e.base + Pte.span e.entry

theorem State.mem_leaves_invalidate {s : State} {c vpn count : Nat} {e : TlbLeaf} :
    e ∈ (s.invalidate c vpn count).tlb.leaves ↔ e ∈ s.tlb.leaves ∧ (e.ctx = c → ¬ e.touches vpn count) := by
  simp only [State.invalidate, TlbLeaf.touches, List.mem_filter, Bool.not_eq_true', Bool.and_eq_false_imp, beq_iff_eq,
    Bool.or_eq_false_iff, beq_eq_false_iff_ne, decide_eq_false_iff_not, not_or]

/-! ### Resumption begins (R348) -/

theorem resume_leads {ctx : Fin 16} {s : State} (h : s.ctxState ctx.val = Ctx.preempted) :
    leads (.ctxResume (.fn .pf0) ctx) s (fun t => t.ctxState ctx.val = Ctx.resuming ∧ (t.ctx ctx.val).askedAt = s.ivl ∧
      (∀ d, d < 16 → d ≠ ctx.val → t.ctxState d = s.ctxState d) ∧ (∀ e, e ∈ t.tlb.leaves → e.ctx ≠ ctx.val) ∧
      t.rings = s.rings ∧ t.mem = s.mem ∧ keepsRegs s t [Reg.ctxState]) := by
  let x : CtxRt := { s.ctx ctx.val with askedAt := s.ivl }
  let u := ((s.wr F.ctxState_STATE ctx.val Ctx.resuming).setCtx ctx.val x).dropVids ctx.val
  have hresume : s.resume ctx.val = u.invalidate ctx.val 0 0 := if_neg (not_not_intro h)
  have hst : ∀ d, d < 16 → (u.invalidate ctx.val 0 0).ctxState d = _ := fun d hd =>
    State.ctxState_of_wr ctx.isLt hd (by decide) rfl
  refine ⟨u.invalidate ctx.val 0 0, congrArg Host.Outcome.next hresume, (hst _ ctx.isLt).trans (if_pos rfl),
    congrArg CtxRt.askedAt (State.ctx_setCtx_same _ ctx.val x), fun d hd hne => (hst d hd).trans (if_neg hne), ?_, rfl, rfl,
    keepsRegs_of_ctxState ctx.isLt rfl rfl⟩
  exact fun e he hctx => (State.mem_leaves_invalidate.mp he).2 hctx (.inl rfl)

/-- Settles O29: each write by the state that it leaves; one through a virtual function is ignored. -/
theorem contextControl : Obligations.ContextControl := by
  unfold Obligations.ContextControl
  refine ⟨?preempts, ?resumes, fun _ _ _ => ⟨rfl, rfl, rfl⟩⟩
  case preempts =>
    rintro c evict ctx s (⟨rfl, rfl⟩ | ⟨rfl, rfl⟩) h
    · exact preempt_leads false rfl h
    · exact preempt_leads true rfl h
  case resumes => exact fun _ _ h => resume_leads h

end Sys2Proof.Machine
end

section
/-!
Resets of the PCIe functions (R349, R476, R565): the disables that they begin, one context after another, and what PF0's
own reset waits for.
-/
namespace Sys2Proof.Machine

/-! ### One disable -/

/-- A state without what the beginning of a disable changes. -/
def State.undisabled (s : State) : State :=
  { s with regs := [], ctxs := [], rings := [], sec := { s.sec with heldDisable := [] } }

theorem State.undisabled_disable (s : State) (c : Nat) : (s.disable c).undisabled = s.undisabled := by
  unfold State.disable
  split_ifs <;> rfl

/-- What stands under a disable: the fields that `undisabled` keeps. -/
theorem State.same_of_undisabled {s t : State} (h : t.undisabled = s.undisabled) {α : Type} (f : State → α)
    (hf : ∀ x, f x = f x.undisabled) : f t = f s := by
  rw [hf t, hf s, h]

theorem State.memories_of_undisabled {s t : State} (h : t.undisabled = s.undisabled) :
    t.mem = s.mem ∧ t.host = s.host ∧ t.mbox = s.mbox :=
  ⟨State.same_of_undisabled h State.mem fun _ => rfl, State.same_of_undisabled h State.host fun _ => rfl,
    State.same_of_undisabled h State.mbox fun _ => rfl⟩

theorem State.disable_of_disabling {s : State} {c : Nat} (h : s.ctxState c = Ctx.disabling) : s.disable c = s :=
  if_pos (.inl h)

section
variable {s : State} (hoff : s.dev ≠ Dev.off) (hpause : s.dev ≠ Dev.paused) {c : Nat} (hc : c < 16)
include hoff hpause

theorem State.regs_disable_of_running (hn : s.ctxState c ≠ Ctx.disabling) :
    (s.disable c).regs = (s.wr F.ctxState_STATE c Ctx.disabling).regs := by
  unfold State.disable
  rw [if_neg (not_or.mpr ⟨hn, hoff⟩), if_neg hpause]
  rfl

include hc

theorem State.keepsRegs_disable : keepsRegs s (s.disable c) [Reg.ctxState] := by
  by_cases hn : s.ctxState c = Ctx.disabling
  · rw [State.disable_of_disabling hn]
    exact fun _ _ _ _ => rfl
  · exact keepsRegs_of_ctxState hc rfl (State.regs_disable_of_running hoff hpause hn)

theorem State.ctxState_disable {d : Nat} (hd : d < 16) :
    (s.disable c).ctxState d = if d = c then Ctx.disabling else s.ctxState d := by
  by_cases hn : s.ctxState c = Ctx.disabling
  · rw [State.disable_of_disabling hn]
    split
    next he => exact he ▸ hn
    next => rfl
  · exact State.ctxState_of_wr hc hd (by decide) (State.regs_disable_of_running hoff hpause hn)

end

theorem keepsRegs.dev {s t : State} {l : List Nat} (h : keepsRegs s t l) (hl : Reg.hubState ∉ l) : t.dev = s.dev :=
  h.rd F.hubState_STATE (by decide) hl

/-! ### Many disables -/

theorem State.undisabled_disables (l : List Nat) (s : State) : (l.foldl State.disable s).undisabled = s.undisabled :=
  List.foldlRecOn (motive := fun t : State => t.undisabled = s.undisabled) l _ rfl
    (fun t ht c _ => (t.undisabled_disable c).trans ht)

theorem State.disables_of_running {s : State} (hoff : s.dev ≠ Dev.off) (hpause : s.dev ≠ Dev.paused) {l : List Nat}
    (hl : ∀ c ∈ l, c < 16) :
    keepsRegs s (l.foldl State.disable s) [Reg.ctxState] ∧
    ∀ d, d < 16 → (l.foldl State.disable s).ctxState d = if d ∈ l then Ctx.disabling else s.ctxState d := by
  induction l generalizing s with
  | nil => exact ⟨fun _ _ _ _ => rfl, fun _ _ => rfl⟩
  | cons c l ih =>
    have hc := hl c List.mem_cons_self
    have hkeeps := State.keepsRegs_disable hoff hpause hc
    have hdev := hkeeps.dev (by decide)
    obtain ⟨hregs, hst⟩ := ih (hdev ▸ hoff) (hdev ▸ hpause) fun d hd => hl d (List.mem_cons_of_mem c hd)
    refine ⟨hkeeps.andThen hregs, fun d hd => (hst d hd).trans ?_⟩
    rw [State.ctxState_disable hoff hpause hc hd]
    by_cases hdl : d ∈ l <;> simp [hdl]

/-- The state with other disables held. -/
def State.holding (s : State) (held : List Nat) : State := { s with sec := { s.sec with heldDisable := held } }

theorem State.disable_of_paused {s : State} (h : s.dev = Dev.paused) (c : Nat) :
    ∃ held, s.disable c = s.holding held ∧ s.sec.heldDisable ⊆ held ∧ (s.ctxState c ≠ Ctx.disabling → c ∈ held) := by
  by_cases hn : s.ctxState c = Ctx.disabling
  · exact ⟨s.sec.heldDisable, State.disable_of_disabling hn, List.Subset.refl _, fun h' => absurd hn h'⟩
  · refine ⟨(s.sec.heldDisable ++ [c]).eraseDups, ?_, fun d hd => ?_, fun _ => ?_⟩
    · unfold State.disable
      rw [if_neg (not_or.mpr ⟨hn, by rw [h]; decide⟩), if_pos h]
      rfl
    · exact List.mem_eraseDups.mpr (List.mem_append_left _ hd)
    · exact List.mem_eraseDups.mpr (List.mem_append_right _ (List.mem_singleton_self c))

theorem State.disables_of_paused {s : State} (h : s.dev = Dev.paused) (l : List Nat) :
    ∃ held, l.foldl State.disable s = s.holding held ∧ s.sec.heldDisable ⊆ held ∧
      ∀ d ∈ l, s.ctxState d ≠ Ctx.disabling → d ∈ held := by
  induction l generalizing s with
  | nil => exact ⟨s.sec.heldDisable, rfl, List.Subset.refl _, fun d hd => absurd hd List.not_mem_nil⟩
  | cons c l ih =>
    obtain ⟨one, hone, hkept, hc⟩ := State.disable_of_paused h c
    obtain ⟨held, hheld, hsub, hl⟩ := ih (s := s.holding one) h
    refine ⟨held, (congrArg (l.foldl State.disable) hone).trans hheld, List.Subset.trans hkept hsub, fun d hd hn => ?_⟩
    rcases List.mem_cons.mp hd with rfl | hd
    · exact hsub (hc hn)
    · exact hl d hd hn

/-! ### PF0 -/

theorem State.endPf0_of_disabling {s : State} {c : Nat} (hc : c < 16) (h : s.ctxState c = Ctx.disabling) : s.endPf0 = s := by
  refine if_neg fun hall => ?_
  have hne := List.all_eq_true.mp (Bool.and_eq_true_iff.mp hall).2 c (List.mem_range.mpr hc)
  simp [h] at hne

/-- PF0's own registers are to be reset (R349). -/
def State.pf0Asked (s : State) : State := { s with pf0Reset := true }

theorem State.resetFunctions_eq (s : State) : s.resetFunctions = ((List.range 16).foldl State.disable s).pf0Asked.endPf0 := rfl

theorem State.endPf0_of_held {s : State} (h : s.sec.heldDisable ≠ []) : s.endPf0 = s :=
  if_neg fun hall => by simp [h] at hall

section
variable {s : State}

theorem State.resetFunctions_of_running (hoff : s.dev ≠ Dev.off) (hpause : s.dev ≠ Dev.paused) :
    s.resetFunctions.undisabled = s.pf0Asked.undisabled ∧ keepsRegs s s.resetFunctions [Reg.ctxState] ∧
    ∀ k, k < 16 → s.resetFunctions.ctxState k = Ctx.disabling := by
  have hall := s.undisabled_disables (List.range 16)
  obtain ⟨hregs, hst⟩ := State.disables_of_running hoff hpause (l := List.range 16) fun c hc => List.mem_range.mp hc
  have hdis : ∀ k, k < 16 → ((List.range 16).foldl State.disable s).ctxState k = Ctx.disabling := fun k hk =>
    (hst k hk).trans (if_pos (List.mem_range.mpr hk))
  rw [State.resetFunctions_eq]
  generalize (List.range 16).foldl State.disable s = u at *
  rw [State.endPf0_of_disabling (s := u.pf0Asked) (c := 0) (by decide) (hdis 0 (by decide))]
  exact ⟨congrArg State.pf0Asked hall, hregs, hdis⟩

/-- Where no disable is held, every context is DISABLING already; PF0's registers wait in both cases. -/
theorem State.resetFunctions_of_paused (h : s.dev = Dev.paused) :
    ∃ held, s.resetFunctions = (s.holding held).pf0Asked ∧ ∀ k, k < 16 → s.ctxState k ≠ Ctx.disabling → k ∈ held := by
  obtain ⟨held, hheld, -, hall⟩ := State.disables_of_paused h (List.range 16)
  refine ⟨held, ?_, fun k hk => hall k (List.mem_range.mpr hk)⟩
  rw [State.resetFunctions_eq, hheld]
  by_cases h0 : s.ctxState 0 = Ctx.disabling
  · exact State.endPf0_of_disabling (c := 0) (by decide) h0
  · exact State.endPf0_of_held (List.ne_nil_of_mem (hall 0 (by decide) h0))

theorem exec_functionReset {c : Instr} (hc : c = .pf0Flr ∨ c = .hotReset) (h : Dev.rom ≤ s.dev) :
    exec c s = .next s.resetFunctions := by
  rcases hc with rfl | rfl <;> exact congrArg Host.Outcome.next (if_neg (Nat.not_lt.mpr h))

end

/-! ### The link (R593) -/

theorem linkNtc_named (code sev a1 a2 a3 : Nat) : (linkNtc code sev a1 a2 a3).named := named_of_no_ctx rfl

theorem State.same_of_untold {s t : State} (h : t.untold = s.untold) {α : Type} (f : State → α) (hf : ∀ x, f x = f x.untold) :
    f t = f s := by
  rw [hf t, hf s, h]

theorem State.setLink_spec (s : State) {gen width : Nat} (hg : gen < 8) (hw : width < 16) :
    (s.setLink gen width).rd F.hubLink_GEN = gen ∧ (s.setLink gen width).rd F.hubLink_WIDTH = width ∧
    (s.setLink gen width).untold = s.untold ∧ keepsRegs s (s.setLink gen width) (Reg.hubLink :: toldRegs) := by
  unfold State.setLink
  dsimp only
  split
  next hsame => exact ⟨hsame.1, hsame.2, rfl, fun _ _ _ _ => rfl⟩
  next =>
    let u := (s.wr F.hubLink_GEN 0 gen).wr F.hubLink_WIDTH 0 width
    have hregs : keepsRegs s u [Reg.hubLink] := fun r i hi hr => by
      have hne : regKey r i ≠ regKey Reg.hubLink 0 := fun he =>
        hr (List.mem_singleton.mpr ((regKey_inj hi (by decide)).mp he).1)
      exact (State.reg_wr_other _ F.hubLink_WIDTH 0 width hne).trans (State.reg_wr_other _ F.hubLink_GEN 0 gen hne)
    have hgen : u.rd F.hubLink_GEN = gen :=
      (State.rd_wr_fld _ F.hubLink_WIDTH F.hubLink_GEN 0 width rfl (by decide) (by decide)).trans
        ((State.rd_wr_same s F.hubLink_GEN 0 gen (by decide)).trans (Nat.mod_eq_of_lt hg))
    have hwidth : u.rd F.hubLink_WIDTH = width :=
      (State.rd_wr_same _ F.hubLink_WIDTH 0 width (by decide)).trans (Nat.mod_eq_of_lt hw)
    have htold := fun sev a3 => u.raise_told _ (linkNtc_named 0x0F03 sev gen width a3)
    exact ⟨((htold _ _).rd F.hubLink_GEN 0 (by decide) (by decide)).trans hgen,
      ((htold _ _).rd F.hubLink_WIDTH 0 (by decide) (by decide)).trans hwidth, (htold _ _).rest,
      hregs.trans (htold _ _).regs⟩

/-! ### The obligation -/

section
variable {s : State}

theorem vfFlr_leads {k : Fin 16} (hoff : s.dev ≠ Dev.off) (hpause : s.dev ≠ Dev.paused) :
    leads (.vfFlr k) s (fun t => t.ctxState k.val = Ctx.disabling ∧ (∀ c, c < 16 → c ≠ k.val → t.ctxState c = s.ctxState c) ∧
      t.dev = s.dev ∧ t.mem = s.mem ∧ t.host = s.host ∧ t.mbox = s.mbox ∧ keepsRegs s t [Reg.ctxState]) := by
  have hst := fun {d : Nat} => State.ctxState_disable hoff hpause k.isLt (d := d)
  have hkeeps := State.keepsRegs_disable hoff hpause k.isLt
  obtain ⟨hmem, hhost, hmbox⟩ := State.memories_of_undisabled (s.undisabled_disable k.val)
  exact ⟨s.disable k.val, rfl, (hst k.isLt).trans (if_pos rfl), fun c hc hne => (hst hc).trans (if_neg hne),
    hkeeps.dev (by decide), hmem, hhost, hmbox, hkeeps⟩

theorem vfFlr_paused_leads {k : Fin 16} (h : s.dev = Dev.paused) (hn : s.ctxState k.val ≠ Ctx.disabling) :
    leads (.vfFlr k) s (fun t => k.val ∈ t.sec.heldDisable ∧ t.regs = s.regs ∧ t.rings = s.rings) := by
  obtain ⟨held, hheld, -, hk⟩ := State.disable_of_paused h k.val
  exact ⟨s.holding held, congrArg Host.Outcome.next hheld, hk hn, rfl, rfl⟩

theorem vfDisable_leads (hoff : s.dev ≠ Dev.off) (hpause : s.dev ≠ Dev.paused) :
    leads .vfDisable s (fun t => (∀ c, c < 16 → t.ctxState c = Ctx.disabling) ∧ t.dev = s.dev ∧ t.mem = s.mem ∧
      t.mbox = s.mbox ∧ keepsRegs s t [Reg.ctxState]) := by
  obtain ⟨hkeeps, hst⟩ := State.disables_of_running hoff hpause (l := List.range 16) fun c hc => List.mem_range.mp hc
  obtain ⟨hmem, -, hmbox⟩ := State.memories_of_undisabled (s.undisabled_disables (List.range 16))
  exact ⟨_, rfl, fun c hc => (hst c hc).trans (if_pos (List.mem_range.mpr hc)), hkeeps.dev (by decide), hmem,
    hmbox, hkeeps⟩

theorem functionReset_leads {c : Instr} (hc : c = .pf0Flr ∨ c = .hotReset) (hrom : Dev.rom ≤ s.dev) (hpause : s.dev ≠ Dev.paused) :
    leads c s (fun t => (∀ k, k < 16 → t.ctxState k = Ctx.disabling) ∧ t.pf0Reset = true ∧ t.dev = s.dev ∧ t.mem = s.mem ∧
      t.host = s.host ∧ t.mbox = s.mbox ∧ keepsRegs s t [Reg.ctxState]) := by
  have hoff : s.dev ≠ Dev.off := fun h => absurd (h ▸ hrom) (by decide)
  obtain ⟨hrest, hkeeps, hst⟩ := State.resetFunctions_of_running hoff hpause
  obtain ⟨hmem, hhost, hmbox⟩ := State.memories_of_undisabled hrest
  exact ⟨_, exec_functionReset hc hrom, hst, State.same_of_undisabled hrest State.pf0Reset fun _ => rfl, hkeeps.dev (by decide),
    hmem, hhost, hmbox, hkeeps⟩

theorem reset_paused_leads {c : Instr} (hc : c = .pf0Flr ∨ c = .hotReset ∨ c = .vfDisable) (h : s.dev = Dev.paused) :
    leads c s (fun t => (∀ k, k < 16 → s.ctxState k ≠ Ctx.disabling → k ∈ t.sec.heldDisable) ∧ t.regs = s.regs ∧
      t.mem = s.mem ∧ t.rings = s.rings) := by
  rcases or_assoc.mpr hc with hc | rfl
  · obtain ⟨held, hheld, hall⟩ := State.resetFunctions_of_paused h
    exact ⟨_, (exec_functionReset hc (by rw [h]; decide)).trans (congrArg Host.Outcome.next hheld), hall, rfl, rfl, rfl⟩
  · obtain ⟨held, hheld, -, hall⟩ := State.disables_of_paused h (List.range 16)
    exact ⟨s.holding held, congrArg Host.Outcome.next hheld, fun k hk => hall k (List.mem_range.mpr hk), rfl, rfl, rfl⟩

theorem perstAssert_leads (hrom : Dev.rom ≤ s.dev) (hpause : s.dev ≠ Dev.paused) :
    leads .perstAssert s (fun t => (∀ k, k < 16 → t.ctxState k = Ctx.disabling) ∧ t.pf0Reset = true ∧ t.dev = s.dev ∧
      t.pins.perst = true ∧ t.rd F.hubLink_GEN = 0 ∧ t.rd F.hubLink_WIDTH = 0 ∧
      keepsRegs s t (Reg.ctxState :: Reg.hubLink :: toldRegs)) := by
  let p : State := { s with pins := { s.pins with perst := true } }
  have hoff : p.dev ≠ Dev.off := fun h => absurd (h ▸ hrom) (by decide)
  obtain ⟨hrest, hkeeps, hst⟩ := State.resetFunctions_of_running (s := p) hoff hpause
  obtain ⟨hgen, hwidth, huntold, hlink⟩ := p.resetFunctions.setLink_spec (gen := 0) (width := 0) (by decide) (by decide)
  have hall : keepsRegs s (p.resetFunctions.setLink 0 0) (Reg.ctxState :: Reg.hubLink :: toldRegs) :=
    keepsRegs.trans (s := p) hkeeps hlink
  have hpins : (p.resetFunctions.setLink 0 0).pins = p.pins :=
    (State.same_of_untold huntold State.pins fun _ => rfl).trans (State.same_of_undisabled hrest State.pins fun _ => rfl)
  have hasked : (p.resetFunctions.setLink 0 0).pf0Reset = true :=
    (State.same_of_untold huntold State.pf0Reset fun _ => rfl).trans (State.same_of_undisabled hrest State.pf0Reset fun _ => rfl)
  exact ⟨_, congrArg Host.Outcome.next (if_neg (Nat.not_lt.mpr hrom)),
    fun k hk => (hlink.rd F.ctxState_STATE (by omega) (by decide)).trans (hst k hk), hasked,
    hall.dev (by decide), by rw [hpins], hgen, hwidth, hall⟩

end

/-- Settles O24: a reset is a row of disables, which leaves the contexts' states or, in a pause, the list of those held. -/
theorem functionResets : Obligations.FunctionResets := by
  unfold Obligations.FunctionResets
  exact ⟨fun _ _ hoff hpause _ => vfFlr_leads hoff hpause, fun _ _ h hn => vfFlr_paused_leads h hn,
    fun _ hoff hpause => vfDisable_leads hoff hpause, fun _ _ hc hrom hpause => functionReset_leads hc hrom hpause,
    fun _ _ hc h => reset_paused_leads hc h, fun _ hrom hpause => perstAssert_leads hrom hpause, fun _ => rfl⟩

end Sys2Proof.Machine
end

section
/-!
The end of a pre-emption and of a resumption (R344 to R348, R384): what they leave in the context's state and in its beads.
The statement of both is refuted at the end: nothing in it keeps a table of rings from holding two entries of one key.
-/
namespace Sys2Proof.Machine

/-! ### The words of the beads (R384) -/

theorem look_map_if {β : Type} (t : Tbl β) (p : Nat → Prop) [DecidablePred p] (g : Nat → β → β) (k : Nat) :
    look (t.map fun e => if p e.1 then (e.1, g e.1 e.2) else e) k = if p k then (look t k).map (g k) else look t k := by
  induction t with
  | nil => simp [look]
  | cons e t ih =>
    rw [List.map_cons]
    by_cases hk : k = e.1
    · subst hk
      by_cases hp : p e.1 <;> simp [hp, look]
    · by_cases hp : p e.1 <;> simp only [hp, if_true, if_false, look, hk, ih]

/-- A bead of owner `c` goes from one state to another. -/
def movedBead (c was now : Nat) (w : Word) : Word := if attrOwner w = c ∧ attrSt w = was then attrState w now else w

section
variable {s : State} {f : Word → Word}

theorem State.look_mapBeads (k : Nat) : look (s.mapBeads fun _ => f).regs k =
    if regKey Reg.beadAttr 0 ≤ k ∧ k < regKey Reg.beadAttr 65536 then (look s.regs k).map f else look s.regs k :=
  look_map_if s.regs (fun k => regKey Reg.beadAttr 0 ≤ k ∧ k < regKey Reg.beadAttr 65536) (fun _ => f) k

theorem State.keepsRegs_mapBeads : keepsRegs s (s.mapBeads fun _ => f) [Reg.beadAttr] := fun r i hi hr => by
  have hne : r ≠ 31 := fun he => hr (List.mem_singleton.mpr he)
  unfold State.reg lookD
  rw [State.look_mapBeads, if_neg (by unfold regKey Reg.beadAttr; omega)]

/-- A bead that no word is stored for has the word at reset, which a change of the beads in use leaves. -/
theorem State.attr_mapBeads (hf : f (resetWord Reg.beadAttr) = resetWord Reg.beadAttr) {n : Nat} (hn : n < 65536) :
    (s.mapBeads fun _ => f).reg Reg.beadAttr n = f (s.reg Reg.beadAttr n) := by
  unfold State.reg lookD
  rw [State.look_mapBeads, if_pos (by unfold regKey Reg.beadAttr; omega)]
  cases look s.regs (regKey Reg.beadAttr n) with
  | none => exact hf.symm
  | some w => rfl

theorem attrSt_attrState (w : Word) {v : Nat} (hv : v < 4) : attrSt (attrState w v) = v := by
  unfold attrSt attrState
  rw [BitVec.toNat_ofNat, Nat.mod_eq_of_lt (setBits_lt _ _ _ _ 64 w.isLt (by decide)), bitsOf_setBits_same]
  exact Nat.mod_eq_of_lt hv

end

/-- Every bead of owner `c` in one state goes to another; those of other owners, and every value, stand (R384). -/
def State.beadsMoved (s t : State) (c was now : Nat) : Prop :=
  (∀ n, n < 65536 → s.rd F.beadAttr_OWNER n = c → s.beadState n = was → t.beadState n = now) ∧
  (∀ n, n < 65536 → s.rd F.beadAttr_OWNER n ≠ c → t.beadState n = s.beadState n) ∧
  ∀ n, n < 65536 → t.beadValue n = s.beadValue n

/-- The beads of a state that differs from another in the words of its beads alone, seen past registers that are none of theirs. -/
theorem State.beadsMoved_of_mapBeads {s u t : State} {c was now : Nat} {l l' : List Nat} (hs : keepsRegs s u l)
    (ht : keepsRegs (u.mapBeads fun _ => movedBead c was now) t l') (hl : Reg.beadAttr ∉ l ∧ Reg.beadValue ∉ l)
    (hl' : Reg.beadAttr ∉ l' ∧ Reg.beadValue ∉ l') (hwas : was ≠ BeadSt.free) (hnow : now < 4) : s.beadsMoved t c was now := by
  have hreset : movedBead c was now (resetWord Reg.beadAttr) = resetWord Reg.beadAttr :=
    if_neg fun h => hwas (h.2.symm.trans (by decide))
  have hattr : ∀ n, n < 65536 → t.reg Reg.beadAttr n = movedBead c was now (s.reg Reg.beadAttr n) := fun n hn => by
    rw [ht _ n (by omega) hl'.1, State.attr_mapBeads hreset hn, hs _ n (by omega) hl.1]
  refine ⟨fun n hn ho hst => ?_, fun n hn ho => ?_, fun n hn => ?_⟩
  · have hmoved : movedBead c was now (s.reg Reg.beadAttr n) = attrState (s.reg Reg.beadAttr n) now := if_pos ⟨ho, hst⟩
    exact (congrArg attrSt ((hattr n hn).trans hmoved)).trans (attrSt_attrState _ hnow)
  · have hkept : movedBead c was now (s.reg Reg.beadAttr n) = s.reg Reg.beadAttr n := if_neg fun h => ho h.1
    exact congrArg attrSt ((hattr n hn).trans hkept)
  · have hvalue := ((ht Reg.beadValue n (by omega) hl'.2).trans
      (State.keepsRegs_mapBeads Reg.beadValue n (by omega) (by decide))).trans (hs Reg.beadValue n (by omega) hl.2)
    exact congrArg BitVec.toNat hvalue

/-- The peers' hearing of a suspension leaves registers and rings. -/
theorem State.tellWaits_frame (s : State) : s.tellWaits.regs = s.regs ∧ s.tellWaits.rings = s.rings := by
  obtain ⟨hregs, -, hrings⟩ := s.sendGcts_frame
    (fun _ w => .suspend w.req (s.beadState w.phys == BeadSt.suspended) (s.beadValue w.phys))
    (s.rwaits.filter fun w => (s.beadState w.phys == BeadSt.suspended) != w.told)
  exact ⟨hregs, hrings⟩

theorem State.regs_suspendBeads (s : State) (c : Nat) :
    (s.suspendBeads c).regs = (s.mapBeads fun _ => movedBead c BeadSt.active BeadSt.suspended).regs := (State.tellWaits_frame _).1

theorem State.regs_resumeBeads (s : State) (c : Nat) :
    (s.resumeBeads c).regs = (s.mapBeads fun _ => movedBead c BeadSt.suspended BeadSt.active).regs := (State.tellWaits_frame _).1

/-! ### A context set aside (R344, R345, R347) -/

theorem ctxNtc_named (code sev : Nat) {c : Nat} (hc : c < 16) (a1 a2 a3 : Nat) : (ctxNtc code sev c a1 a2 a3).named :=
  named_of_ctx rfl hc

theorem keepsRegs_of_regs {s t : State} (h : t.regs = s.regs) : keepsRegs s t [] := fun r i _ _ => State.reg_of_regs h r i

section
variable {s : State} {c : Nat} (hc : c < 16)
include hc

/-- Steps 4 and 5 of R344. -/
theorem State.setAside_spec (mode saved : Nat) {s₀ : State} {l : List Nat} (hs : keepsRegs s₀ s l)
    (hl : Reg.beadAttr ∉ l ∧ Reg.beadValue ∉ l) :
    (s.setAside c mode saved).ctxState c = Ctx.preempted ∧
    s₀.beadsMoved (s.setAside c mode saved) c BeadSt.active BeadSt.suspended := by
  let u := s.wr F.ctxState_STATE c Ctx.preempted
  have hu : keepsRegs s u [Reg.ctxState] := keepsRegs_of_ctxState hc rfl rfl
  have hbeads := State.regs_suspendBeads u c
  have hset : keepsRegs (u.mapBeads fun _ => movedBead c BeadSt.active BeadSt.suspended) (s.setAside c mode saved) toldRegs :=
    (keepsRegs_of_regs hbeads).trans ((u.suspendBeads c).raise_told _ (ctxNtc_named _ _ hc _ _ _)).regs
  refine ⟨(hset.rd F.ctxState_STATE (by omega) (by decide)).trans ?_, ?_⟩
  · exact (State.keepsRegs_mapBeads.rd F.ctxState_STATE (by omega) (by decide)).trans
      ((State.ctxState_of_wr hc hc (by decide) rfl).trans (if_pos rfl))
  · exact State.beadsMoved_of_mapBeads (hs.trans hu) hset (by simp [hl]) (by decide) (by decide) (by decide)

end

theorem State.ctxRings_mapDispatch (s : State) (c d : Nat) (f : Stall → Option Stall) :
    (s.mapDispatch d f).ctxRings c = s.ctxRings c := by
  unfold State.ctxRings State.mapDispatch
  congr 1
  simp only [List.map_map]
  exact List.map_congr_left fun e _ => by simp only [Function.comp]; split <;> rfl

theorem State.cmds_mapDispatch (s : State) (d : Nat) (f : Stall → Option Stall) (k : Nat) :
    ((s.mapDispatch d f).ring k).cmds = (s.ring k).cmds := by
  have hlook : look (s.mapDispatch d f).rings k = if k / 64 = d then _ else look s.rings k :=
    look_map_if s.rings (· / 64 = d)
      (fun _ r => { r with complStall := r.complStall.bind f, fetchStall := r.fetchStall.bind f }) k
  unfold State.ring lookD
  rw [hlook]
  split
  · cases look s.rings k <;> rfl
  · rfl

theorem State.ctxCmds_mapDispatch (s : State) (c d : Nat) (f : Stall → Option Stall) :
    (s.mapDispatch d f).ctxCmds c = s.ctxCmds c := by
  unfold State.ctxCmds
  simp only [State.ctxRings_mapDispatch, State.cmds_mapDispatch]

theorem State.evictAll_of_no_cmds {s : State} {c : Nat} (h : s.ctxCmds c = []) :
    (s.evictAll c).2 = s.mapDispatch c (fun _ => none) := by
  have hleft := (s.ctxCmds_mapDispatch c c fun _ => none).trans h
  simp only [State.evictAll, h, List.foldl_nil, hleft]

/-- The default save area of 16 MiB always holds a save (R347). -/
theorem saveNeed_le (v : Nat) : saveNeed v ≤ 16 * 2 ^ 20 := by unfold saveNeed; omega

theorem State.keepsRegs_saveCtx (s : State) (c need : Nat) : keepsRegs s (s.saveCtx c need) toldRegs := by
  obtain ⟨base, bs, hregs⟩ : ∃ base bs, (s.saveCtx c need).regs = ((s.freeBytes (need - 64)).2.writePhys base bs).2.regs := by
    unfold State.saveCtx State.mapDispatch State.mapCmds
    exact ⟨_, _, rfl⟩
  have hwrite : keepsRegs s ((s.freeBytes (need - 64)).2.writePhys base bs).2 toldRegs :=
    (Told.writePhys (s.freeBytes (need - 64)).2 base bs).regs
  exact fun r i hi hr => (State.reg_of_regs hregs r i).trans (hwrite r i hi hr)

/-- The clause of PREEMPT_COMPLETE, in every state. -/
theorem preemptComplete_leads {ctx : Fin 16} {s : State} (hst : s.ctxState ctx.val = Ctx.preempting)
    (hready : s.preemptReady ctx.val = true)
    (h : (s.ctx ctx.val).evict = true ∧ s.ctxCmds ctx.val = [] ∨ (s.ctx ctx.val).evict = false ∧ 16 ≤ s.rd F.ctxSave_SIZE ctx.val) :
    leads (.preemptComplete ctx) s (fun t => t.ctxState ctx.val = Ctx.preempted ∧
      s.beadsMoved t ctx.val BeadSt.active BeadSt.suspended) := by
  have hgo : ¬(s.ctxState ctx.val ≠ Ctx.preempting ∨ (!s.preemptReady ctx.val) = true) := by simp [hst, hready]
  rcases h with ⟨hevict, hnone⟩ | ⟨hsave, hsize⟩
  · have hleft := (s.ctxCmds_mapDispatch ctx.val ctx.val fun _ => none).trans hnone
    have hexec : exec (.preemptComplete ctx) s = .next ((s.mapDispatch ctx.val fun _ => none).setAside ctx.val 1 0) := by
      refine congrArg Host.Outcome.next ((if_neg hgo).trans ((if_pos hevict).trans ?_))
      rw [State.evictAll_of_no_cmds hnone]
      exact if_pos hleft
    exact ⟨_, hexec, State.setAside_spec ctx.isLt 1 0 (keepsRegs_of_regs (s := s) rfl) ⟨List.not_mem_nil, List.not_mem_nil⟩⟩
  · let u := s.fresh.2
    let need := saveNeed s.fresh.1.toNat
    have hfits : ¬ need > s.rd F.ctxSave_SIZE ctx.val * 2 ^ 20 := by
      have := saveNeed_le s.fresh.1.toNat
      omega
    have hexec : exec (.preemptComplete ctx) s =
        .next ((u.saveCtx ctx.val need).setAside ctx.val 0 (u.ctxCmds ctx.val).length) :=
      congrArg Host.Outcome.next ((if_neg hgo).trans ((if_neg (by simp [hsave])).trans (if_neg hfits)))
    have hsaved : keepsRegs s (u.saveCtx ctx.val need) toldRegs := u.keepsRegs_saveCtx ctx.val need
    exact ⟨_, hexec, State.setAside_spec ctx.isLt 0 _ hsaved (by decide)⟩

/-! ### A context without commands -/

/-- No entry of the table of rings holds a command of a context, not even one that another of its key hides. -/
def State.noCmds (s : State) (c : Nat) : Prop := ∀ e ∈ s.rings, e.1 / 64 = c → e.2.cmds = []

theorem look_of_mem {β : Type} {t : Tbl β} (ht : rising t = true) {e : Nat × β} (he : e ∈ t) : look t e.1 = some e.2 := by
  rw [rising_iff] at ht
  induction t with
  | nil => cases he
  | cons f t ih =>
    obtain ⟨hf, ht⟩ := List.pairwise_cons.mp ht
    rcases List.mem_cons.mp he with rfl | he
    · exact if_pos rfl
    · exact (if_neg (Nat.ne_of_gt (hf e he))).trans (ih ht he)

section
variable {s t : State} {c : Nat}

theorem State.noCmds_of_ctxCmds (hr : rising s.rings = true) (h : s.ctxCmds c = []) : s.noCmds c := fun e he hc => by
  have hmem : e.1 ∈ s.ctxRings c := List.mem_filter.mpr ⟨List.mem_map_of_mem he, by simp [hc]⟩
  have hring : s.ring e.1 = e.2 := by unfold State.ring lookD; rw [look_of_mem hr he]; rfl
  have hnil := List.flatMap_eq_nil_iff.mp h e.1 hmem
  rwa [hring, List.map_eq_nil_iff] at hnil

variable (h : s.noCmds c)
include h

theorem State.cmds_of_noCmds {k : Nat} (hk : k / 64 = c) : (s.ring k).cmds = [] := by
  unfold State.ring lookD
  cases hl : look s.rings k with
  | none => rfl
  | some r => exact h (k, r) (mem_of_look hl) hk

theorem State.ctxCmds_of_noCmds : s.ctxCmds c = [] := List.flatMap_eq_nil_iff.mpr fun k hk => by
  rw [State.cmds_of_noCmds h (by simpa using (List.mem_filter.mp hk).2), List.map_nil]

theorem State.stepCmd_of_noCmds (p : Cmd → Bool) : s.stepCmd c p = none := by
  refine (congrArg List.head? (List.flatMap_eq_nil_iff.mpr fun e he => ?_)).trans List.head?_nil
  split
  next hc => rw [h e he hc, List.filter_nil, List.map_nil]
  next => rfl

theorem State.stepResume_of_noCmds : s.stepResume c = s := by
  unfold State.stepResume State.stepGo
  simp only [State.stepCmd_of_noCmds h, ite_self]

theorem State.noCmds_of_rings (hr : t.rings = s.rings) : t.noCmds c := fun e he => h e (hr ▸ he)

theorem State.noCmds_mapCmds (f : Nat → Cmd → Cmd) : (s.mapCmds f).noCmds c := fun e he hc => by
  obtain ⟨e', he', rfl⟩ := List.mem_map.mp he
  exact (congrArg (List.map (f e'.1)) (h e' he' hc)).trans List.map_nil

theorem State.noCmds_mapDispatch (d : Nat) (f : Stall → Option Stall) : (s.mapDispatch d f).noCmds c := fun e he hc => by
  obtain ⟨e', he', rfl⟩ := List.mem_map.mp he
  by_cases hd : e'.1 / 64 = d
  · rw [if_pos hd] at hc ⊢
    exact h e' he' hc
  · rw [if_neg hd] at hc ⊢
    exact h e' he' hc

theorem State.noCmds_armRing (k : Nat) : (s.armRing k).noCmds c := by
  unfold State.armRing
  dsimp only
  split
  · intro e he hc
    rcases mem_put _ _ _ _ he with rfl | he
    · rw [State.cmds_of_noCmds h hc]
      rfl
    · exact h e he hc
  · exact h

theorem State.noCmds_armAll : s.armAll.noCmds c :=
  List.foldlRecOn (motive := fun t : State => t.noCmds c) _ _ h fun _ ht k _ => State.noCmds_armRing ht k

/-! ### A context that runs again (R348) -/

/-- A context without commands after steps 2 to 5 of R348, but for the notice. -/
def State.resumedIdle (s : State) (c : Nat) : State :=
  (((((s.redispatch c).wr F.ctxState_STATE c Ctx.idle).resumeBeads c).release).retime).armAll

theorem State.noCmds_redispatch : (s.redispatch c).noCmds c :=
  State.noCmds_mapCmds (State.noCmds_mapDispatch h c s.keepDispatch) _

theorem State.noCmds_resumeBeads : (s.resumeBeads c).noCmds c := by
  let u := s.mapBeads fun _ => movedBead c BeadSt.suspended BeadSt.active
  have hu : u.noCmds c := State.noCmds_of_rings h rfl
  exact State.noCmds_of_rings (State.noCmds_mapCmds hu _) u.retime.tellWaits_frame.2

theorem State.noCmds_resumedIdle : (s.resumedIdle c).noCmds c := by
  have hwr : ((s.redispatch c).wr F.ctxState_STATE c Ctx.idle).noCmds c := State.noCmds_of_rings (State.noCmds_redispatch h) rfl
  exact State.noCmds_armAll (State.noCmds_mapCmds (State.noCmds_mapCmds (State.noCmds_resumeBeads hwr) _) _)

theorem State.endResume_of_noCmds : ∃ n failed us, s.endResume c = (s.resumedIdle c).raise (ctxNtc 0x0405 Sev.info c n failed us) := by
  have hfirst := State.ctxCmds_of_noCmds (State.noCmds_redispatch h)
  have hlast := State.ctxCmds_of_noCmds (State.noCmds_resumedIdle h)
  have hstep := State.stepResume_of_noCmds (State.noCmds_resumedIdle h)
  unfold State.resumedIdle at hlast hstep ⊢
  unfold State.endResume State.startHeld
  simp only [hfirst, List.foldl_nil, if_true, hstep, hlast, List.filter_nil, List.map_nil, List.eraseDups_nil]
  exact ⟨_, _, _, rfl⟩

end

theorem State.regs_resumedIdle (s : State) (c : Nat) : (s.resumedIdle c).regs =
    (((s.wr F.ctxState_STATE c Ctx.idle)).mapBeads fun _ => movedBead c BeadSt.suspended BeadSt.active).regs :=
  (State.regs_of_ringless (State.ringless_armAll _)).trans (State.regs_resumeBeads _ c)

/-- The clause of RESUME_COMPLETE, where the keys of the rings rise, as they do in every table that `put` has built. -/
theorem resumeComplete_leads {ctx : Fin 16} {s : State} (hrings : rising s.rings = true) (hst : s.ctxState ctx.val = Ctx.resuming)
    (hnone : s.ctxCmds ctx.val = []) :
    leads (.resumeComplete ctx) s (fun t => t.ctxState ctx.val = Ctx.idle ∧
      s.beadsMoved t ctx.val BeadSt.suspended BeadSt.active) := by
  obtain ⟨n, failed, us, hend⟩ := State.endResume_of_noCmds (State.noCmds_of_ctxCmds hrings hnone)
  have hc := ctx.isLt
  have hidle : keepsRegs s (s.wr F.ctxState_STATE ctx.val Ctx.idle) [Reg.ctxState] := keepsRegs_of_ctxState hc rfl rfl
  have htold := ((s.resumedIdle ctx.val).raise_told _ (ctxNtc_named 0x0405 Sev.info hc n failed us)).regs
  have hset := (keepsRegs_of_regs (s.regs_resumedIdle ctx.val)).trans htold
  refine ⟨_, congrArg Host.Outcome.next ((if_pos hst).trans hend), ?_, ?_⟩
  · exact (hset.rd F.ctxState_STATE (by omega) (by decide)).trans
      ((State.keepsRegs_mapBeads.rd F.ctxState_STATE (by omega) (by decide)).trans
        ((State.ctxState_of_wr hc hc (by decide) rfl).trans (if_pos rfl)))
  · exact State.beadsMoved_of_mapBeads hidle hset (by decide) (by decide) (by decide) (by decide)

/-! ### A hidden command -/

/-- A tile number, none of the device's, for which a generator of context 0 has the key of copy 0 of register `r`. -/
def strayTile (r : Nat) : Nat := (r - Reg.tilSrngSeed) * 1048576

/-- A STEP_COMMIT of round 7 that waits for READY, with a draw of such a tile: at its end the value of bead 0 is advanced
as if it were that tile's generator. -/
def strayCommit : Cmd :=
  { count := 0, record := [0x61], phase := .waiting, aux := stepAux 0 0, desc := List.replicate 8 0 ++ [7],
    seeds := [(strayTile Reg.beadValue, 0)], drawn := [(strayTile Reg.beadValue, 1)] }

/-- Context 0 resumes. Its ring 0 stands twice in the table: the entry found first is empty and hides the command of the
other. The page table at address 0 names itself on every level, and its entry 1 maps the page of the group record to
address 0 as well: read there, the record says that round 7 is applied. -/
def hiddenCommit : State :=
  let fields := [(F.ctxState_STATE, Ctx.resuming), (F.ctxVersion_CURRENT, 7), (F.memRegionCfg_VALID, 1), (F.memRegionCfg_SHARE, 1),
    (F.ctxMmuRoot_VALID, 1), (F.ctxStepRec_RECORD_ADDR, 0x10000)]
  { fields.foldl (fun s (e : Fld × Nat) => s.wr e.1 0 e.2) State.reset with
    mem := [(0, 1), (8, 7), (18, 4)]
    groups := [{ ctx := 0, id := 0, phase := 1, conns := [0xFFFF], self := 0 }]
    rings := [(0, {}), (0, { cmds := [strayCommit] })] }

/-- Refutes O30: in `hiddenCommit` the context has no command that its rings show, yet RESUME_COMPLETE takes up the hidden
STEP_COMMIT, whose end changes the value of bead 0. The clauses hold as `preemptComplete_leads` and, for rings whose keys
rise, `resumeComplete_leads` have them. -/
theorem not_preemptAndResume : ¬ Obligations.PreemptAndResume := by
  unfold Obligations.PreemptAndResume
  intro h
  obtain ⟨t, ht, -, -, -, hvalue⟩ := h.2 0 hiddenCommit (by decide +kernel) (by decide +kernel)
  have hexec : exec (.resumeComplete 0) hiddenCommit = .next (hiddenCommit.endResume 0) :=
    congrArg Host.Outcome.next (if_pos (by decide +kernel))
  have hend : hiddenCommit.endResume 0 = t := Host.Outcome.next.inj (hexec.symm.trans ht)
  have hchanged : (hiddenCommit.endResume 0).beadValue 0 ≠ hiddenCommit.beadValue 0 := by decide +kernel
  exact hchanged (hend ▸ hvalue 0 (by decide))

end Sys2Proof.Machine
end

section
/-!
Invalidations, and the end of the disable of a context (R334, R349, R354, R355). The statement of both is refuted at the
end: nothing in it keeps the draws of a command to tiles of the device.
-/
namespace Sys2Proof.Machine

/-! ### Invalidation (R334, R355) -/

section
variable {s : State} {ctx : Fin 16}

theorem exec_ctxInvalidate_of_ignored {fn : Fn} (vpn : BitVec 36) (count : BitVec 20)
    (h : Fn.reaches fn ctx.val = false ∨ s.flag F.ctxState_INVAL_BUSY ctx.val = true) :
    exec (.ctxInvalidate fn ctx vpn count) s = .next s := by
  refine congrArg Host.Outcome.next (if_neg ?_)
  rcases h with h | h <;> simp [h]

theorem ctxInvalidate_leads {fn : Fn} (vpn : BitVec 36) (count : BitVec 20) (hfn : Fn.reaches fn ctx.val = true)
    (hfree : s.flag F.ctxState_INVAL_BUSY ctx.val = false) :
    leads (.ctxInvalidate fn ctx vpn count) s (fun t => t.rd F.ctxState_INVAL_BUSY ctx.val = 1 ∧
      t.ctxState ctx.val = s.ctxState ctx.val ∧ (t.ctx ctx.val).inval = some (vpn.toNat, count.toNat) ∧ t.tlb = s.tlb ∧
      t.mem = s.mem ∧ t.rings = s.rings ∧ keepsRegs s t [Reg.ctxState]) :=
  ⟨_, congrArg Host.Outcome.next (if_pos ⟨hfn, by simp [hfree]⟩), s.rd_wr_same F.ctxState_INVAL_BUSY ctx.val 1 (by decide),
    s.rd_wr_fld F.ctxState_INVAL_BUSY F.ctxState_STATE ctx.val 1 rfl (by decide) (by decide),
    congrArg CtxRt.inval (State.ctx_setCtx_same _ _ _), rfl, rfl, rfl, keepsRegs_of_ctxState ctx.isLt rfl rfl⟩

theorem invalidationComplete_leads (h : s.flag F.ctxState_INVAL_BUSY ctx.val = true) {r : Nat × Nat}
    (hr : (s.ctx ctx.val).inval.getD (0, 0) = r) :
    leads (.invalidationComplete ctx) s (fun t => t.rd F.ctxState_INVAL_BUSY ctx.val = 0 ∧
      t.ctxState ctx.val = s.ctxState ctx.val ∧ (∀ e, e ∈ t.tlb.leaves → e.ctx = ctx.val → ¬ e.touches r.1 r.2) ∧
      (∀ e, e ∈ s.tlb.leaves → e.ctx ≠ ctx.val → e ∈ t.tlb.leaves) ∧ t.mem = s.mem ∧ t.rings = s.rings ∧
      keepsRegs s t [Reg.ctxState]) := by
  let u := s.invalidate ctx.val r.1 r.2
  have hexec : exec (.invalidationComplete ctx) s = .next ((u.wr F.ctxState_INVAL_BUSY ctx.val 0).setCtx ctx.val
      { s.ctx ctx.val with inval := none }) := by
    subst hr
    exact congrArg Host.Outcome.next (if_pos h)
  exact ⟨_, hexec, u.rd_wr_same F.ctxState_INVAL_BUSY ctx.val 0 (by decide),
    u.rd_wr_fld F.ctxState_INVAL_BUSY F.ctxState_STATE ctx.val 0 rfl (by decide) (by decide),
    fun e he => (State.mem_leaves_invalidate.mp he).2,
    fun e he hne => State.mem_leaves_invalidate.mpr ⟨he, fun hc => absurd hc hne⟩, rfl, rfl,
    keepsRegs_of_ctxState ctx.isLt rfl rfl⟩

end

/-! ### The deadline of a disable (R349) -/

theorem State.ctxRings_mapCmds (s : State) (f : Nat → Cmd → Cmd) (c : Nat) : (s.mapCmds f).ctxRings c = s.ctxRings c := by
  unfold State.ctxRings State.mapCmds
  simp only [List.map_map, Function.comp_def]

theorem State.ctxCmds_mapCmds (s : State) (f : Nat → Cmd → Cmd) (c : Nat) :
    (s.mapCmds f).ctxCmds c = (s.ctxCmds c).map fun e => (e.1, f e.1 e.2) := by
  unfold State.ctxCmds
  simp only [State.ctxRings_mapCmds, State.cmds_mapCmds, List.map_flatMap, List.map_map, Function.comp_def]

theorem State.ctx_of_mem_ctxCmds {s : State} {c : Nat} {e : Nat × Cmd} (h : e ∈ s.ctxCmds c) : e.1 / 64 = c := by
  obtain ⟨k, hk, he⟩ := List.mem_flatMap.mp h
  obtain ⟨x, -, rfl⟩ := List.mem_map.mp he
  simpa using (List.mem_filter.mp hk).2

/-- The commands of a context with no unit stalled. -/
def State.unstalled (s : State) (c : Nat) : List (Nat × Cmd) := (s.ctxCmds c).map fun e => (e.1, { e.2 with stalls := [] })

theorem disableUnitDeadline_leads {ctx : Fin 16} {s : State} (hst : s.ctxState ctx.val = Ctx.disabling)
    (hlate : (s.ctx ctx.val).disabledAt + 20000000 ≤ s.ivl) :
    leads (.disableUnitDeadline ctx) s (fun t => t.ctxCmds ctx.val = s.unstalled ctx.val ∧
      (t.ctx ctx.val).abandoned = (s.ctx ctx.val).abandoned + ((s.ctxCmds ctx.val).map fun e => e.2.stalls.length).sum ∧
      t.regs = s.regs ∧ t.mem = s.mem) := by
  refine ⟨_, congrArg Host.Outcome.next (if_pos ⟨hst, by omega⟩), ?_, congrArg CtxRt.abandoned (State.ctx_setCtx_same _ _ _),
    rfl, rfl⟩
  refine (State.ctxCmds_mapDispatch _ _ _ _).trans ((s.ctxCmds_mapCmds _ _).trans (List.map_congr_left fun e he => ?_))
  rw [if_pos (State.ctx_of_mem_ctxCmds he)]

/-! ### Registers at reset (R13, R349) -/

section
variable {s : State} {r i : Nat}

theorem State.resetReg_eq (s : State) (r i : Nat) : s.resetReg r i = s ∨ ∃ w, s.resetReg r i = s.setReg r i w := by
  unfold State.resetReg
  split
  · exact .inl rfl
  · exact .inr ⟨_, rfl⟩

theorem State.reg_resetReg_other {r' i' : Nat} (h : regKey r' i' ≠ regKey r i) : (s.resetReg r i).reg r' i' = s.reg r' i' := by
  rcases s.resetReg_eq r i with he | ⟨w, he⟩ <;> rw [he]
  exact s.reg_setReg_other w h

theorem State.keepsRegs_resetReg (hi : i < 1048576) : keepsRegs s (s.resetReg r i) [r] := fun _ _ hj hr =>
  State.reg_resetReg_other fun he => hr (List.mem_singleton.mpr ((regKey_inj hj hi).mp he).1)

/-- Every field of the register is 0 at reset, and none is sticky. -/
def zeroAtReset (r : Nat) : Bool := (regFields r).all fun f => f.acc != .rs && f.reset == 0

theorem foldl_add_zero {α : Type} {g : α → Nat} {l : List α} (h : ∀ x ∈ l, g x = 0) (a : Nat) :
    l.foldl (fun a x => a + g x) a = a := by
  induction l generalizing a with
  | nil => rfl
  | cons x l ih => rw [List.foldl_cons, h x List.mem_cons_self, Nat.add_zero, ih fun y hy => h y (List.mem_cons_of_mem x hy)]

variable (hz : zeroAtReset r = true)
include hz

theorem zeroAtReset_fields {f : Fld} (hf : f ∈ regFields r) : f.acc ≠ .rs ∧ f.reset = 0 := by
  simpa using List.all_eq_true.mp hz f hf

theorem resetWord_eq_zero : resetWord r = 0 := by
  unfold resetWord
  rw [foldl_add_zero fun f hf => by rw [(zeroAtReset_fields hz hf).2, Nat.zero_shiftLeft]]
  rfl

theorem State.reg_resetReg_same : (s.resetReg r i).reg r i = 0 := by
  unfold State.resetReg
  cases hl : look s.regs (regKey r i) with
  | none =>
    unfold State.reg lookD
    rw [hl]
    exact resetWord_eq_zero hz
  | some w =>
    dsimp only
    rw [State.reg_setReg_same, foldl_add_zero fun f hf => by
      rw [if_neg (zeroAtReset_fields hz hf).1, (zeroAtReset_fields hz hf).2, Nat.zero_shiftLeft]]
    rfl

/-- What step 5 of R349 does with one stored register. -/
def State.resetOwned (c : Nat) (s : State) (e : Nat × Word) : State :=
  if ctxOwns c (e.1 / 1048576) (e.1 % 1048576) then s.resetReg (e.1 / 1048576) (e.1 % 1048576) else s

variable {c : Nat} {e : Nat × Word}

theorem State.reg_resetOwned_same (hi : i < 1048576) (hown : ctxOwns c r i = true) (he : e.1 = regKey r i) :
    (s.resetOwned c e).reg r i = 0 := by
  obtain ⟨hr, hk⟩ : e.1 / 1048576 = r ∧ e.1 % 1048576 = i := by rw [he]; unfold regKey; omega
  unfold State.resetOwned
  rw [hr, hk, if_pos hown]
  exact State.reg_resetReg_same hz

omit hz in
theorem State.reg_resetOwned_other (he : e.1 ≠ regKey r i) : (s.resetOwned c e).reg r i = s.reg r i := by
  unfold State.resetOwned
  split
  · refine State.reg_resetReg_other fun hk => he (Eq.trans ?_ hk.symm)
    unfold regKey
    omega
  · rfl

theorem State.reg_resetOwned_foldl (hi : i < 1048576) (hown : ctxOwns c r i = true) {l : List (Nat × Word)}
    (h : (∃ e ∈ l, e.1 = regKey r i) ∨ s.reg r i = 0) : (l.foldl (State.resetOwned c) s).reg r i = 0 := by
  induction l generalizing s with
  | nil => exact h.resolve_left fun ⟨_, he, _⟩ => List.not_mem_nil he
  | cons e l ih =>
    refine ih ?_
    by_cases he : e.1 = regKey r i
    · exact .inr (State.reg_resetOwned_same hz hi hown he)
    · refine h.imp (fun ⟨x, hx, hk⟩ => ⟨x, (List.mem_cons.mp hx).resolve_left fun hxe => he (hxe ▸ hk), hk⟩) ?_
      exact (State.reg_resetOwned_other he).trans

theorem State.reg_resetCtxRegs (hi : i < 1048576) (hown : ctxOwns c r i = true) : (s.resetCtxRegs c).reg r i = 0 := by
  refine State.reg_resetOwned_foldl hz hi hown (l := s.regs) ?_
  cases hl : look s.regs (regKey r i) with
  | none =>
    right
    unfold State.reg lookD
    rw [hl]
    exact resetWord_eq_zero hz
  | some w => exact .inl ⟨_, mem_of_look hl, rfl⟩

end

/-! ### The end of a disable (R349) -/

/-- Step 5 of R349. -/
def State.ctxCleared (s : State) (c : Nat) : State := ((s.invalidate c 0 0).clearCtx c).resetCtxRegs c

theorem State.endDisable_eq (s : State) (c : Nat) : ∃ (u : State) (n a us : Nat), s.endDisable c =
    ((u.ctxCleared c).raise { ctxNtc 0x0407 Sev.info c n a us with pf0Only := true }).endPf0 := by
  unfold State.endDisable
  dsimp only
  generalize ((s.ctxCmds c).foldl _ s).breakBeads c = u
  generalize (u.ctxConns c).foldl State.dropConn u = u
  exact ⟨u, _, _, _, rfl⟩

/-- A state without what a reset of registers, and PF0's own reset, may change. -/
def State.unreset (s : State) : State := { s with regs := [], msix := [], mbox := none, pf0Reset := false }

theorem State.unreset_resetReg (s : State) (r i : Nat) : (s.resetReg r i).unreset = s.unreset := by
  rcases s.resetReg_eq r i with he | ⟨w, he⟩ <;> rw [he]
  rfl

theorem State.unreset_resetCtxRegs (s : State) (c : Nat) : (s.resetCtxRegs c).unreset = s.unreset := by
  refine List.foldlRecOn (motive := fun t : State => t.unreset = s.unreset) _ _ rfl fun t ht e _ => ?_
  split
  · exact (t.unreset_resetReg _ _).trans ht
  · exact ht

theorem State.resetRegs_frame {α : Type} {g : α → Nat × Nat} {l : List α} {except : List Nat}
    (hg : ∀ a ∈ l, (g a).1 ∈ except ∧ (g a).2 < 1048576) (s : State) :
    (l.foldl (fun s a => s.resetReg (g a).1 (g a).2) s).unreset = s.unreset ∧
    keepsRegs s (l.foldl (fun s a => s.resetReg (g a).1 (g a).2) s) except := by
  induction l generalizing s with
  | nil => exact ⟨rfl, fun _ _ _ _ => rfl⟩
  | cons a l ih =>
    obtain ⟨hin, hi⟩ := hg a List.mem_cons_self
    obtain ⟨hrest, hregs⟩ := ih (fun b hb => hg b (List.mem_cons_of_mem a hb)) (s.resetReg (g a).1 (g a).2)
    have hone := (State.keepsRegs_resetReg (s := s) (r := (g a).1) hi).mono (List.cons_subset.mpr ⟨hin, List.nil_subset _⟩)
    exact ⟨hrest.trans (s.unreset_resetReg _ _), hone.andThen hregs⟩

/-- The registers that PF0's own reset resets. -/
abbrev pf0Regs : List Nat := [Reg.hubMboxArg, Reg.hubMboxCmd, Reg.hubMboxStatus, Reg.hubWindow, Reg.memHostBase]

theorem State.resetPf0_frame (s : State) : s.resetPf0.unreset = s.unreset ∧ keepsRegs s s.resetPf0 pf0Regs := by
  have hargs := State.resetRegs_frame (g := fun i => (Reg.hubMboxArg, i)) (l := List.range 8) (except := pf0Regs)
    (fun i hi => ⟨List.mem_cons_self, Nat.lt_trans (List.mem_range.mp hi) (by decide)⟩) s
  have hone := State.resetRegs_frame (g := fun r => (r, 0)) (except := pf0Regs)
    (l := [Reg.hubMboxCmd, Reg.hubMboxStatus, Reg.hubWindow, Reg.memHostBase])
    (fun r hr => ⟨List.mem_cons_of_mem _ hr, Nat.zero_lt_succ _⟩)
  unfold State.resetPf0
  dsimp only at hargs hone ⊢
  generalize (List.range 8).foldl (fun s i => s.resetReg Reg.hubMboxArg i) s = u at *
  specialize hone u
  generalize List.foldl (fun s r => s.resetReg r 0) u _ = v at *
  exact ⟨hone.1.trans hargs.1, hargs.2.andThen hone.2⟩

theorem State.endPf0_frame (s : State) : s.endPf0.unreset = s.unreset ∧ keepsRegs s s.endPf0 pf0Regs := by
  unfold State.endPf0
  split
  · exact State.resetPf0_frame { s with pf0Reset := false }
  · exact ⟨rfl, fun _ _ _ _ => rfl⟩

/-- Nothing of a context is left beside its registers: its entry, its rings, its groups and its brace set. -/
def State.ctxGone (s : State) (c : Nat) : Prop :=
  look s.ctxs c = none ∧ (∀ k, k / 64 = c → look s.rings k = none) ∧ (∀ g, g ∈ s.groups → g.ctx ≠ c) ∧
  look s.brace.sets c = none

theorem State.ctxGone_clearCtx (s : State) (c : Nat) : (s.clearCtx c).ctxGone c := by
  refine ⟨look_del_same _ c, fun k hk => ?_, fun g hg => ?_, look_del_same _ c⟩
  · exact (look_filter s.rings (fun k => k / 64 != c) k).trans (if_neg (by simp [hk]))
  · simpa using (List.mem_filter.mp hg).2

theorem State.ctxGone_of_same {s t : State} {c : Nat} (h : s.ctxGone c) (hctxs : t.ctxs = s.ctxs) (hrings : t.rings = s.rings)
    (hgroups : t.groups = s.groups) (hbrace : t.brace = s.brace) : t.ctxGone c := by
  unfold State.ctxGone
  rw [hctxs, hrings, hgroups, hbrace]
  exact h

theorem State.ctxGone_of_unreset {s t : State} {c : Nat} (h : s.ctxGone c) (hst : t.unreset = s.unreset) : t.ctxGone c :=
  State.ctxGone_of_same h (congrArg State.ctxs hst :) (congrArg State.rings hst :) (congrArg State.groups hst :)
    (congrArg State.brace hst :)

theorem State.rd_of_reg_zero {s : State} {f : Fld} {i : Nat} (h : s.reg f.reg i = 0) : s.rd f i = 0 := by
  unfold State.rd
  rw [h]
  simp [bitsOf]

/-- What DISABLE_COMPLETE does with the context itself, in every state. -/
theorem disableComplete_leads {ctx : Fin 16} {s : State} (hst : s.ctxState ctx.val = Ctx.disabling) (hnone : s.ctxStalls ctx.val = []) :
    leads (.disableComplete ctx) s (fun t => t.ctxState ctx.val = Ctx.idle ∧ t.ctxGone ctx.val ∧
      t.rd F.ctxMmuRoot_TABLE ctx.val = 0) := by
  obtain ⟨u, n, a, us, hend⟩ := s.endDisable_eq ctx.val
  have hc := ctx.isLt
  let x : Ntc := { ctxNtc 0x0407 Sev.info ctx.val n a us with pf0Only := true }
  have htold := (u.ctxCleared ctx.val).raise_told x (named_of_ctx rfl hc)
  obtain ⟨hrest, hregs⟩ := ((u.ctxCleared ctx.val).raise x).endPf0_frame
  have hzero : ∀ f : Fld, (∀ c : Fin 16, ctxOwns c.val f.reg c.val = true) → zeroAtReset f.reg = true →
      f.reg ∉ toldRegs → f.reg ∉ pf0Regs → ((u.ctxCleared ctx.val).raise x).endPf0.rd f ctx.val = 0 := fun f hown hz htr hpr =>
    (hregs.rd f (by omega) hpr).trans ((htold.rd f ctx.val (by omega) htr).trans
      (State.rd_of_reg_zero (State.reg_resetCtxRegs hz (by omega) (hown ctx))))
  have hcleared : (u.ctxCleared ctx.val).ctxGone ctx.val :=
    State.ctxGone_of_unreset (State.ctxGone_clearCtx _ _) (State.unreset_resetCtxRegs _ _)
  have hraised := State.ctxGone_of_same hcleared (htold.same State.ctxs fun _ => rfl) (htold.same State.rings fun _ => rfl)
    (htold.same State.groups fun _ => rfl) (htold.same State.brace fun _ => rfl)
  exact ⟨_, congrArg Host.Outcome.next ((if_pos ⟨hst, hnone⟩).trans hend),
    hzero F.ctxState_STATE (by decide) (by decide) (by decide) (by decide), State.ctxGone_of_unreset hraised hrest,
    hzero F.ctxMmuRoot_TABLE (by decide) (by decide) (by decide) (by decide)⟩

/-! ### A draw of no tile -/

/-- Context 0 is being disabled with a command in flight whose draws name the tile at which CTX_VERSION of the context
stands. Its connection table lies outside the stacks, so it has no connection to close. -/
def strayDisable : State :=
  { (State.reset.wr F.ctxState_STATE 0 Ctx.disabling).wr F.netConnTable_ADDR 0 (2 ^ 30) with
    rings := [(0, { cmds := [{ count := 0, record := [], phase := .waiting,
                               seeds := [(strayTile Reg.ctxVersion, 0)], drawn := [(strayTile Reg.ctxVersion, 1)] }] })] }

/-- Refutes O31: as the command of `strayDisable` is cut short the generator of its tile is advanced by its draw, and
with it CTX_VERSION.CURRENT, which a disable leaves. The other clauses hold as `ctxInvalidate_leads`,
`exec_ctxInvalidate_of_ignored`, `invalidationComplete_leads` and `disableUnitDeadline_leads` have them, and of the end of
a disable what `disableComplete_leads` says. -/
theorem not_invalidateAndDisable : ¬ Obligations.InvalidateAndDisable := by
  unfold Obligations.InvalidateAndDisable
  intro h
  obtain ⟨-, -, hend⟩ := h
  obtain ⟨t, ht, -, -, -, -, -, -, hcurrent, -⟩ := hend 0 strayDisable (by decide +kernel) (by decide +kernel)
  have hexec : exec (.disableComplete 0) strayDisable = .next (strayDisable.endDisable 0) :=
    congrArg Host.Outcome.next (if_pos (by decide +kernel))
  have hleft : strayDisable.endDisable 0 = t := Host.Outcome.next.inj (hexec.symm.trans ht)
  have hchanged : (strayDisable.endDisable 0).rd F.ctxVersion_CURRENT 0 ≠ strayDisable.rd F.ctxVersion_CURRENT 0 := by
    decide +kernel
  exact hchanged (hleft ▸ hcurrent)

end Sys2Proof.Machine
end

section
/-!
Beads as host software and peers change them (R364, R366, R374, R377, R390): what an addition leaves, taken or refused, and
the writes of a bead's attributes and of a context's map.
-/
namespace Sys2Proof.Machine

/-! ### An addition to a bead -/

/-- `t` has the registers of `s` but for the value of bead `n`, which has grown by `m`, and its memory. -/
structure BeadGrown (s t : State) (n m : Nat) : Prop where
  regs : t.regs = (s.setReg Reg.beadValue n (BitVec.ofNat 64 (s.beadValue n + m))).regs
  mem : t.mem = s.mem

section
variable {s t u : State} {n m : Nat}

theorem BeadGrown.andThen (h : BeadGrown s t n m) (hregs : u.regs = t.regs) (hmem : u.mem = t.mem) : BeadGrown s u n m :=
  ⟨hregs.trans h.regs, hmem.trans h.mem⟩

theorem BeadGrown.after (h : BeadGrown t u n m) (hregs : t.regs = s.regs) (hmem : t.mem = s.mem) : BeadGrown s u n m where
  regs := by rw [h.regs, State.beadValue, State.reg_of_regs hregs]; simp only [State.setReg, hregs]; rfl
  mem := h.mem.trans hmem

theorem BeadGrown.armAll (h : BeadGrown s t n m) : BeadGrown s t.armAll n m :=
  h.andThen (State.regs_of_ringless t.ringless_armAll) (State.mem_of_ringless t.ringless_armAll)

theorem BeadGrown.values (h : BeadGrown s t n m) (hn : n < 65536) (hlt : s.beadValue n + m < 2 ^ 64) :
    t.beadValue n = s.beadValue n + m ∧ ∀ i, i < 65536 → i ≠ n → t.beadValue i = s.beadValue i :=
  State.beadValue_of_setReg hn hlt h.regs

theorem BeadGrown.keepsRegs (h : BeadGrown s t n m) (hn : n < 65536) : keepsRegs s t [Reg.beadValue] :=
  keepsRegs_of_setReg (by omega) h.regs

theorem State.beadAdd_taken (h : s.addCheck n m = .done) : ∃ t, s.beadAdd n m = (.done, t) ∧ BeadGrown s t n m := by
  obtain ⟨hregs, hmem, -⟩ := (s.setReg Reg.beadValue n (BitVec.ofNat 64 (s.beadValue n + m))).answerWaits_frame n
  exact ⟨_, State.beadAdd_of_done h, hregs, hmem⟩

theorem State.beadAdd_refused (h : s.addCheck n m ≠ .done) : s.beadAdd n m = (s.addCheck n m, s) := by
  unfold State.beadAdd
  split
  next hdone => exact absurd hdone h
  next => rfl

end

/-- The notice of a refused addition. -/
theorem State.tellRefused_told (s : State) (e : AddEnd) {c : Nat} (hc : c < 16) (unit vid phys amount : Nat) :
    Told s (s.tellRefused e c unit vid phys amount) := by
  unfold State.tellRefused
  split
  · exact s.raise_told _ (named_of_ctx rfl hc)
  · exact s.raise_told _ (named_of_ctx rfl hc)
  · exact .refl s

/-! ### An addition by the host (R374) -/

section
variable {s : State} {c v n m : Nat} (hm : m ≠ 0) (hv : (s.vid c v).1 = some n)
include hm hv

theorem State.hostAdd_of_mapped {t : State} {e : AddEnd} (h : (s.keepVid c v).beadAdd n m = (e, t)) :
    s.hostAdd c v m = if e = .done then t.armAll else t.tellRefused e c Unit.hub v n m := by
  unfold State.hostAdd
  rw [if_neg hm]
  split
  next hmap => rw [hmap] at hv; cases hv
  next hmap =>
    rw [hmap, Option.some.injEq] at hv
    simp only [hv, h]
    cases e <;> rfl

theorem State.hostAdd_taken (h : s.addCheck n m = .done) : BeadGrown s (s.hostAdd c v m) n m := by
  obtain ⟨hregs, hmem, -⟩ := s.keepVid_frame c v
  obtain ⟨t, ht, hgrown⟩ := State.beadAdd_taken ((s.addCheck_keepVid c v n m).trans h)
  rw [State.hostAdd_of_mapped hm hv ht, if_pos rfl]
  exact (hgrown.after hregs hmem).armAll

/-- A refused addition raises its notice and changes no bead and no ring (R364, R377). -/
theorem State.hostAdd_refused (hc : c < 16) (h : s.addCheck n m ≠ .done) :
    (∀ i, i < 65536 → (s.hostAdd c v m).beadValue i = s.beadValue i) ∧ (s.hostAdd c v m).rings = s.rings := by
  obtain ⟨hregs, -, hrings⟩ := s.keepVid_frame c v
  have hcheck := s.addCheck_keepVid c v n m
  have htold := (s.keepVid c v).tellRefused_told (s.addCheck n m) hc Unit.hub v n m
  have hadd := State.beadAdd_refused (s := s.keepVid c v) (hcheck ▸ h)
  rw [State.hostAdd_of_mapped hm hv (hadd.trans (by rw [hcheck])), if_neg h]
  exact ⟨fun i hi => congrArg BitVec.toNat ((htold.regs _ i (by omega) (by decide)).trans (State.reg_of_regs hregs _ _)),
    (htold.same State.rings fun _ => rfl).trans hrings⟩

end

/-! ### The attributes of a bead (R386, R390) -/

section
variable {s : State} {n : Nat}

theorem State.beadState_lt (s : State) (n : Nat) : s.beadState n < 4 := s.rd_lt F.beadAttr_STATE n

/-- A FREE bead takes STATE ACTIVE and no other. -/
theorem State.attrNext_of_free (h : s.beadState n = BeadSt.free) (v : Nat) :
    s.attrNext n v = if v = BeadSt.active then BeadSt.active else BeadSt.free := by
  simp [State.attrNext, h]

/-- A bead that is not FREE becomes FREE when asked and without a waiter, and keeps its state otherwise. -/
theorem State.attrNext_of_used (h : s.beadState n ≠ BeadSt.free) (v : Nat) :
    s.attrNext n v = if v = BeadSt.free ∧ s.waiters n = 0 then BeadSt.free else s.beadState n := by
  by_cases hv : v = BeadSt.free
  · simp [State.attrNext, h, hv]
  · simp [State.attrNext, h, hv]

theorem State.attrNext_lt (s : State) (n v : Nat) : s.attrNext n v < 4 := by
  have hlt := s.beadState_lt n
  by_cases h : s.beadState n = BeadSt.free
  · rw [State.attrNext_of_free h]
    split <;> decide
  · rw [State.attrNext_of_used h]
    split
    · decide
    · exact hlt

/-- The fields beside STATE that a write leaves. -/
def State.attrBase (s : State) (n v : Nat) : Nat :=
  if s.beadState n = BeadSt.free then setBits (s.reg Reg.beadAttr n).toNat 2 46 (bitsOf v 2 46)
  else (s.reg Reg.beadAttr n).toNat

theorem State.attrBase_lt (s : State) (n v : Nat) : s.attrBase n v < 2 ^ 64 := by
  unfold State.attrBase
  split
  · exact setBits_lt _ _ _ _ 64 (s.reg Reg.beadAttr n).isLt (by decide)
  · exact (s.reg Reg.beadAttr n).isLt

theorem State.attr_writeAttr (s : State) (n v : Nat) :
    ((s.writeAttr n v).reg Reg.beadAttr n).toNat = setBits (s.attrBase n v) 0 2 (s.attrNext n (bitsOf v 0 2)) := by
  unfold State.writeAttr
  dsimp only
  rw [State.reg_setReg_same, BitVec.toNat_ofNat]
  exact Nat.mod_eq_of_lt (setBits_lt _ _ _ _ 64 (s.attrBase_lt n v) (by decide))

theorem State.fields_writeAttr (s : State) (n v : Nat) :
    bitsOf ((s.writeAttr n v).reg Reg.beadAttr n).toNat 2 46 = bitsOf (s.attrBase n v) 2 46 := by
  rw [State.attr_writeAttr, bitsOf_setBits_other _ _ _ _ _ _ (by decide)]

theorem State.beadState_writeAttr (s : State) (n v : Nat) :
    (s.writeAttr n v).beadState n = s.attrNext n (bitsOf v 0 2) := by
  unfold State.beadState State.rd
  rw [State.attr_writeAttr, bitsOf_setBits_same]
  exact Nat.mod_eq_of_lt (s.attrNext_lt n _)

theorem bitsOf_attrBase_of_free (h : s.beadState n = BeadSt.free) (v : Nat) :
    bitsOf (s.attrBase n v) 2 46 = bitsOf v 2 46 := by
  rw [State.attrBase, if_pos h, bitsOf_setBits_same]
  exact Nat.mod_eq_of_lt (bitsOf_lt _ _ _)

end

/-! ### The map of a context (R366, R391) -/

theorem State.writeBeadMap_of_idle {s : State} {c : Nat} (hc : c < 16)
    (h : s.ctxState c = Ctx.idle ∨ s.ctxState c = Ctx.preempted) (v : Nat) :
    (s.writeBeadMap .pf0 c v).rd F.ctxBeadMap_VALID c = bitsOf v 0 1 ∧
    (s.writeBeadMap .pf0 c v).rd F.ctxBeadMap_ADDR c = bitsOf v 12 36 ∧
    (s.writeBeadMap .pf0 c v).mem = s.mem ∧ (s.writeBeadMap .pf0 c v).rings = s.rings ∧
    keepsRegs s (s.writeBeadMap .pf0 c v) [Reg.ctxBeadMap] := by
  unfold State.writeBeadMap
  rw [if_pos ⟨rfl, h⟩]
  have hvalid : keepsRegs s (s.wr F.ctxBeadMap_VALID c (bitsOf v 0 1)) [Reg.ctxBeadMap] := keepsRegs_of_setReg (by omega) rfl
  refine ⟨?_, ?_, rfl, rfl, hvalid.andThen (keepsRegs_of_setReg (by omega) rfl)⟩
  · exact (State.rd_wr_fld _ F.ctxBeadMap_ADDR F.ctxBeadMap_VALID c _ rfl (by decide) (by decide)).trans
      ((s.rd_wr_same F.ctxBeadMap_VALID c _ (by decide)).trans (Nat.mod_eq_of_lt (bitsOf_lt _ _ _)))
  · exact (State.rd_wr_same _ F.ctxBeadMap_ADDR c _ (by decide)).trans (Nat.mod_eq_of_lt (bitsOf_lt _ _ _))

/-! ### The obligation -/

theorem hostBeadAdd_leads {fn : Fn} {ctx : Fin 16} {vid : BitVec 14} {amount : BitVec 48} {s : State} {P : State → Prop}
    (hfn : Fn.reaches fn ctx.val = true) (h : P (s.hostAdd ctx.val vid.toNat amount.toNat)) :
    leads (.hostBeadAdd fn ctx vid amount) s P :=
  ⟨_, congrArg Host.Outcome.next (if_pos hfn), h⟩

/-- Settles O37: an addition by its check, a write of attributes field by field, and the map by the state of its context. -/
theorem beadsByHost : Obligations.BeadsByHost := by
  unfold Obligations.BeadsByHost
  refine ⟨fun fn ctx vid amount s hfn => ⟨?zero, fun n hne hv => ⟨fun hdone => ?taken, fun hrefused => ?refused⟩⟩,
    fun n v s => ?attributes, fun ctx v s hst => ?map, fun k ctx v s => ?vf⟩
  case zero =>
    rintro rfl
    exact congrArg Host.Outcome.next ((if_pos hfn).trans (if_pos rfl))
  case taken =>
    have hgrown := State.hostAdd_taken (fun h => hne (BitVec.eq_of_toNat_eq h)) hv hdone
    obtain ⟨hval, hother⟩ := hgrown.values (State.vid_lt hv) (State.lt_of_addCheck_done hdone)
    exact hostBeadAdd_leads hfn ⟨hval, hother, hgrown.mem, hgrown.keepsRegs (State.vid_lt hv)⟩
  case refused =>
    exact hostBeadAdd_leads hfn (State.hostAdd_refused (fun h => hne (BitVec.eq_of_toNat_eq h)) hv ctx.isLt hrefused)
  case attributes =>
    have hkeeps : keepsRegs s (s.writeAttr n.toNat v.toNat) [Reg.beadAttr] := keepsRegs_of_setReg (by omega) rfl
    refine ⟨_, rfl, fun hfree => ⟨?_, ?_⟩, fun hused => ⟨?_, ?_⟩, fun m hm hne => ?_, rfl, rfl, hkeeps⟩
    · exact (s.fields_writeAttr _ _).trans (bitsOf_attrBase_of_free hfree _)
    · exact (s.beadState_writeAttr _ _).trans (State.attrNext_of_free hfree _)
    · rw [State.fields_writeAttr, State.attrBase, if_neg hused]
    · exact (s.beadState_writeAttr _ _).trans (State.attrNext_of_used hused _)
    · exact State.reg_setReg_other s _ (by rw [Ne, regKey_inj (by omega) (by omega)]; exact fun h => hne h.2)
  case map => exact ⟨_, rfl, State.writeBeadMap_of_idle ctx.isLt hst _⟩
  case vf => exact congrArg Host.Outcome.next (if_neg fun h => nomatch h.1)

end Sys2Proof.Machine
end

section
/-!
The completion of a command (R371, R372): its SIGNAL, its report in the queue of its ring, by interrupt and in CTX_FLAGS, and
its leaving the ring.
-/
namespace Sys2Proof.Machine

/-- An update that may be left out. -/
theorem keepsRegs.ite {s t : State} {l : List Nat} (h : keepsRegs s t l) {p : Prop} [Decidable p] :
    keepsRegs s (if p then t else s) l := by
  split
  · exact h
  · exact fun _ _ _ _ => rfl

/-! ### A packet put into a queue (R401, R407) -/

theorem Told.raises {s : State} {l : List Ntc} (h : ∀ n ∈ l, n.named) : Told s (l.foldl State.raise s) :=
  List.foldlRecOn (motive := fun t : State => Told s t) l _ (.refl s) fun t ht n hn => ht.trans (t.raise_told n (h n hn))

theorem Told.quePut_raises (s : State) {q : Nat} (hq : q < 1048576) (prio : Nat) (ents : List (List Byte)) (producer : Nat) :
    Told s ((s.quePut q prio ents producer).2.2.foldl State.raise (s.quePut q prio ents producer).2.1) :=
  have ⟨hput, hnamed⟩ := Told.quePut s q prio ents producer hq
  hput.trans (.raises hnamed)

theorem Told.quePointers (s : State) {q : Nat} (hq : q < 1048576) : Told s (s.quePointers q).2 := by
  have hdrawn : Told s { s with nfree := s.nfree + 1 } := .of_eq rfl rfl id id id
  unfold State.quePointers State.ptrsDiffer
  cases Config.ptrMismatch s.nfree with
  | false => exact hdrawn
  | true =>
    obtain ⟨hreset, hnamed⟩ := Told.queReset { s with nfree := s.nfree + 1 } q hq
    exact (hdrawn.trans hreset).trans (State.raise_told _ _ hnamed)

theorem Told.enqueue (s : State) {q : Nat} (hq : q < 1048576) (prio : Nat) (ents : List (List Byte)) (producer : Nat) :
    Told s (s.enqueue q prio ents producer).2 := by
  have hp := Told.quePointers s hq
  unfold State.enqueue
  split
  · exact .quePut_raises s hq prio ents producer
  · split
    next h => rw [h] at hp; exact hp
    next h => rw [h] at hp; exact hp.trans (.quePut_raises _ hq prio ents producer)

/-! ### The report of a completed command (R71, R372, R395) -/

theorem State.keepsRegs_stickyFlags (s : State) {c : Nat} (hc : c < 16) (k : Nat) (x : Cmd) :
    keepsRegs s (s.stickyFlags c k x) (Reg.ctxFlags :: toldRegs) := by
  have hflags : keepsRegs s (s.wr F.ctxFlags_FLAGS c (s.rd F.ctxFlags_FLAGS c ||| x.flags)) [Reg.ctxFlags] :=
    keepsRegs_of_setReg (by omega) rfl
  have htold : ∀ l : List Nat, ∀ f : State → Nat → Ntc, (∀ t i, (f t i).named) → ∀ u : State,
      Told u (l.foldl (fun t i => t.raise (f t i)) u) := fun l f hf u =>
    List.foldlRecOn (motive := fun t : State => Told u t) l _ (.refl u) fun t ht i _ => ht.trans (t.raise_told _ (hf t i))
  exact hflags.trans (htold _ _ (fun _ _ => named_of_ctx rfl hc) _).regs

/-- What of a completion follows the record: its copy in the completion queue of the ring, the interrupt, and the flags. -/
def State.reported (s : State) (k : Nat) (x : Cmd) (status : Nat) : State :=
  let rcd := s.completionRecord k x status
  let q := s.rd F.ctxRingCfg_COMPL_QUEUE k
  let s := if q ≥ 17 then (s.enqueue q 1 [rcd] 1).2 else s
  let s := if x.notify then s.interrupt (ctxVector (k / 64) (s.rd F.ctxRingCfg_VECTOR k)) else s
  if x.sticky then s.stickyFlags (k / 64) k x else s

theorem State.keepsRegs_reported (s : State) {k : Nat} (hk : k < 1024) (x : Cmd) (status : Nat) :
    keepsRegs s (s.reported k x status) (Reg.ctxFlags :: toldRegs) := by
  have hq : s.rd F.ctxRingCfg_COMPL_QUEUE k < 2 ^ 8 := s.rd_lt F.ctxRingCfg_COMPL_QUEUE k
  have htold : ∀ {u v : State}, Told u v → keepsRegs u v (Reg.ctxFlags :: toldRegs) := fun h =>
    keepsRegs.mono h.regs (List.subset_cons_self _ _)
  have hqueue := htold (.enqueue s (q := s.rd F.ctxRingCfg_COMPL_QUEUE k) (by omega) 1 [s.completionRecord k x status] 1)
  have hinterrupt := fun u : State => htold (.interrupt u (ctxVector (k / 64) (u.rd F.ctxRingCfg_VECTOR k)))
  have hflags := fun u : State => u.keepsRegs_stickyFlags (by omega : k / 64 < 16) k x
  unfold State.reported
  dsimp only
  exact (hqueue.ite.andThen (hinterrupt _).ite).andThen (hflags _).ite

/-! ### A command leaves its ring (R326, R579) -/

theorem State.keepsRegs_dropCmd (s : State) {k : Nat} (hk : k < 1024) (n : Nat) :
    keepsRegs s (s.dropCmd k n) [Reg.ctxRingCtrl, Reg.ctxState] := by
  have hidle : ∀ u : State, keepsRegs u (u.wr F.ctxRingCtrl_IDLE k 1) [Reg.ctxRingCtrl, Reg.ctxState] := fun u =>
    (keepsRegs_of_setReg (by omega) rfl).mono (by decide)
  have hctx : ∀ u : State, keepsRegs u (u.wr F.ctxState_STATE (k / 64) Ctx.idle) [Reg.ctxRingCtrl, Reg.ctxState] := fun u =>
    (keepsRegs_of_setReg (by omega) rfl).mono (by decide)
  have hring : ∀ r : Ring, keepsRegs s (s.setRing k r) [Reg.ctxRingCtrl, Reg.ctxState] := fun _ _ _ _ _ => rfl
  exact ((hring _).andThen (hidle _).ite).andThen (hctx _).ite

theorem State.rings_ite_wr (s : State) (p : Prop) [Decidable p] (f : Fld) (i v : Nat) :
    (if p then s.wr f i v else s).rings = s.rings := by
  split <;> rfl

theorem State.cmds_dropCmd (s : State) (k n : Nat) :
    ((s.dropCmd k n).ring k).cmds = (s.ring k).cmds.filter (fun x => x.count != n) := by
  have hrings : (s.dropCmd k n).rings = _ := (State.rings_ite_wr _ _ _ _ _).trans (State.rings_ite_wr _ _ _ _ _)
  unfold State.ring at hrings ⊢
  rw [hrings]
  exact congrArg Ring.cmds (State.ring_setRing_same s k _)

/-- Arming leaves the record counts of a ring's commands. -/
theorem State.counts_armList (s : State) (k : Nat) (l : List Cmd) (seen : List Nat) :
    (s.armList k l seen).map Cmd.count = l.map Cmd.count := by
  induction l generalizing seen with
  | nil => rfl
  | cons x l ih =>
    have harm : (if x.armed then x else s.arm (k / 64) x).count = x.count := by
      split
      · rfl
      · exact s.count_arm _ x
    rw [State.armList]
    split
    · simp only [List.map_cons, ih]
    · dsimp only
      generalize (if x.armed then x else s.arm (k / 64) x) = y at harm
      split <;> simp only [List.map_cons, ih, ← harm, Cmd.endWith]

theorem State.counts_armRing (s : State) (k : Nat) :
    ((s.armRing k).ring k).cmds.map Cmd.count = (s.ring k).cmds.map Cmd.count := by
  unfold State.armRing
  dsimp only
  split
  · rw [State.ring_setRing_same]
    exact s.counts_armList k _ []
  · rfl

theorem State.not_mem_of_dropped (s : State) (k n : Nat) {y : Cmd} (hy : y ∈ (((s.dropCmd k n).armRing k).ring k).cmds) :
    y.count ≠ n := by
  have hmem := List.mem_map_of_mem (f := Cmd.count) hy
  rw [State.counts_armRing, State.cmds_dropCmd] at hmem
  obtain ⟨z, hz, hcount⟩ := List.mem_map.mp hmem
  have hne := (List.mem_filter.mp hz).2
  rw [← hcount]
  simpa using hne

/-! ### The SIGNAL (R371) -/

section
variable {s : State} {k n : Nat} {x : Cmd}

theorem State.addSignal_of_bead (hfetch : x.atFetch = false) (hfmt : x.fmt = 4) (hsig : signals x.opcode x.status = true)
    (hm : x.signal / 65536 ≠ 0) (hv : (s.vid (k / 64) (x.signal % 65536)).1 = some n)
    (hc : s.addCheck n (x.signal / 65536) = .done) : BeadGrown s (s.addSignal k x).2 n (x.signal / 65536) := by
  obtain ⟨t, ht, hgrown⟩ := State.beadAdd_taken hc
  have hadd : s.addSignal k x = (x.status, t) := by
    unfold State.addSignal
    rw [if_neg (by simp [hfetch, hsig]), if_neg (by simp [hfmt]), if_neg hm]
    simp only [hv, ht]
  rw [hadd]
  exact hgrown

end

/-! ### The obligation -/

theorem State.writeCompletion_unwritten (s : State) (k : Nat) (x : Cmd) : s.writeCompletion k x none =
    (((s.addSignal k x).2.reported k x (s.addSignal k x).1).dropCmd k x.count).armRing k := rfl

theorem State.keepsRegs_writeCompletion (s : State) {k : Nat} (hk : k < 1024) (x : Cmd) :
    keepsRegs (s.addSignal k x).2 (s.writeCompletion k x none)
      ((Reg.ctxFlags :: toldRegs) ++ [Reg.ctxRingCtrl, Reg.ctxState]) := by
  rw [State.writeCompletion_unwritten]
  exact fun r i hi hr => (State.reg_of_regs (State.regs_armRing _ k) r i).trans
    (((State.keepsRegs_reported _ hk x _).trans (State.keepsRegs_dropCmd _ hk x.count)) r i hi hr)

/-- Settles O34: the record count has left the ring, and the signal's addition stands behind all that the report writes. -/
theorem completions : Obligations.Completions := by
  unfold Obligations.Completions
  intro id s x hx hcompletes hended hloan hstall haddr
  have hexec : exec (.commandComplete id) s = .next (s.writeCompletion (CmdKey id) x none) := by
    show execCommandComplete id s = _
    simp only [execCommandComplete, hx, hcompletes, hended, hloan, hstall, State.complete, haddr, Option.isNone_none,
      and_self, if_true]
  refine ⟨_, hexec, fun y hy => State.not_mem_of_dropped _ _ _ hy, fun hfetch hfmt hsig hm n hv hc => ?_⟩
  have hgrown := State.addSignal_of_bead hfetch hfmt hsig hm ((CmdKey_div id).symm ▸ hv) hc
  have hn := State.vid_lt hv
  have hkept := s.keepsRegs_writeCompletion (CmdKey_lt id) x Reg.beadValue n (by omega) (by decide)
  exact (congrArg BitVec.toNat hkept).trans (hgrown.values hn (State.lt_of_addCheck_done hc)).1

end Sys2Proof.Machine
end

section
/-!
The expiry of a wait on a bead or on a peg (R382, R383, R389): the entry of CTX_BEAD_LOG, the end of the command, and the
stop of its ring.
-/
namespace Sys2Proof.Machine

/-! ### A ring stops (R582) -/

/-- The ring with its stop, but for the notice. -/
def State.ringStopped (s : State) (k cause : Nat) : State := (s.wr F.ctxRingCtrl_STOPPED k 1).wr F.ctxRingCtrl_CAUSE k cause

section
variable {s : State} {k : Nat} (hk : k < 1024) (cause n : Nat)
include hk

theorem State.ringStop_told : Told (s.ringStopped k cause) (s.ringStop k cause n) :=
  State.raise_told _ _ (named_of_ctx rfl (by omega : k / 64 < 16))

theorem State.keepsRegs_ringStopped : keepsRegs s (s.ringStopped k cause) [Reg.ctxRingCtrl] :=
  (keepsRegs_of_setReg (by omega) rfl).andThen (keepsRegs_of_setReg (by omega) rfl)

theorem State.keepsRegs_ringStop : keepsRegs s (s.ringStop k cause n) (Reg.ctxRingCtrl :: toldRegs) :=
  (State.keepsRegs_ringStopped hk cause).trans (State.ringStop_told hk cause n).regs

theorem State.stopped_ringStop : (s.ringStop k cause n).rd F.ctxRingCtrl_STOPPED k = 1 :=
  ((State.ringStop_told hk cause n).rd F.ctxRingCtrl_STOPPED k (by omega) (by decide)).trans
    ((State.rd_wr_fld _ F.ctxRingCtrl_CAUSE F.ctxRingCtrl_STOPPED k cause rfl (by decide) (by decide)).trans
      (s.rd_wr_same F.ctxRingCtrl_STOPPED k 1 (by decide)))

theorem State.memories_ringStop (hq : s.quietQueues) : (s.ringStop k cause n).memories = s.memories :=
  State.memories_raise (s := s.ringStopped k cause)
    (fun q hlt => ((State.keepsRegs_ringStopped hk cause).rd F.queNotify_MODE (i := q) (by omega) (by decide)).trans_ne (hq q hlt))
    (named_of_ctx rfl (by omega : k / 64 < 16))

end

/-- A ring stops at a timeout where its context asks for it and it has not stopped before (R383). -/
def State.stopOnTimeout (s : State) (k n : Nat) : State :=
  if s.flag F.ctxBeadCfg_STOP_ON_TIMEOUT (k / 64) ∧ !s.flag F.ctxRingCtrl_STOPPED k then s.ringStop k StopCause.timeout n else s

section
variable {s : State} {k : Nat} (hk : k < 1024) (n : Nat)

theorem State.stopOnTimeout_of_not_asked (h : s.flag F.ctxBeadCfg_STOP_ON_TIMEOUT (k / 64) = false) : s.stopOnTimeout k n = s :=
  if_neg (by simp [h])

theorem State.stopOnTimeout_cases (s : State) (k n : Nat) :
    s.stopOnTimeout k n = s ∨ s.stopOnTimeout k n = s.ringStop k StopCause.timeout n := by
  unfold State.stopOnTimeout
  split
  · exact .inr rfl
  · exact .inl rfl

include hk

theorem State.stopped_stopOnTimeout (h : s.flag F.ctxBeadCfg_STOP_ON_TIMEOUT (k / 64) = true) :
    (s.stopOnTimeout k n).rd F.ctxRingCtrl_STOPPED k = 1 := by
  unfold State.stopOnTimeout
  split
  · exact State.stopped_ringStop hk _ n
  next hstopped =>
    rw [h] at hstopped
    simpa [State.flag] using hstopped

theorem State.keepsRegs_stopOnTimeout : keepsRegs s (s.stopOnTimeout k n) (Reg.ctxRingCtrl :: toldRegs) := by
  rcases s.stopOnTimeout_cases k n with h | h <;> rw [h]
  · exact fun _ _ _ _ => rfl
  · exact State.keepsRegs_ringStop hk _ n

theorem State.stopOnTimeout_frame : (s.stopOnTimeout k n).rings = s.rings ∧ (s.stopOnTimeout k n).conns = s.conns ∧
    (s.quietQueues → (s.stopOnTimeout k n).memories = s.memories) := by
  rcases s.stopOnTimeout_cases k n with h | h <;> rw [h]
  · exact ⟨rfl, rfl, fun _ => rfl⟩
  · have htold := State.ringStop_told (s := s) hk StopCause.timeout n
    exact ⟨htold.same State.rings fun _ => rfl, htold.same State.conns fun _ => rfl, State.memories_ringStop hk _ n⟩

end

/-! ### The end of a wait that has expired (R382) -/

/-- The command with the status of an expired wait. -/
def State.waitEnded (s : State) (k : Nat) (x : Cmd) (unit : Nat) : State :=
  s.updCmd k x.count (fun y =>
    { y.endWith St.beadTimeout s.time with unit := unit, start := if y.phase = Phase.fetched then s.time else y.start })

/-- The notice of an expired wait, the end of its command, and the stop of its ring. -/
def State.expire (s : State) (k : Nat) (x : Cmd) (n : Ntc) (unit : Nat) : State :=
  (((s.raise n).waitEnded k x unit).stopOnTimeout k x.count).armRing k

/-- What an expiry leaves: its command has ended BEAD_TIMEOUT, and the ring has stopped where the context asks for it. -/
structure Expired (s t : State) (k : Nat) (x : Cmd) : Prop where
  ended : ∃ y, t.unitCmd k x.count = some y ∧ y.phase = .ended ∧ y.status = St.beadTimeout ∧ y.record = x.record
  regs : keepsRegs s t (Reg.ctxRingCtrl :: toldRegs)
  stopped : s.flag F.ctxBeadCfg_STOP_ON_TIMEOUT (k / 64) = true → t.rd F.ctxRingCtrl_STOPPED k = 1
  running : s.flag F.ctxBeadCfg_STOP_ON_TIMEOUT (k / 64) = false → t.rd F.ctxRingCtrl_STOPPED k = s.rd F.ctxRingCtrl_STOPPED k
  memories : s.quietQueues → t.memories = s.memories
  conns : t.conns = s.conns

theorem State.flag_of_keepsRegs {s t : State} {l : List Nat} (h : keepsRegs s t l) (f : Fld) {i : Nat} (hi : i < 1048576)
    (hf : f.reg ∉ l) : t.flag f i = s.flag f i := by
  unfold State.flag
  rw [h.rd f hi hf]

theorem State.expire_spec {s : State} {k : Nat} {x : Cmd} {n : Ntc} (hk : k < 1024) (hx : s.unitCmd k x.count = some x)
    (hn : n.ctx = some (k / 64)) (unit : Nat) : Expired s (s.expire k x n unit) k x := by
  have hnamed : n.named := named_of_ctx hn (by omega)
  have htold := s.raise_told n hnamed
  have hmem := State.memories_raise (s := s) (n := n)
  have hquiet := State.quietQueues_of_told htold
  unfold State.expire
  generalize s.raise n = t at htold hmem hquiet
  have hended := State.unitCmd_updCmd (s := t) (f := fun y => { y.endWith St.beadTimeout t.time with
    unit := unit, start := if y.phase = Phase.fetched then t.time else y.start })
    ((State.unitCmd_of_rings (htold.same State.rings fun _ => rfl) k x.count).trans hx) fun _ h => h
  have hasked : (t.waitEnded k x unit).flag F.ctxBeadCfg_STOP_ON_TIMEOUT (k / 64) = s.flag F.ctxBeadCfg_STOP_ON_TIMEOUT (k / 64) :=
    State.flag_of_keepsRegs htold.regs _ (by omega) (by decide)
  have hregs := State.keepsRegs_stopOnTimeout (s := t.waitEnded k x unit) hk x.count
  obtain ⟨hrings, hconns, hmems⟩ := State.stopOnTimeout_frame (s := t.waitEnded k x unit) hk x.count
  have hstop := State.stopped_stopOnTimeout (s := t.waitEnded k x unit) hk x.count
  have hrun := State.stopOnTimeout_of_not_asked (s := t.waitEnded k x unit) (k := k) x.count
  have hframe := ((t.waitEnded k x unit).stopOnTimeout k x.count).ringless_armRing k
  have harm : ∀ f i, _ := State.rd_of_regs (State.regs_of_ringless hframe)
  constructor
  case ended =>
    exact ⟨_, State.unitCmd_armRing ((State.unitCmd_of_rings hrings k x.count).trans hended) (by simp [Cmd.endWith]) k,
      rfl, rfl, rfl⟩
  case regs =>
    exact fun r i hi hr => (State.reg_of_regs (State.regs_of_ringless hframe) r i).trans
      ((hregs r i hi hr).trans (htold.regs r i hi fun h => hr (List.mem_cons_of_mem _ h)))
  case stopped => exact fun h => (harm _ _).trans (hstop (hasked.trans h))
  case running =>
    intro h
    rw [harm, hrun (hasked.trans h)]
    exact htold.rd F.ctxRingCtrl_STOPPED k (by omega) (by decide)
  case memories =>
    exact fun hq => (congrArg State.memories hframe :).trans ((hmems (hquiet hq)).trans (hmem hq hnamed))
  case conns => exact (congrArg State.conns hframe :).trans (hconns.trans (htold.same State.conns fun _ => rfl))

/-! ### The log of bead waits (R383) -/

/-- VID, WAIT and PHYS of an entry of the log. -/
def State.expiryArg (s : State) (c : Nat) (x : Cmd) : Nat :=
  (s.expiring c x).2.1 % 2 ^ 14 + (s.expiring c x).1 * 2 ^ 14 + (s.expiring c x).2.2.getD 0xFFFF * 65536

theorem State.expiryArg_lt (s : State) (c : Nat) (x : Cmd) : s.expiryArg c x < 2 ^ 32 := by
  have hwait : (s.expiring c x).1 ≤ 2 := by
    unfold State.expiring
    split
    · dsimp only
      split <;> decide
    · split <;> exact Nat.le_refl 2
  have hphys : (s.expiring c x).2.2.getD 0xFFFF < 65536 := by
    have hvid : ∀ v, (s.vid c v).1.getD 0xFFFF < 65536 := fun v => by
      cases h : (s.vid c v).1 with
      | none => decide
      | some n => exact State.vid_lt h
    unfold State.expiring
    split
    · exact hvid _
    · split
      · exact (by decide : (0xFFFF : Nat) < 65536)
      · exact hvid _
  unfold State.expiryArg
  omega

/-- The word of CTX_BEAD_LOG: what has expired, the ring, the command index, and VALID. -/
def logWord (a k index : Nat) : Nat := a + (k % 64) <<< 32 + index <<< 38 + 1 <<< 63

theorem valid_logWord {a index : Nat} (ha : a < 2 ^ 32) (k : Nat) (hi : index < 2 ^ 16) :
    bitsOf (BitVec.ofNat 64 (logWord a k index)).toNat 63 1 = 1 := by
  unfold bitsOf logWord
  simp only [BitVec.toNat_ofNat, Nat.shiftLeft_eq, Nat.shiftRight_eq_div_pow]
  omega

/-- The first expiry of a context is kept with its value, and a later one is not (R383). -/
def State.beadLogged (s : State) (c word seen : Nat) : State :=
  if s.flag F.ctxBeadLog_VALID c then s
  else (s.setReg Reg.ctxBeadLog c (BitVec.ofNat 64 word)).setReg Reg.ctxBeadSeen c (BitVec.ofNat 64 seen)

section
variable {s : State} {c : Nat} (word seen : Nat)

theorem State.beadLogged_of_valid (h : s.flag F.ctxBeadLog_VALID c = true) : s.beadLogged c word seen = s := if_pos h

theorem State.valid_beadLogged (hc : c < 16) (h : bitsOf (BitVec.ofNat 64 word).toNat 63 1 = 1) :
    (s.beadLogged c word seen).rd F.ctxBeadLog_VALID c = 1 := by
  unfold State.beadLogged
  split
  next hvalid => simpa [State.flag] using hvalid
  · unfold State.rd
    rw [State.reg_setReg_other _ _ (by rw [Ne, regKey_inj (by omega) (by omega)]; exact fun h => absurd h.1 (by decide)),
      State.reg_setReg_same]
    exact h

theorem State.beadLogged_frame (hc : c < 16) : keepsRegs s (s.beadLogged c word seen) [Reg.ctxBeadLog, Reg.ctxBeadSeen] ∧
    (s.beadLogged c word seen).rings = s.rings ∧ (s.beadLogged c word seen).conns = s.conns ∧
    (s.beadLogged c word seen).memories = s.memories := by
  unfold State.beadLogged
  split
  · exact ⟨fun _ _ _ _ => rfl, rfl, rfl, rfl⟩
  · exact ⟨(keepsRegs_of_setReg (by omega) rfl).trans (keepsRegs_of_setReg (by omega) rfl), rfl, rfl, rfl⟩

end

/-! ### The two expiries -/

/-- The notice of an expired wait. -/
def timeoutNtc (code c unit ctrl a1 a2 a3 : Nat) : Ntc :=
  { code := code, sev := Sev.error, ctx := some c, data := unit, ctrl := ctrl, a1 := a1, a2 := a2, a3 := a3 }

/-- The value that an expired bead wait reports: the last one told of a remote bead, or that of the bead. -/
def State.expirySeen (s : State) (c : Nat) (x : Cmd) : Nat :=
  if x.opcode = 0x0071 ∧ x.phase = .waiting then x.aux.getD 2 0 else ((s.expiring c x).2.2.map s.beadValue).getD 0

/-- The unit that an expired bead wait reports. -/
def State.expiryUnit (s : State) (k : Nat) (x : Cmd) : Nat :=
  if x.opcode = 0x0071 ∧ x.phase = .waiting then Unit.hub else Unit.die (s.fetchDie k)

/-- The two sides differ in names alone. The logged state is generalised before they are compared, so that nothing of the
notice is evaluated. -/
theorem State.beadExpiry_eq (s : State) (k : Nat) (x : Cmd) : s.beadExpiry k x =
    let a1 := s.expiryArg (k / 64) x
    let seen := s.expirySeen (k / 64) x
    let unit := s.expiryUnit k x
    let t := s.beadLogged (k / 64) (logWord a1 k (s.cmdIndex k x.count)) seen
    t.expire k x (timeoutNtc 0x0501 (k / 64) unit (unitPath unit) a1 (t.ringIndexArg k x.count) (seen % 2 ^ 32)) unit := by
  unfold State.beadExpiry
  dsimp only [State.expiryArg, State.expirySeen, State.expiryUnit, logWord]
  generalize s.expiring (k / 64) x = e
  have hlogged : ∀ word seen, (if s.flag F.ctxBeadLog_VALID (k / 64) = true then s else (s.setReg Reg.ctxBeadLog (k / 64)
      (BitVec.ofNat 64 word)).setReg Reg.ctxBeadSeen (k / 64) (BitVec.ofNat 64 seen)) = s.beadLogged (k / 64) word seen :=
    fun _ _ => rfl
  rw [hlogged]
  generalize s.beadLogged _ _ _ = t
  unfold State.expire State.stopOnTimeout State.waitEnded timeoutNtc
  with_reducible rfl

theorem State.pegExpiry_eq (s : State) (k : Nat) (x : Cmd) : ∃ peg a2 want, s.pegExpiry k x =
    s.expire k x (timeoutNtc 0x0506 (k / 64) (Unit.die (s.fetchDie k)) (Path.bar (s.fetchDie k)) peg a2 want)
      (Unit.die (s.fetchDie k)) := by
  unfold State.pegExpiry
  dsimp only
  split <;> exact ⟨_, _, _, rfl⟩

/-- An expiry of a bead wait in two stretches: the entry of the log, and the end of the wait. -/
theorem State.beadExpiry_spec {s : State} {k : Nat} {x : Cmd} (hk : k < 1024) (hx : s.unitCmd k x.count = some x)
    (hlog : s.rd F.ctxRingCfg_LOG2 k ≤ 16) : ∃ word seen, bitsOf (BitVec.ofNat 64 word).toNat 63 1 = 1 ∧
      Expired (s.beadLogged (k / 64) word seen) (s.beadExpiry k x) k x := by
  have hindex : s.cmdIndex k x.count < 2 ^ 16 :=
    Nat.lt_of_lt_of_le (Nat.mod_lt _ (Nat.two_pow_pos _)) (Nat.pow_le_pow_right (by decide) hlog)
  have hword := valid_logWord (s.expiryArg_lt (k / 64) x) k hindex
  obtain ⟨-, hrings, -, -⟩ := State.beadLogged_frame (s := s) (c := k / 64)
    (logWord (s.expiryArg (k / 64) x) k (s.cmdIndex k x.count)) (s.expirySeen (k / 64) x) (by omega)
  refine ⟨_, s.expirySeen (k / 64) x, hword, ?_⟩
  rw [State.beadExpiry_eq]
  exact State.expire_spec hk ((State.unitCmd_of_rings hrings _ _).trans hx) rfl _

theorem State.pegExpiry_spec {s : State} {k : Nat} {x : Cmd} (hk : k < 1024) (hx : s.unitCmd k x.count = some x) :
    Expired s (s.pegExpiry k x) k x := by
  obtain ⟨peg, a2, want, heq⟩ := s.pegExpiry_eq k x
  rw [heq]
  exact State.expire_spec hk hx rfl _

/-! ### The obligation -/

/-- What an expiry leaves of the state before the entry of the log. -/
theorem Expired.frame_of_logged {s u t : State} {id : CmdId} {x : Cmd} (h : Expired u t (CmdKey id) x)
    (hregs : keepsRegs s u [Reg.ctxBeadLog, Reg.ctxBeadSeen]) (hconns : u.conns = s.conns) (hmem : u.memories = s.memories) :
    (s.flag F.ctxBeadCfg_STOP_ON_TIMEOUT id.ctx.val = true → t.rd F.ctxRingCtrl_STOPPED (CmdKey id) = 1) ∧
    (s.flag F.ctxBeadCfg_STOP_ON_TIMEOUT id.ctx.val = false →
      t.rd F.ctxRingCtrl_STOPPED (CmdKey id) = s.rd F.ctxRingCtrl_STOPPED (CmdKey id)) ∧
    (s.quietQueues → t.mem = s.mem ∧ t.ecc = s.ecc) ∧ t.conns = s.conns := by
  have hk := CmdKey_lt id
  have hasked : u.flag F.ctxBeadCfg_STOP_ON_TIMEOUT (CmdKey id / 64) = s.flag F.ctxBeadCfg_STOP_ON_TIMEOUT (CmdKey id / 64) :=
    State.flag_of_keepsRegs hregs _ (by omega) (by decide)
  rw [← CmdKey_div id]
  refine ⟨fun h' => h.stopped (hasked.trans h'), fun h' => (h.running (hasked.trans h')).trans
    (hregs.rd F.ctxRingCtrl_STOPPED (by omega) (by decide)), fun hq => ?_, h.conns.trans hconns⟩
  have hquiet : u.quietQueues := fun q hlt => (hregs.rd F.queNotify_MODE (i := q) (by omega) (by decide)).trans_ne (hq q hlt)
  have hmems := (h.memories hquiet).trans hmem
  exact ⟨State.mem_of_memories hmems, State.ecc_of_memories hmems⟩

/-- Settles O36: both expiries end alike, that of a bead after its entry of the log. -/
theorem waitExpiries : Obligations.WaitExpiries := by
  unfold Obligations.WaitExpiries
  intro c bead id s x hx hwait hlimit hlog
  have hctx := id.ctx.isLt
  have hcount : x.count = id.count.toNat := State.count_of_unitCmd hx
  have hunit : s.unitCmd (CmdKey id) x.count = some x := hcount ▸ hx
  simp only [State.cmd_eq_unitCmd, ← hcount]
  rcases hwait with ⟨rfl, rfl, hawaits⟩ | ⟨rfl, rfl, hawaits⟩
  case inl =>
    have hexec : exec (.beadWaitExpiry id) s = .next (s.beadExpiry (CmdKey id) x) := by
      show execBeadWaitExpiry id s = _
      simp only [execBeadWaitExpiry, hx, hawaits, ge_iff_le, hlimit, and_self, if_true]
    obtain ⟨word, seen, hword, hexp⟩ := State.beadExpiry_spec (CmdKey_lt id) hunit hlog
    rw [CmdKey_div] at hexp
    obtain ⟨hregs, -, hconns, hmem⟩ := State.beadLogged_frame (s := s) word seen hctx
    have hkept := hexp.regs Reg.ctxBeadLog id.ctx.val (by omega) (by decide)
    refine ⟨_, hexec, hexp.ended, ?valid, fun hvalid => ?first, hexp.frame_of_logged hregs hconns hmem⟩
    case valid =>
      exact (hexp.regs.rd F.ctxBeadLog_VALID (by omega) (by decide)).trans (State.valid_beadLogged word seen hctx hword)
    case first => rw [hkept, State.beadLogged_of_valid word seen hvalid]
  case inr =>
    have hexec : exec (.pegWaitExpiry id) s = .next (s.pegExpiry (CmdKey id) x) := by
      show execPegWaitExpiry id s = _
      simp only [execPegWaitExpiry, hx, hawaits, ge_iff_le, hlimit, and_self, if_true]
    have hexp := State.pegExpiry_spec (CmdKey_lt id) hunit
    exact ⟨_, hexec, hexp.ended, hexp.regs.rd F.ctxBeadLog_VALID (by omega) (by decide),
      fun _ => hexp.regs Reg.ctxBeadLog id.ctx.val (by omega) (by decide),
      hexp.frame_of_logged (fun _ _ _ _ => rfl) rfl rfl⟩

end Sys2Proof.Machine
end

section
/-!
What a peer answers, asks and sends (R379, R380, R454, R467), the doorbells of job controllers (R580), and the end of the
wait for a connection (R620).
-/
namespace Sys2Proof.Machine

/-! ### The end of a command in flight -/

/-- Command `n` of ring `k` has ended with a status, its record unchanged, and registers and memory stand. -/
def EndedWith (s t : State) (k : Nat) (x : Cmd) (st : Nat) : Prop :=
  (∃ y, t.cmdAt k x.count = some y ∧ y.phase = .ended ∧ y.status = st ∧ y.record = x.record) ∧ t.regs = s.regs ∧ t.mem = s.mem

section
variable {s : State} {k : Nat} {x : Cmd} (hx : s.cmdAt k x.count = some x) (hl : x.lost = []) (hs : x.seeds = [])
include hx hl hs

theorem State.endedWith_endCmd (own : Nat) : EndedWith s (s.endCmd k x own) k x (x.outcome own) := by
  obtain ⟨u, m, he⟩ := s.endCmd_of_lossless k hl hs own
  have hframe : (s.endCmd k x own).ringless = ({ s with nfree := m } : State).ringless := by
    rw [he, State.ringless_finishCmd]
    rfl
  have hnamed := State.unitCmd_updCmd (s := { s with nfree := m }) (f := fun y => { y with unit := u, lossTold := true }) hx
    fun _ h => h
  have hended := State.unitCmd_armRing
    (State.unitCmd_updCmd (f := fun y => y.endWith (x.outcome own) s.time) hnamed fun _ h => h) (by simp [Cmd.endWith]) k
  have hcmd : (s.endCmd k x own).cmdAt k x.count = _ := (congrArg (fun t => t.unitCmd k x.count) he).trans hended
  exact ⟨⟨_, hcmd, rfl, rfl, rfl⟩, (State.regs_of_ringless hframe :),
    (State.mem_of_ringless hframe :)⟩

theorem State.endedWith_endOut (hp : x.phase ≠ .ended) (st : Nat) :
    EndedWith s (s.endOut k x.count st) k x (x.fatal.getD st) := by
  obtain ⟨hended, m, hframe⟩ := State.endOut_spec hx hp hl hs st
  exact ⟨hended, (State.regs_of_ringless hframe :), (State.mem_of_ringless hframe :)⟩

end

/-! ### Replies to a REMOTE_BEAD (R379, R380) -/

theorem State.waiting_of_waiterOf {s : State} {conn q k : Nat} {x : Cmd} (h : s.waiterOf conn q = some (k, x)) :
    x.phase = .waiting := by
  obtain ⟨e, -, he⟩ := List.mem_flatMap.mp (List.mem_of_head? h)
  obtain ⟨y, hy, hyx⟩ := List.mem_map.mp he
  obtain rfl : y = x := congrArg Prod.snd hyx
  have hall := (List.mem_filter.mp hy).2
  simp only [Bool.and_eq_true, beq_iff_eq] at hall
  exact hall.1.1

theorem State.remoteReply_of_failure {s : State} {k : Nat} {x : Cmd} {kind : BeadReply} {st : Nat}
    (h : replyFailure kind = some st) (value : Nat) : s.remoteReply k x kind value = s.endOut k x.count st := by
  unfold State.remoteReply
  rw [h]

theorem State.remoteReply_of_done {s : State} {k : Nat} {x : Cmd} (h : fieldAt x.desc 0 0 2 = 0) (value : Nat) :
    s.remoteReply k x .done value = s.endCmd k x St.ok := by
  unfold State.remoteReply
  rw [h]
  rfl

/-- A REMOTE_BEAD told that its bead is suspended, or that it runs again (R380). -/
def Cmd.suspended (x : Cmd) (value : Nat) (starts : Bool) : Cmd :=
  { x with aux := [x.aux.getD 0 0, x.aux.getD 1 0, value, b2n starts] }

section
variable {hdr : GctHdr} {req : BitVec 32} {s r : State} {k : Nat} {x : Cmd} (hup : s.netUp = true)
  (hr : s.receive hdr true = some r) (hw : r.waiterOf hdr.conn.val req.toNat = some (k, x)) (hop : x.opcode = 0x0071)
include hup hr hw hop

theorem exec_remoteBeadReply (kind : BeadReply) (value : Word) :
    exec (.remoteBeadReply hdr req kind value) s = .next (r.remoteReply k x kind value.toNat) := by
  show execRemoteBeadReply hdr req kind value s = _
  simp [execRemoteBeadReply, hup, hr, hw, hop]

theorem exec_remoteSuspendMessage (starts : Bool) (value : Word) :
    exec (.remoteSuspendMessage hdr req starts value) s =
      .next (r.updCmd k x.count fun y => y.suspended value.toNat starts).retime := by
  show execRemoteSuspendMessage hdr req starts value s = _
  simp [execRemoteSuspendMessage, hup, hr, hw, hop, Cmd.suspended]

end

theorem State.retimeCmd_frame (s : State) (c : Nat) (x : Cmd) : (s.retimeCmd c x).count = x.count ∧
    (s.retimeCmd c x).aux = x.aux ∧ (s.retimeCmd c x).phase = x.phase := by
  unfold State.retimeCmd
  split
  · exact ⟨rfl, rfl, rfl⟩
  · split <;> exact ⟨rfl, rfl, rfl⟩

/-- The clock of an armed wait that is to stand still does so (R384). -/
theorem State.since_retimeCmd_of_paused {s : State} {c : Nat} {x : Cmd} (h : s.clockPaused c x = true)
    (harmed : (s.retimeCmd c x).armed = true) : (s.retimeCmd c x).since = none := by
  unfold State.retimeCmd at harmed ⊢
  rw [h] at harmed ⊢
  cases hx : x.armed with
  | false => simp [hx] at harmed
  | true =>
    cases hsince : x.since with
    | none => simp [hsince]
    | some t => simp

theorem State.clockPaused_of_suspended (s : State) (c : Nat) {x : Cmd} (hop : x.opcode = 0x0071) (h : x.aux.getD 3 0 = 1) :
    s.clockPaused c x = true := by
  simp only [State.clockPaused, hop, h, beq_self_eq_true, Bool.and_self, Bool.or_true]

/-- A command whose clock is looked at again keeps its state, and its clock stands where it is to stand. -/
theorem State.unitCmd_retime {s : State} {k n : Nat} {y : Cmd} (h : s.unitCmd k n = some y) :
    ∃ z, s.retime.unitCmd k n = some z ∧ z.aux = y.aux ∧ z.phase = y.phase ∧
      (s.clockPaused (k / 64) y = true → z.armed = true → z.since = none) := by
  obtain ⟨-, haux, hphase⟩ := s.retimeCmd_frame (k / 64) y
  exact ⟨_, State.unitCmd_mapCmds h fun j z => (s.retimeCmd_frame (j / 64) z).1, haux, hphase, State.since_retimeCmd_of_paused⟩

theorem State.retime_suspended {s : State} {k : Nat} {x : Cmd} (hx : s.cmdAt k x.count = some x) (hop : x.opcode = 0x0071)
    (value : Nat) (starts : Bool) :
    ∃ y, (s.updCmd k x.count fun y => y.suspended value starts).retime.cmdAt k x.count = some y ∧
      y.aux = [x.aux.getD 0 0, x.aux.getD 1 0, value, b2n starts] ∧ y.phase = x.phase ∧
      (y.armed = true → y.since ≠ none → starts = false) := by
  obtain ⟨y, hy, haux, hphase, hclock⟩ :=
    State.unitCmd_retime (State.unitCmd_updCmd (f := fun y => y.suspended value starts) hx fun _ h => h)
  refine ⟨y, hy, haux, hphase, fun harmed hsince => ?_⟩
  cases starts with
  | false => rfl
  | true => exact absurd (hclock (State.clockPaused_of_suspended _ _ hop rfl) harmed) hsince

/-! ### Doorbells (R580) -/

theorem State.doorbell_within {s : State} {k tail : Nat} (hk : k < 1024) (htail : tail < 2 ^ 32) (hserving : s.serving = true)
    (hctx : s.ctxEnabled (k / 64) = true) (hring : s.flag F.ctxRingCfg_ENABLE k = true) (hpark : s.parkedDeep = false)
    (hd : (tail + 2 ^ 32 - s.rd F.ctxRingStatus_HEAD k) % 2 ^ 32 ≤ 2 ^ s.rd F.ctxRingCfg_LOG2 k) :
    (s.doorbell k tail).rd F.ctxRingStatus_TAIL k = tail ∧
    (s.doorbell k tail).rd F.ctxRingStatus_HEAD k = s.rd F.ctxRingStatus_HEAD k ∧
    (s.doorbell k tail).rings = s.rings ∧ (s.doorbell k tail).mem = s.mem ∧
    keepsRegs s (s.doorbell k tail) [Reg.ctxRingStatus, Reg.pwrDomStatus] := by
  have hbell : s.doorbell k tail = if tail = s.rd F.ctxRingStatus_TAIL k then s
      else (s.ringDomains k).foldl State.askWake (s.wr F.ctxRingStatus_TAIL k tail) := by
    unfold State.doorbell
    rw [if_neg (by simp [hserving, hctx, hring, hpark])]
    exact if_neg (by omega)
  rw [hbell]
  split
  next hsame => exact ⟨hsame.symm, rfl, rfl, rfl, fun _ _ _ _ => rfl⟩
  next hnew =>
    obtain ⟨hregs, hmem, hrings⟩ := (s.wr F.ctxRingStatus_TAIL k tail).askWakes_frame (s.ringDomains k)
    refine ⟨?_, ?_, hrings, hmem, (keepsRegs_of_setReg (by omega) rfl).trans hregs⟩
    · exact (hregs.rd F.ctxRingStatus_TAIL (by omega) (by decide)).trans
        ((s.rd_wr_same F.ctxRingStatus_TAIL k tail (by decide)).trans (Nat.mod_eq_of_lt htail))
    · exact (hregs.rd F.ctxRingStatus_HEAD (by omega) (by decide)).trans
        (s.rd_wr_fld F.ctxRingStatus_TAIL F.ctxRingStatus_HEAD k tail rfl (by decide) (by decide))

section
variable {hdr : GctHdr} {s r : State} {n : Nat} (h : s.fromController hdr = some (n, r)) {ctx : Fin 16} (ring : Fin 64)
  (tail : BitVec 32)
include h

theorem exec_gctDoorbell_of_no_right (hno : (r.ctrlRights n).testBit ctx.val = false) :
    exec (.gctDoorbell hdr ctx ring tail) s = .next r := by
  show execGctDoorbell hdr ctx ring tail s = _
  simp [execGctDoorbell, h, hno]

theorem exec_gctDoorbell_of_right (hright : (r.ctrlRights n).testBit ctx.val = true) :
    exec (.gctDoorbell hdr ctx ring tail) s = .next (r.doorbell (ringKey ctx.val ring.val) tail.toNat) := by
  show execGctDoorbell hdr ctx ring tail s = _
  simp [execGctDoorbell, h, hright]

end

/-! ### The wait for a connection (R620) -/

section
variable {id : CmdId} {s : State} {x : Cmd} (hx : s.cmd id = some x)
include hx

theorem exec_connWaitTimeout_of_in_time (ht : s.timedOut x = false) : exec (.connWaitTimeout id) s = .next s := by
  show execConnWaitTimeout id s = _
  simp [execConnWaitTimeout, hx, ht]

theorem exec_connWaitTimeout_of_late (hheld : x.heldOnConn = true) (ht : s.timedOut x = true) (hop : x.opcode ≠ 0x0072) :
    exec (.connWaitTimeout id) s = .next (s.endOut (CmdKey id) x.count St.peerLost) := by
  have hat : s.cmdAt (CmdKey id) x.count = some x := (State.count_of_unitCmd hx).symm ▸ hx
  show execConnWaitTimeout id s = _
  simp [execConnWaitTimeout, hx, hheld, ht, State.cmdLost, hat, hop]

end

theorem Cmd.waiting_of_heldOnConn {x : Cmd} (h : x.heldOnConn = true) : x.phase = .waiting := by
  unfold Cmd.heldOnConn at h
  simp only [Bool.and_eq_true, beq_iff_eq] at h
  exact h.1.1

/-! ### Transfers of a peer (R454, R467) -/

section
variable {r q : State} {c addr vid add : Nat} {bytes : List Byte}

theorem State.transferIn_of_no_window (h : r.inWindow c 0 addr bytes.length = false) :
    r.transferIn c addr vid add bytes = (some .refused, r) := by
  unfold State.transferIn
  extract_lets ctx
  split
  exact if_pos (by simp [h])

/-- The bead of a transfer is not mapped, or the map does not give the right to add to it. -/
theorem State.transferIn_of_no_right (hadd : add ≠ 0)
    (h : (r.vid (r.connCtx c) vid).1 = none ∨ (r.vid (r.connCtx c) vid).2.testBit 17 = false) :
    r.transferIn c addr vid add bytes = (some .refused, r) := by
  unfold State.transferIn
  extract_lets ctx bead
  split
  next p e hpe =>
    replace hpe : r.vid (r.connCtx c) vid = (p, e) := hpe
    replace h : p = none ∨ e.testBit 17 = false := by rwa [hpe] at h
    exact if_pos (by rcases h with h | h <;> simp [bead, hadd, h])

section
variable (hwin : r.inWindow c 0 addr bytes.length = true) {b : List Byte}
  (hacc : State.winAccess (r.connCtx c) addr bytes.length (some bytes) (winFuel bytes.length) r [] [] = (.done b, q))
include hwin hacc

theorem State.transferIn_of_written : r.transferIn c addr vid 0 bytes = (some .done, q) := by
  unfold State.transferIn
  extract_lets ctx bead
  have hw : State.winAccess ctx addr bytes.length (some bytes) (winFuel bytes.length) r [] [] = (.done b, q) := hacc
  split
  refine (if_neg (by simp [hwin, bead])).trans ((if_neg (by simp [bead])).trans ?_)
  rw [hw]
  exact if_neg (by simp [bead])

theorem State.transferIn_of_added {n : Nat} (hadd : add ≠ 0) (hv : (r.vid (r.connCtx c) vid).1 = some n)
    (hright : (r.vid (r.connCtx c) vid).2.testBit 17 = true) (hc : r.addCheck n add = .done) :
    r.transferIn c addr vid add bytes = (some (q.peerAdd c vid n add).1, (q.peerAdd c vid n add).2) := by
  unfold State.transferIn
  extract_lets ctx bead
  have hw : State.winAccess ctx addr bytes.length (some bytes) (winFuel bytes.length) r [] [] = (.done b, q) := hacc
  split
  next p e hpe =>
    replace hpe : r.vid (r.connCtx c) vid = (p, e) := hpe
    replace hv : p = some n := by rwa [hpe] at hv
    replace hright : e.testBit 17 = true := by rwa [hpe] at hright
    extract_lets m
    have hm : m = n := by simp [m, hv]
    refine (if_neg (by simp [hwin, bead, hv, hright])).trans ((if_neg (by simp [bead, hm, hc])).trans ?_)
    rw [hw, hm]
    exact if_pos (by simp [bead, hadd])

end

theorem BeadGrown.sendGct {s t : State} {n m : Nat} (h : BeadGrown s t n m) (c : Nat) (msg : GctMsg) :
    BeadGrown s (t.sendGct c msg) n m :=
  h.andThen (State.sendGct_regs t c msg) (State.sendGct_mem t c msg)

/-- An addition of a peer that the bead takes is done (R377). -/
theorem State.peerAdd_taken {s : State} {n : Nat} (h : s.addCheck n add = .done) (c vid : Nat) :
    ∃ t, s.peerAdd c vid n add = (.done, t) ∧ BeadGrown s t n add := by
  obtain ⟨t, ht, hgrown⟩ := State.beadAdd_taken h
  exact ⟨t.armAll, by simp only [State.peerAdd, ht], hgrown.armAll⟩

/-- The function is unfolded apart from its arguments: applied, the kernel would evaluate `transferIn` of them. -/
theorem State.transfer_of_answer {since : Option Nat} {i : Instr} {req : Nat} {a : BeadReply}
    (h : r.transferIn c addr vid add bytes = (some a, q)) :
    r.transfer since i c req addr vid add bytes = q.sendGct c (.beadReply req a 0) := by
  generalize hf : @State.transfer = f
  delta State.transfer at hf
  subst hf
  beta_reduce
  rw [h]

end

theorem exec_gctTransferData {hdr : GctHdr} {s r q : State} {add : BitVec 16} (hserves : s.netServes = true)
    (hr : s.receive hdr (add != 0) = some r) {addr : Word} {vid : BitVec 16} {bytes : List Byte} {a : BeadReply}
    (h : r.transferIn hdr.conn.val addr.toNat vid.toNat add.toNat bytes = (some a, q)) (req : BitVec 32) :
    exec (.gctTransferData hdr req addr vid add bytes) s = .next (q.sendGct hdr.conn.val (.beadReply req.toNat a 0)) := by
  show execGctTransferData hdr req addr vid add bytes s = _
  unfold execGctTransferData
  rw [if_neg (by simp [hserves]), hr]
  exact congrArg Host.Outcome.next (State.transfer_of_answer h)

/-! ### The obligation -/

theorem Cmd.outcome_of_sound {x : Cmd} (hl : x.lost = []) (hdata : x.dataLoss = false) (hfatal : x.fatal = none) (own : Nat) :
    x.outcome own = own := by
  simp [Cmd.outcome, hl, hdata, hfatal]

/-- Settles O46: a reply and an expiry by the end of the command, the rest by what the message does to its receiver. -/
theorem peerRepliesAndTransfers : Obligations.PeerRepliesAndTransfers := by
  unfold Obligations.PeerRepliesAndTransfers
  refine ⟨⟨fun hdr req kind value s r k x hup hr hw hop hx hl hdata hs hfatal => ⟨?done, fun st hfail => ?failure⟩,
    fun hdr req starts value s r k x hup hr hw hop hx => ?suspend, fun hdr ctx ring tail s r n h => ⟨?bare, ?bell⟩,
    fun id s x hx hheld => ⟨?inTime, fun ht hop hl hs => ?late⟩⟩, ?transfer⟩
  case done =>
    rintro rfl hkind
    have hended := State.endedWith_endCmd hx hl hs St.ok
    rw [Cmd.outcome_of_sound hl hdata hfatal] at hended
    exact ⟨_, (exec_remoteBeadReply hup hr hw hop _ _).trans (by rw [State.remoteReply_of_done hkind]), hended⟩
  case failure =>
    have hended := State.endedWith_endOut hx hl hs (by rw [State.waiting_of_waiterOf hw]; decide) st
    rw [hfatal] at hended
    exact ⟨_, (exec_remoteBeadReply hup hr hw hop _ _).trans (by rw [State.remoteReply_of_failure hfail]), hended⟩
  case suspend =>
    exact ⟨_, exec_remoteSuspendMessage hup hr hw hop starts value, State.retime_suspended hx hop _ starts, rfl, rfl⟩
  case bare => exact exec_gctDoorbell_of_no_right h ring tail
  case bell =>
    intro hright hserving hctx hring hpark hd
    have hkey : ringKey ctx.val ring.val / 64 = ctx.val := by unfold ringKey; omega
    exact ⟨_, exec_gctDoorbell_of_right h ring tail hright,
      State.doorbell_within (by unfold ringKey; omega) tail.isLt hserving (hkey.symm ▸ hctx) hring hpark hd⟩
  case inTime => exact exec_connWaitTimeout_of_in_time hx
  case late =>
    have hcount : x.count = id.count.toNat := State.count_of_unitCmd hx
    have hended := State.endedWith_endOut (hcount.symm ▸ hx : s.cmdAt (CmdKey id) x.count = some x) hl hs
      (by rw [Cmd.waiting_of_heldOnConn hheld]; decide) St.peerLost
    refine ⟨_, exec_connWaitTimeout_of_late hx hheld ht hop, ?_⟩
    simp only [State.cmd_eq_unitCmd, ← hcount]
    exact hended
  case transfer =>
    intro hdr req addr vid add bytes s r hserves hr c p
    have hadd (hne : add ≠ 0) : add.toNat ≠ 0 := fun h => hne (BitVec.eq_of_toNat_eq h)
    refine ⟨fun hwin => ?window, fun hne hbead => ?right, fun hzero hwin b q hacc => ?written,
      fun n hne hv hright hc hwin b q hacc hq => ?added⟩
    case window => exact exec_gctTransferData hserves hr (State.transferIn_of_no_window hwin) req
    case right => exact exec_gctTransferData hserves hr (State.transferIn_of_no_right (hadd hne) hbead) req
    case written =>
      subst hzero
      exact exec_gctTransferData hserves hr (State.transferIn_of_written hwin hacc) req
    case added =>
      obtain ⟨t, ht, hgrown⟩ := State.peerAdd_taken hq hdr.conn.val vid.toNat
      have hanswer := State.transferIn_of_added hwin hacc (hadd hne) hv hright hc
      rw [ht] at hanswer
      have hsent := hgrown.sendGct hdr.conn.val (.beadReply req.toNat .done 0)
      obtain ⟨hval, -⟩ := hsent.values (State.vid_lt hv) (State.lt_of_addCheck_done hq)
      exact ⟨_, exec_gctTransferData hserves hr hanswer req, hval, hsent.mem, hsent.keepsRegs (State.vid_lt hv)⟩

end Sys2Proof.Machine
end

section
/-!
The head packet of a yo-yo queue (R402).
-/
namespace Sys2Proof.Machine

/-- The largest of a list of numbers, as the head's priority is sought. -/
theorem max?_eq_foldl {l : List Nat} (h : l ≠ []) : l.max? = some (l.foldl max 0) := by
  cases l with
  | nil => exact absurd rfl h
  | cons a l => rw [List.max?_cons', List.foldl_cons, Nat.zero_max]

/-- With no packet begun the head is the first packet of the highest priority. -/
theorem Que.head_of_fresh {x : Que} (hr : x.reading = none) (hx : x.pkts ≠ []) :
    ∃ p, x.head = some p ∧ (∀ q ∈ x.pkts, q.prio ≤ p.prio) ∧
      ∃ pre post, x.pkts = pre ++ p :: post ∧ ∀ q ∈ pre, q.prio ≠ p.prio := by
  obtain ⟨htop, hle⟩ := List.max?_eq_some_iff.mp (max?_eq_foldl (l := x.pkts.map Pkt.prio) (by simpa using hx))
  obtain ⟨p₀, hp₀, hprio⟩ := List.mem_map.mp htop
  have hhead : x.head = x.pkts.find? (fun p => p.prio == (x.pkts.map Pkt.prio).foldl max 0) := by
    rw [Que.head, hr]
  cases hfind : x.pkts.find? (fun p => p.prio == (x.pkts.map Pkt.prio).foldl max 0) with
  | none => exact absurd (beq_iff_eq.mpr hprio) (List.find?_eq_none.mp hfind p₀ hp₀)
  | some p =>
    obtain ⟨hp, pre, post, hsplit, hpre⟩ := List.find?_eq_some_iff_append.mp hfind
    rw [← beq_iff_eq.mp hp] at hle hpre
    exact ⟨p, hhead.trans hfind, fun q hq => hle _ (List.mem_map_of_mem hq), pre, post, hsplit,
      fun q hq => by simpa using hpre q hq⟩

/-- A packet that the reader has begun is the head. -/
theorem Que.head_of_begun {x : Que} {pre post : List Pkt} {p : Pkt} (hr : x.reading = some p.seq)
    (hx : x.pkts = pre ++ p :: post) (hpre : ∀ q ∈ pre, q.seq ≠ p.seq) : x.head = some p := by
  rw [Que.head, hr]
  exact List.find?_eq_some_iff_append.mpr ⟨beq_self_eq_true _, pre, post, hx, fun q hq => by simpa using hpre q hq⟩

/-- Settles O7: the packet found first among the highest, and a packet begun found by its number whatever follows. -/
theorem queueHeads : Obligations.QueueHeads := by
  unfold Obligations.QueueHeads
  refine ⟨fun x hr hx => ?_, fun x pre post more p hx hpre hr => ?_⟩
  · obtain ⟨p, hhead, hle, pre, post, hsplit, hne⟩ := Que.head_of_fresh hr hx
    have hmem : ∀ q ∈ pre, q ∈ x.pkts := fun q hq => hsplit ▸ List.mem_append_left _ hq
    exact ⟨pre, p, post, hsplit, hhead, hle, fun q hq => Nat.lt_of_le_of_ne (hle q (hmem q hq)) (hne q hq)⟩
  · have hgrown : x.pkts ++ more = pre ++ p :: (post ++ more) := by rw [hx, List.append_assoc, List.cons_append]
    exact Que.head_of_begun (x := { x with pkts := x.pkts ++ more }) hr hgrown hpre

end Sys2Proof.Machine
end

section
/-!
What a put, a notice, the comparison of the pointers and the host's accesses leave in the yo-yo queues (R394, R401 to R411).
-/
namespace Sys2Proof.Machine

/-! ### Writes of memory leave the queues -/

section
variable (s : State)

@[simp] theorem State.queues_touch (p : Place) : (s.touch p).queues = s.queues := by
  unfold State.touch
  split
  · dsimp only
    split
    · rfl
    · split
      · rfl
      · split <;> rfl
  · rfl

@[simp] theorem State.queues_corrected (key : Nat) (bad : BitVec 72) : (s.corrected key bad).queues = s.queues := by
  obtain ⟨l, r, e, heq, -⟩ := s.corrected_frame key bad
  rw [heq]
  rfl

@[simp] theorem State.queues_cacheFill (n o : Nat) (dirty : Bool) : (s.cacheFill n o dirty).queues = s.queues := by
  obtain ⟨e, c, m, heq, -⟩ := s.cacheFill_frame n o dirty
  rw [heq]

@[simp] theorem State.queues_pokeN (pa : Nat) (bs : List Byte) : (s.pokeN pa bs).queues = s.queues := by
  obtain ⟨m, h, heq⟩ := s.pokeN_frame pa bs
  rw [heq]

@[simp] theorem State.queues_logLost (pa n c : Nat) (poison sram : Bool) :
    (s.logLost pa n c poison sram).queues = s.queues := by
  unfold State.logLost
  split <;> rfl

@[simp] theorem State.queues_lostRead (pa : Nat) (p : Place) (poison : Bool) :
    (s.lostRead pa p poison).queues = s.queues := by
  unfold State.lostRead
  split <;> simp

@[simp] theorem State.queues_stackGran (pa n o key : Nat) : (s.stackGran pa n o key).2.queues = s.queues := by
  unfold State.stackGran
  dsimp only
  split <;> simp

@[simp] theorem State.queues_judgeGran (pa : Nat) (p : Place) : (s.judgeGran pa p).2.queues = s.queues := by
  unfold State.judgeGran
  split
  next n o =>
    have hgran := s.queues_stackGran pa n o (s.homeKey n o)
    split
    · exact s.queues_lostRead _ _ _
    · split
      · rfl
      · split
        next h => rw [h] at hgran; exact hgran
        next h => rw [h] at hgran; exact (State.queues_cacheFill _ n o false).trans hgran
  · split
    · rfl
    · split
      · exact s.queues_lostRead _ _ _
      · rfl

@[simp] theorem State.queues_writeGran (pa : Nat) (bs : List Byte) : (s.writeGran pa bs).2.queues = s.queues := by
  have htouch := s.queues_touch (s.place (pa / 64 * 64))
  unfold State.writeGran
  dsimp only
  generalize s.touch (s.place (pa / 64 * 64)) = t at *
  split
  · exact htouch
  · split
    next n o _ =>
      split
      · simpa using htouch
      · have hjudge := (t.queues_judgeGran pa (s.place (pa / 64 * 64))).trans htouch
        split
        next h => rw [h] at hjudge; exact hjudge
        next h => rw [h] at hjudge; simpa using hjudge
    next =>
      split
      · simpa using htouch
      · split
        · exact htouch
        · simpa using htouch

@[simp] theorem State.queues_writePhys (pa : Nat) (bs : List Byte) : (s.writePhys pa bs).2.queues = s.queues :=
  List.foldlRecOn (motive := fun a : Bool × State => a.2.queues = s.queues) _ _ rfl
    fun a h g _ => (a.2.queues_writeGran g.1 g.2).trans h

@[simp] theorem State.queues_queNotify (q n : Nat) : (s.queNotify q n).queues = s.queues := by
  unfold State.queNotify State.interrupt
  split
  · split <;> rfl
  · exact s.queues_writePhys _ _
  · rfl

end

/-! ### A packet put into a queue (R401, R405, R409) -/

theorem makeRoom_of_room {x : Que} {cap n : Nat} (h : x.entries + n ≤ cap) (prio f e p lp : Nat) :
    makeRoom cap n prio f x e p lp = (x, e, p, lp, true) := by
  cases f with
  | zero => rfl
  | succ f => rw [makeRoom, if_pos h]

section
variable {s : State} {q : Nat} (prio : Nat) (ents : List (List Byte)) (producer : Nat)

/-- A put changes one queue. -/
theorem State.queues_quePut : ∃ x, (s.quePut q prio ents producer).2.1.queues = put s.queues q x := by
  unfold State.quePut
  dsimp only
  split
  · split
    · split <;> exact ⟨_, rfl⟩
    · exact ⟨_, rfl⟩
  · generalize makeRoom (s.queCap q) ents.length prio ((s.que q).pkts.length + 1) (s.que q) 0 0 0 = r
    obtain ⟨y, e, p, lp, stays⟩ := r
    have hcounted : (if e = 0 then s else s.countLost q e p).queues = s.queues := by split <;> rfl
    dsimp only
    cases stays with
    | false => exact ⟨_, congrArg (put · q _) hcounted⟩
    | true => exact ⟨_, (State.queues_queNotify _ q _).trans (congrArg (put · q _) hcounted)⟩

theorem State.que_quePut_other {p : Nat} (h : p ≠ q) : (s.quePut q prio ents producer).2.1.que p = s.que p := by
  obtain ⟨x, hx⟩ := State.queues_quePut (s := s) (q := q) prio ents producer
  rw [State.que, hx, lookD_put_other _ _ _ h, State.que]

/-- A disabled queue drops the packet (R409). -/
theorem State.pkts_quePut_disabled (h : s.flag F.queCfg_ENABLE q = false) :
    ((s.quePut q prio ents producer).2.1.que q).pkts = (s.que q).pkts := by
  unfold State.quePut
  rw [if_pos (by rw [h]; rfl)]
  have hdropped : ∀ x : Que, x.pkts = (s.que q).pkts → ((s.setQue q x).que q).pkts = (s.que q).pkts := fun x hx =>
    (congrArg Que.pkts (s.que_setQue_same q x)).trans hx
  dsimp only
  split
  · split
    · exact hdropped _ rfl
    · exact hdropped _ rfl
  · exact hdropped _ rfl

/-- An enabled queue with room takes the packet behind the others, under the queue's next number. -/
theorem State.pkts_quePut_room (h : s.flag F.queCfg_ENABLE q = true) (hroom : (s.que q).entries + ents.length ≤ s.queCap q) :
    ((s.quePut q prio ents producer).2.1.que q).pkts =
      (s.que q).pkts ++ [{ seq := (s.que q).seq, prio := prio, ents := ents }] := by
  unfold State.quePut
  rw [if_neg (by rw [h]; decide)]
  dsimp only
  rw [makeRoom_of_room hroom]
  dsimp only
  rw [if_pos rfl, State.que, State.queues_queNotify]
  exact (congrArg Que.pkts (State.que_setQue_same _ q _)).trans rfl

end

/-! ### The forced reset (R407) -/

theorem State.queues_queReset (s : State) (q : Nat) :
    (s.queReset q).1.queues = put s.queues q { s.que q with pkts := [], reading := none, taken := 0 } := by
  unfold State.queReset
  dsimp only
  split <;> rfl

@[simp] theorem State.que_queReset_same (s : State) (q : Nat) :
    (s.queReset q).1.que q = { s.que q with pkts := [], reading := none, taken := 0 } := by
  rw [State.que, State.queues_queReset, lookD_put_same]

theorem State.que_queReset_other (s : State) {q p : Nat} (h : p ≠ q) : (s.queReset q).1.que p = s.que p := by
  rw [State.que, State.queues_queReset, lookD_put_other _ _ _ h, State.que]

/-! ### Notices reach the notice queues alone (R394) -/

/-- The queues behind the notice queues hold in `t` what they hold in `s`. -/
def QueuesStand (s t : State) : Prop := ∀ q, 17 ≤ q → t.que q = s.que q

section
variable {s t u : State}

theorem QueuesStand.refl (s : State) : QueuesStand s s := fun _ _ => rfl

theorem QueuesStand.trans (h : QueuesStand s t) (k : QueuesStand t u) : QueuesStand s u :=
  fun q hq => (k q hq).trans (h q hq)

theorem QueuesStand.of_queues (h : t.queues = s.queues) : QueuesStand s t :=
  fun q _ => by rw [State.que, h, State.que]

theorem QueuesStand.noticePut (s : State) {q : Nat} (hq : q < 17) (n : Ntc) (r : List Byte) :
    QueuesStand s (s.noticePut q n r).1 := by
  have hput : ∀ u : State, QueuesStand u (u.quePut q n.sev [r] 1).2.1 :=
    fun _ p hp => State.que_quePut_other _ _ _ (by omega)
  have hreset : ∀ u : State, QueuesStand u (u.queReset q).1 := fun u p hp => u.que_queReset_other (by omega)
  have hdrawn : QueuesStand s { s with nfree := s.nfree + 1 } := .of_queues rfl
  unfold State.noticePut State.ptrsDiffer
  split
  · exact hput s
  · cases Config.ptrMismatch s.nfree with
    | false => exact hdrawn.trans (hput _)
    | true => exact hdrawn.trans (hreset _)

variable {n : Ntc} (hn : n.named)
include hn

theorem QueuesStand.deliver (s : State) : QueuesStand s (s.deliver n).1 := by
  have hseen : QueuesStand s (if n.sev = Sev.fatal then s.wr F.hubHealth_FATAL_SEEN 0 1 else s) :=
    .of_queues (by split <;> rfl)
  unfold State.deliver
  dsimp only
  generalize (if n.sev = Sev.fatal then s.wr F.hubHealth_FATAL_SEEN 0 1 else s) = t at *
  split
  · exact hseen.trans (.of_queues rfl)
  · have hfirst := hseen.trans (.noticePut t (q := 0) (by decide) n (n.record t.time))
    split
    next c hc _ => exact hfirst.trans (.noticePut _ (by have := hn c hc; omega) n _)
    next => exact hfirst

theorem QueuesStand.raiseN (f : Nat) (s : State) : QueuesStand s (State.raiseN f s n) := by
  induction f generalizing s n with
  | zero => exact .refl s
  | succ f ih =>
    exact List.foldlRecOn (motive := fun t : State => QueuesStand s t) _ _ (.deliver hn s)
      fun t ht m hm => ht.trans (ih ((Told.deliver s n hn).2 m hm) t)

theorem QueuesStand.raise (s : State) : QueuesStand s (s.raise n) := by
  unfold State.raise
  split
  · exact .of_queues (by dsimp only; split <;> rfl)
  · exact .raiseN hn 4 s

end

theorem QueuesStand.raises (s : State) {l : List Ntc} (h : ∀ n ∈ l, n.named) : QueuesStand s (l.foldl State.raise s) :=
  List.foldlRecOn (motive := fun t : State => QueuesStand s t) l _ (.refl s) fun t ht n hn => ht.trans (.raise (h n hn) t)

/-! ### A pointer update compares the two copies (R407; log entry 20) -/

section
variable {s : State} {q : Nat}

theorem State.quePointers_of_agree (h : Config.ptrMismatch s.nfree = false) :
    s.quePointers q = (true, { s with nfree := s.nfree + 1 }) := by
  unfold State.quePointers State.ptrsDiffer
  rw [h]

theorem State.quePointers_of_mismatch (h : Config.ptrMismatch s.nfree = true) :
    s.quePointers q = (false, { s with nfree := s.nfree + 1 }.queForcedReset q) := by
  unfold State.quePointers State.ptrsDiffer
  rw [h]

/-- A queue behind the notice queues is empty after its forced reset, the notice of the reset included. -/
theorem State.pkts_queForcedReset (hq : 17 ≤ q) : ((s.queForcedReset q).que q).pkts = [] := by
  have hraise := QueuesStand.raise (queOwner_named _ _ _ _ _ _ _ : (s.queReset q).2.named) (s.queReset q).1 q hq
  unfold State.queForcedReset
  exact congrArg Que.pkts (hraise.trans (s.que_queReset_same q))

/-- A queue as it is updated, and then compared. -/
theorem State.quePointers_setQue (s : State) (q : Nat) (x : Que) :
    if Config.ptrMismatch s.nfree then 17 ≤ q → (((s.setQue q x).quePointers q).2.que q).pkts = []
    else ((s.setQue q x).quePointers q).2.que q = x ∧ ((s.setQue q x).quePointers q).2.regs = s.regs ∧
      ((s.setQue q x).quePointers q).2.mem = s.mem := by
  split
  next h =>
    rw [State.quePointers_of_mismatch (s := s.setQue q x) h]
    exact fun hq => State.pkts_queForcedReset hq
  next h =>
    rw [State.quePointers_of_agree (s := s.setQue q x) (eq_false_of_ne_true h)]
    exact ⟨s.que_setQue_same q x, rfl, rfl⟩

end

/-! ### The host's accesses to a queue (R403, R409, R411) -/

section
variable {s : State} {q : Nat} {p : Pkt}

theorem State.queSkip_of_head (h : (s.que q).head = some p) :
    s.queSkip q = s.setQue q { (s.que q).remove p.seq with reading := none, taken := 0 } := by
  unfold State.queSkip
  dsimp only
  rw [h]

/-- The reader takes one entry: the last one frees the packet, any other leaves it begun. -/
theorem State.queAdvance_of_head (h : (s.que q).head = some p) {n : Nat}
    (hn : n = (if (s.que q).reading = some p.seq then (s.que q).taken else 0) + 1) :
    ∃ x, s.queAdvance q = s.setQue q x ∧
      (p.ents.length ≤ n → x.pkts = (s.que q).pkts.filter (fun y => y.seq != p.seq) ∧ x.reading = none) ∧
      (n < p.ents.length → x.pkts = (s.que q).pkts ∧ x.reading = some p.seq ∧ x.taken = n) := by
  unfold State.queAdvance
  simp only [h, ← hn]
  split
  next hlast => exact ⟨_, rfl, fun _ => ⟨rfl, rfl⟩, fun hmore => absurd hlast (Nat.not_le.mpr hmore)⟩
  next hmore => exact ⟨_, rfl, fun hlast => absurd hlast hmore, fun _ => ⟨rfl, rfl, rfl⟩⟩

end

section
variable {s : State} {fn : Fn} {q : Fin 256}

theorem exec_queueFlush_of_reach (h : s.queReach fn q.val = true) :
    exec (.queueFlush fn q) s = .next (s.queFlush q.val) := by
  show execQueueFlush fn q s = _
  rw [execQueueFlush, if_pos h]

theorem exec_queueSkip_of_reach (h : s.queReach fn q.val = true) :
    exec (.queueSkip fn q) s = .next ((s.queSkip q.val).quePointers q.val).2 := by
  show execQueueSkip fn q s = _
  rw [execQueueSkip, if_pos h]

theorem exec_queueEntryRead_of_reach (h : s.queReach fn q.val = true) :
    exec (.queueEntryRead fn q) s = .next { ((s.queAdvance q.val).quePointers q.val).2 with
      rdata := leNat (slice (s.que q.val).entry 24 8) } := by
  show execQueueEntryRead fn q s = _
  rw [execQueueEntryRead, if_pos h]

theorem exec_queue_of_no_reach (h : s.queReach fn q.val = false) :
    exec (.queueFlush fn q) s = .next s ∧ exec (.queueSkip fn q) s = .next s ∧
      exec (.queueEntryRead fn q) s = .next { s with rdata := 0 } := by
  show execQueueFlush fn q s = _ ∧ execQueueSkip fn q s = _ ∧ execQueueEntryRead fn q s = _
  simp [execQueueFlush, execQueueSkip, execQueueEntryRead, h]

end

/-- Settles O38: each access is one update of its queue, which the comparison of the pointers leaves or empties. -/
theorem queueReads : Obligations.QueueReads := by
  unfold Obligations.QueueReads
  refine fun fn q s => ⟨exec_queue_of_no_reach, fun hr => ⟨?flush, fun p hp => ⟨?skip, ?read⟩⟩⟩
  case flush =>
    have hown := s.que_setQue_same q.val { s.que q.val with pkts := [], reading := none, taken := 0 }
    exact ⟨_, exec_queueFlush_of_reach hr, congrArg Que.pkts hown, congrArg Que.reading hown, rfl, rfl,
      fun p hne => s.que_setQue_other _ hne⟩
  case skip =>
    have hcompared := s.quePointers_setQue q.val { (s.que q.val).remove p.seq with reading := none, taken := 0 }
    rw [← State.queSkip_of_head hp] at hcompared
    refine ⟨_, exec_queueSkip_of_reach hr, ?_⟩
    split
    next h => rwa [if_pos h] at hcompared
    next h =>
      rw [if_neg h] at hcompared
      obtain ⟨hque, hregs, hmem⟩ := hcompared
      exact ⟨congrArg Que.pkts hque, congrArg Que.reading hque, hregs, hmem⟩
  case read =>
    obtain ⟨x, hx, hlast, hmore⟩ := State.queAdvance_of_head hp rfl
    have hcompared := s.quePointers_setQue q.val x
    rw [← hx] at hcompared
    refine ⟨_, exec_queueEntryRead_of_reach hr, rfl, ?_⟩
    split
    next h => rwa [if_pos h] at hcompared
    next h =>
      rw [if_neg h] at hcompared
      obtain ⟨rfl, hregs, hmem⟩ := hcompared
      exact ⟨hregs, hmem, hlast, hmore⟩

end Sys2Proof.Machine
end

section
/-!
A packet put into a queue with its notices (R401, R407), and the packet of telemetry (R396).
-/
namespace Sys2Proof.Machine

/-! ### A put with its notices -/

section
variable {s : State} {q : Nat} (prio : Nat) (ents : List (List Byte)) (producer : Nat)

/-- A packet put into a queue with the notices that the put raises. -/
def State.putTold (s : State) (q prio : Nat) (ents : List (List Byte)) (producer : Nat) : State :=
  (s.quePut q prio ents producer).2.2.foldl State.raise (s.quePut q prio ents producer).2.1

theorem State.enqueue_of_disabled (h : s.flag F.queCfg_ENABLE q = false) :
    (s.enqueue q prio ents producer).2 = s.putTold q prio ents producer := by
  rw [State.enqueue, if_pos (by rw [h]; rfl)]
  rfl

theorem State.enqueue_of_mismatch (h : s.flag F.queCfg_ENABLE q = true) (hptr : Config.ptrMismatch s.nfree = true) :
    (s.enqueue q prio ents producer).2 = { s with nfree := s.nfree + 1 }.queForcedReset q := by
  rw [State.enqueue, if_neg (by rw [h]; decide), State.quePointers_of_mismatch hptr]

theorem State.enqueue_of_agree (h : s.flag F.queCfg_ENABLE q = true) (hptr : Config.ptrMismatch s.nfree = false) :
    (s.enqueue q prio ents producer).2 = { s with nfree := s.nfree + 1 }.putTold q prio ents producer := by
  rw [State.enqueue, if_neg (by rw [h]; decide), State.quePointers_of_agree hptr]
  rfl

theorem State.que_putTold (hq : 17 ≤ q) (hlt : q < 1048576) :
    (s.putTold q prio ents producer).que q = (s.quePut q prio ents producer).2.1.que q :=
  QueuesStand.raises _ (Told.quePut s q prio ents producer hlt).2 q hq

theorem State.memories_raises {l : List Ntc} (hs : s.quietQueues) (h : ∀ n ∈ l, n.named) :
    (l.foldl State.raise s).memories = s.memories :=
  (List.foldlRecOn (motive := fun t : State => t.quietQueues ∧ t.memories = s.memories) l _ ⟨hs, rfl⟩
    fun t ⟨hquiet, hmem⟩ n hn =>
      ⟨State.quietQueues_of_told (t.raise_told n (h n hn)) hquiet, (State.memories_raise hquiet (h n hn)).trans hmem⟩).2

theorem State.memories_putTold (hs : s.quietQueues) (hq : q < 256) :
    (s.putTold q prio ents producer).memories = s.memories := by
  obtain ⟨htold, hnamed⟩ := Told.quePut s q prio ents producer (by omega)
  exact (State.memories_raises (State.quietQueues_of_told htold hs) hnamed).trans (State.memories_quePut hs hq _ _ _)

theorem State.memories_queForcedReset (hs : s.quietQueues) (hq : q < 256) :
    (s.queForcedReset q).memories = s.memories := by
  obtain ⟨htold, hnamed⟩ := Told.queReset s q (by omega)
  exact (State.memories_raise (State.quietQueues_of_told htold hs) hnamed).trans (s.memories_queReset q)

/-- With no queue that rings in memory a packet put into a queue leaves the memories. -/
theorem State.memories_enqueue (hs : s.quietQueues) (hq : q < 256) :
    (s.enqueue q prio ents producer).2.memories = s.memories := by
  cases henable : s.flag F.queCfg_ENABLE q with
  | false =>
    rw [State.enqueue_of_disabled _ _ _ henable]
    exact State.memories_putTold _ _ _ hs hq
  | true =>
    cases hptr : Config.ptrMismatch s.nfree with
    | false =>
      rw [State.enqueue_of_agree _ _ _ henable hptr]
      exact State.memories_putTold (s := { s with nfree := s.nfree + 1 }) _ _ _ hs hq
    | true =>
      rw [State.enqueue_of_mismatch _ _ _ henable hptr]
      exact State.memories_queForcedReset (s := { s with nfree := s.nfree + 1 }) hs hq

end

/-! ### A packet of telemetry -/

/-- What an entry of telemetry holds behind its unit and kind: four values, and four bytes of zero. -/
def State.telemetryTail (s : State) (u k : Nat) (v : List (BitVec 32)) : List Byte :=
  ((List.range 4).map (fun i => s.telemetryValue u k i ((v.getD i 0).toNat))).flatMap (natLE 4) ++ natLE 4 0

theorem State.length_telemetryTail (s : State) (u k : Nat) (v : List (BitVec 32)) :
    (s.telemetryTail u k v).length = 20 := by
  simp [State.telemetryTail, natLE_length, List.range_succ]

def State.telemetryEntry (s : State) (u k : Nat) (v : List (BitVec 32)) : List Byte :=
  natLE 8 s.time ++ natLE 2 u ++ natLE 2 k ++ s.telemetryTail u k v

theorem exec_telemetryTick_of_serving {s : State} {unit : BitVec 16} {k : Nat} (hk : s.telemetryKind unit.toNat = some k)
    (hlo : 17 ≤ s.telemetryQueue) (hhi : s.telemetryQueue ≤ 255)
    (hdev : s.serving = true ∨ s.dev = Dev.paused ∨ s.dev = Dev.braced) (v : List (BitVec 32)) :
    exec (.telemetryTick unit v) s =
      .next (s.enqueue s.telemetryQueue 0 [s.telemetryEntry unit.toNat k v] 2).2 := by
  show execTelemetryTick unit v s = _
  simp only [execTelemetryTick, hk]
  rw [if_neg (by simp [hdev]; omega), State.telemetryEntry, State.telemetryTail, ← List.append_assoc]

/-- Settles O20: the entry is put into its queue, in the three cases of a queue disabled, in order, or with pointers that
disagree. -/
theorem telemetryTicks : Obligations.TelemetryTicks := by
  unfold Obligations.TelemetryTicks
  intro unit v s k hk hlo hhi hdev
  have htold := Told.enqueue s (q := s.telemetryQueue) (by omega) 0 [s.telemetryEntry unit.toNat k v] 2
  refine ⟨_, exec_telemetryTick_of_serving hk hlo hhi hdev v, fun hquiet => ?memories, htold.same State.ctxs fun _ => rfl,
    htold.same State.rings fun _ => rfl, fun hoff => ?dropped, fun hon hroom => ?taken⟩
  case memories =>
    have hmem := State.memories_enqueue (q := s.telemetryQueue) 0 [s.telemetryEntry unit.toNat k v] 2 hquiet (by omega)
    exact ⟨State.mem_of_memories hmem, congrArg (fun m => m.2.2.1) hmem⟩
  case dropped =>
    rw [State.enqueue_of_disabled _ _ _ hoff, State.que_putTold _ _ _ hlo (by omega)]
    exact State.pkts_quePut_disabled _ _ _ hoff
  case taken =>
    split
    next hptr =>
      rw [State.enqueue_of_mismatch _ _ _ hon hptr]
      exact State.pkts_queForcedReset hlo
    next hptr =>
      rw [State.enqueue_of_agree _ _ _ hon (eq_false_of_ne_true hptr), State.que_putTold _ _ _ hlo (by omega)]
      exact ⟨_, State.pkts_quePut_room (s := { s with nfree := s.nfree + 1 }) _ _ _ hon hroom, rfl, rfl, _, rfl,
        s.length_telemetryTail _ _ _⟩

end Sys2Proof.Machine
end

section
/-!
Live reception (R439, R440, R442, R471) and the media front ends (R432, R441, R444): the datagrams of a stream, the reset of a
front end, and the slots and samples of a batch that have waited too long.
-/
namespace Sys2Proof.Machine

/-! ### Datagrams (R439, R471) -/

/-- A datagram is a live message: long enough, with its magic number and its reserved fields zero. -/
def isLiveMessage (b : List Byte) : Prop :=
  32 ≤ b.length ∧ fieldAt b 0 0 32 = 0x4C584247 ∧ fieldAt b 7 0 8 = 0 ∧ fieldAt b 28 0 32 = 0

theorem exec_liveDatagram_of_not_served {lp : Fin 24} {s : State} (h : s.netServes = false ∨ s.lpUp lp.val = false)
    (b : List Byte) : exec (.liveDatagram lp b) s = .next s := by
  show execLiveDatagram lp b s = _
  rw [execLiveDatagram, if_neg (by rcases h with h | h <;> simp [h])]

theorem exec_liveDatagram_of_served {lp : Fin 24} {s : State} (hserves : s.netServes = true) (hup : s.lpUp lp.val = true)
    (b : List Byte) : exec (.liveDatagram lp b) s = .next (s.liveDatagram b) := by
  show execLiveDatagram lp b s = _
  rw [execLiveDatagram, if_pos ⟨hserves, hup⟩]

theorem State.liveDatagram_of_no_message {b : List Byte} (h : ¬ isLiveMessage b) (s : State) : s.liveDatagram b = s :=
  if_pos (by unfold isLiveMessage at h; omega)

theorem State.liveStream_lt {s : State} {i n : Nat} (h : s.liveStream i = some n) : n < 64 := by
  have hmem : n ∈ (List.range 64).filter (fun m => s.rd F.kfeLiveCfg_STREAM_ID m == i) := by
    unfold State.liveStream at h
    rcases (Option.orElse_eq_some _ _ _).mp h with h | ⟨-, h⟩
    · exact List.mem_of_find?_eq_some h
    · exact List.mem_of_mem_head? h
  exact List.mem_range.mp (List.mem_filter.mp hmem).1

section
variable {s : State} {b : List Byte} {n : Nat} (hb : isLiveMessage b) (hkfe : ∃ k, k < 4 ∧ s.kfeFitted k = true)
  (hn : s.liveStream (fieldAt b 4 0 16) = some n)
include hb hkfe hn

/-- A live message of a device with front ends goes by its stream. -/
theorem State.liveDatagram_of_stream : s.liveDatagram b =
    if !s.flag F.kfeLiveCfg_ENABLE n then s.liveUnknown (some n) (fieldAt b 4 0 16) (fieldAt b 24 0 32) 1
    else if fieldAt b 24 0 32 > s.rd F.kfeLiveCfg_FRAME_MAX_KIB n * 1024 ∨ s.rd F.kfeLiveCfg_FRAME_SLOTS n = 0 then
      s.liveUnknown (some n) (fieldAt b 4 0 16) (fieldAt b 24 0 32) 2
    else s.liveBytes n (fieldAt b 8 0 32) (fieldAt b 12 0 32) (fieldAt b 16 0 64) (fieldAt b 24 0 32) (fieldAt b 6 0 8)
      (b.drop 32) := by
  obtain ⟨hlen, hmagic, hzero, hzeros⟩ := hb
  obtain ⟨k, hk, hfitted⟩ := hkfe
  unfold State.liveDatagram
  dsimp only
  rw [if_neg (by omega), if_neg (fun hall => by simpa [hfitted] using List.all_eq_true.mp hall k (List.mem_range.mpr hk)), hn]

theorem State.liveDatagram_of_disabled (hoff : s.flag F.kfeLiveCfg_ENABLE n = false) :
    s.liveDatagram b = s.liveUnknown (some n) (fieldAt b 4 0 16) (fieldAt b 24 0 32) 1 := by
  rw [State.liveDatagram_of_stream hb hkfe hn, if_pos (by rw [hoff]; rfl)]

theorem State.liveDatagram_of_enabled (hon : s.flag F.kfeLiveCfg_ENABLE n = true)
    (hmax : fieldAt b 24 0 32 ≤ s.rd F.kfeLiveCfg_FRAME_MAX_KIB n * 1024) (hslots : s.rd F.kfeLiveCfg_FRAME_SLOTS n ≠ 0) :
    s.liveDatagram b = s.liveBytes n (fieldAt b 8 0 32) (fieldAt b 12 0 32) (fieldAt b 16 0 64) (fieldAt b 24 0 32)
      (fieldAt b 6 0 8) (b.drop 32) := by
  rw [State.liveDatagram_of_stream hb hkfe hn, if_neg (by rw [hon]; decide), if_neg (by omega)]

end

/-! ### A message that no stream takes (R439) -/

theorem State.oncePerSecond_eq (s : State) (k : Nat) : ∃ due r, s.oncePerSecond k = (due, { s with rate := r }) := by
  unfold State.oncePerSecond
  split
  · split
    · exact ⟨false, s.rate, rfl⟩
    · exact ⟨true, _, rfl⟩
  · exact ⟨true, _, rfl⟩

/-- It is counted in its stream's OVERRUN; the rate of its notice, and the notice where one is due, are all else. -/
theorem State.liveUnknown_told (s : State) (n i bytes cause : Nat) :
    ∃ r, Told { s.count F.kfeLiveCount_OVERRUN n 1 with rate := r } (s.liveUnknown (some n) i bytes cause) := by
  obtain ⟨due, r, hrate⟩ := (s.count F.kfeLiveCount_OVERRUN n 1).oncePerSecond_eq 1064
  refine ⟨r, ?_⟩
  unfold State.liveUnknown
  dsimp only
  rw [hrate]
  cases due with
  | false => exact .refl _
  | true => exact State.raise_told _ _ (named_of_no_ctx rfl)

/-- A stream's OVERRUN counted. -/
theorem State.overrun_count (s : State) (n : Nat) : (s.count F.kfeLiveCount_OVERRUN n 1).rd F.kfeLiveCount_OVERRUN n =
    satAdd F.kfeLiveCount_OVERRUN.width (s.rd F.kfeLiveCount_OVERRUN n) 1 :=
  s.rd_count_same F.kfeLiveCount_OVERRUN n 1 (by decide)

theorem State.keepsRegs_overrun (s : State) {n : Nat} (hn : n < 64) :
    keepsRegs s (s.count F.kfeLiveCount_OVERRUN n 1) [Reg.kfeLiveCount] :=
  keepsRegs_of_setReg (by omega) rfl

/-! ### The first part of a frame (R440, R471) -/

/-- A part that leaves bytes out does not reach the end of its frame. -/
theorem reach_lt_of_partial {off len total : Nat} (h0 : 0 < len) (hin : off + len ≤ total) (hpart : off ≠ 0 ∨ len < total) :
    reach [(off, off + len)] 2 0 < total := by
  by_cases hoff : off = 0
  · subst hoff
    simp [reach, h0]
    omega
  · simp [reach, hoff]
    omega

/-- The frame that its first part begins, before that part is taken. -/
def State.frameBegun (s : State) (n frame capture total codec : Nat) : LiveFrame :=
  { stream := n, frame := frame, slot := frame % s.rd F.kfeLiveCfg_FRAME_SLOTS n, total := total, got := [],
    firstAt := s.ivl, capture := capture, codec := codec, dead := false }

theorem State.liveBytes_of_first {s : State} {n frame : Nat}
    (hnew : ∀ f, f ∈ s.kfe.frames → f.stream = n →
      f.frame ≠ frame ∧ (f.slot ≠ frame % s.rd F.kfeLiveCfg_FRAME_SLOTS n ∨ f.dead = true))
    (hpin : s.slotPinned n (frame % s.rd F.kfeLiveCfg_FRAME_SLOTS n) = false)
    (off capture total codec : Nat) (payload : List Byte) :
    s.liveBytes n frame off capture total codec payload =
      State.liveBytes.take n off payload
        { s with kfe := { s.kfe with frames := s.kfe.frames ++ [s.frameBegun n frame capture total codec] } }
        (s.frameBegun n frame capture total codec) := by
  have hnone : s.kfe.frames.find? (fun f => f.stream == n && f.frame == frame) = none :=
    List.find?_eq_none.mpr fun f hf => by
      simpa using fun hstream => (hnew f hf hstream).1
  have hfree : s.kfe.frames.any (fun f =>
      f.stream == n && f.slot == frame % s.rd F.kfeLiveCfg_FRAME_SLOTS n && !f.dead) = false :=
    List.any_eq_false.mpr fun f hf => by
      simpa [imp_iff_not_or, or_assoc] using fun hstream => (hnew f hf hstream).2
  unfold State.liveBytes
  dsimp only
  rw [hnone]
  dsimp only
  rw [hpin, hfree]
  rfl

/-- The runs of a payload written into a frame slot of stream `n`. -/
def State.runsWritten (s : State) (n slot : Nat) (runs : List (Nat × List Byte)) : State :=
  runs.foldl (fun s r => (s.writePhys (s.liveSlotAddr n slot + r.1) r.2).2) s

theorem State.runsWritten_told (s : State) (n slot : Nat) (runs : List (Nat × List Byte)) : Told s (s.runsWritten n slot runs) :=
  List.foldlRecOn (motive := fun t : State => Told s t) runs _ (.refl s) fun t ht _ _ => ht.trans (Told.writePhys t _ _)

/-- A first part that leaves bytes out is written to the frame's slot and kept with the frame; nothing is committed. -/
theorem State.take_of_first {s : State} {n off : Nat} {payload : List Byte} {fr : LiveFrame} (hgot : fr.got = [])
    (h0 : 0 < payload.length) (hin : off + payload.length ≤ fr.total) (hpart : off ≠ 0 ∨ payload.length < fr.total) :
    ∃ w, Told s w ∧ State.liveBytes.take n off payload s fr =
      { w with kfe := { w.kfe with frames := w.kfe.frames.map fun f =>
        if f = fr then { fr with got := [(off, off + payload.length)] } else f } } := by
  refine ⟨_, s.runsWritten_told n fr.slot (freshRuns [] off payload), ?_⟩
  unfold State.liveBytes.take
  dsimp only
  rw [if_neg (by omega), hgot]
  exact if_neg (Nat.not_le.mpr (reach_lt_of_partial h0 hin hpart))

/-- The first part of a frame of a free slot, where it leaves bytes out, begins the frame (R440, R471). -/
theorem State.liveBytes_begins {s : State} {n frame off total : Nat} {payload : List Byte}
    (hnew : ∀ f, f ∈ s.kfe.frames → f.stream = n →
      f.frame ≠ frame ∧ (f.slot ≠ frame % s.rd F.kfeLiveCfg_FRAME_SLOTS n ∨ f.dead = true))
    (hpin : s.slotPinned n (frame % s.rd F.kfeLiveCfg_FRAME_SLOTS n) = false)
    (h0 : 0 < payload.length) (hin : off + payload.length ≤ total) (hpart : off ≠ 0 ∨ payload.length < total)
    (capture codec : Nat) :
    let t := s.liveBytes n frame off capture total codec payload
    { s.frameBegun n frame capture total codec with got := [(off, off + payload.length)] } ∈ t.kfe.frames ∧
      t.kfe.tables = s.kfe.tables ∧ t.rings = s.rings ∧ keepsRegs s t toldRegs := by
  rw [State.liveBytes_of_first hnew hpin]
  generalize hfr : s.frameBegun n frame capture total codec = fr
  have hgot : fr.got = [] := hfr ▸ rfl
  have htotal : fr.total = total := hfr ▸ rfl
  obtain ⟨w, htold, htake⟩ := State.take_of_first (s := { s with kfe := { s.kfe with frames := s.kfe.frames ++ [fr] } })
    (n := n) hgot h0 (htotal ▸ hin) (htotal ▸ hpart)
  have hkfe : w.kfe = { s.kfe with frames := s.kfe.frames ++ [fr] } := htold.same State.kfe fun _ => rfl
  rw [htake]
  exact ⟨List.mem_map.mpr ⟨fr, by rw [hkfe]; simp, if_pos rfl⟩, show w.kfe.tables = _ by rw [hkfe],
    htold.same State.rings fun _ => rfl, htold.regs⟩

/-! ### A frame that stays incomplete (R471) -/

section
variable {stream : Fin 64} {frame : BitVec 32} {s : State} {f : LiveFrame}
  (hf : s.kfe.frames.find? (fun f => f.stream == stream.val && f.frame == frame.toNat) = some f)
include hf

theorem exec_liveFrameTimeout_of_in_time (ht : s.ivl < f.firstAt + 10000000) :
    exec (.liveFrameTimeout stream frame) s = .next s := by
  show execLiveFrameTimeout stream frame s = _
  unfold execLiveFrameTimeout
  rw [hf]
  dsimp only
  rw [if_neg (by omega)]

theorem exec_liveFrameTimeout_of_late (ht : f.firstAt + 10000000 ≤ s.ivl) :
    exec (.liveFrameTimeout stream frame) s = .next
      (let t := { s with kfe := { s.kfe with frames := s.kfe.frames.filter (fun g => g != f) } }
       if f.dead then t else t.count F.kfeLiveCount_OVERRUN stream.val 1) := by
  show execLiveFrameTimeout stream frame s = _
  unfold execLiveFrameTimeout
  rw [hf]
  dsimp only
  rw [if_pos (by omega)]

end

/-! ### The reset of a front end (R444) -/

/-- KFE_STATUS of a front end whose reset begins. -/
def State.statusDown (s : State) (k : Nat) : State :=
  ((s.wr F.kfeStatus_UP k 0).wr F.kfeStatus_TABLE_VALID k 0).count F.kfeStatus_RESETS k 1

/-- A front end out of service, without its table and in reset, but for the notice and its samples. -/
def State.kfeDown (s : State) (k : Nat) : State :=
  { s.statusDown k with kfe := { s.kfe with tables := del s.kfe.tables k, resetting := s.kfe.resetting ++ [k] } }

section
variable (s : State) {k : Nat}

theorem State.status_statusDown :
    (s.statusDown k).rd F.kfeStatus_UP k = 0 ∧ (s.statusDown k).rd F.kfeStatus_TABLE_VALID k = 0 ∧
    (s.statusDown k).rd F.kfeStatus_RESETS k = satAdd F.kfeStatus_RESETS.width (s.rd F.kfeStatus_RESETS k) 1 := by
  have hup := s.rd_wr_same F.kfeStatus_UP k 0 (by decide)
  have hresets := s.rd_wr_fld F.kfeStatus_UP F.kfeStatus_RESETS k 0 rfl (by decide) (by decide)
  generalize hu : s.wr F.kfeStatus_UP k 0 = u at hup hresets
  have hv := u.rd_wr_same F.kfeStatus_TABLE_VALID k 0 (by decide)
  have hup' := u.rd_wr_fld F.kfeStatus_TABLE_VALID F.kfeStatus_UP k 0 rfl (by decide) (by decide)
  have hresets' := u.rd_wr_fld F.kfeStatus_TABLE_VALID F.kfeStatus_RESETS k 0 rfl (by decide) (by decide)
  unfold State.statusDown
  rw [hu]
  generalize u.wr F.kfeStatus_TABLE_VALID k 0 = v at hv hup' hresets'
  refine ⟨?_, ?_, ?_⟩
  · exact ((v.rd_wr_fld F.kfeStatus_RESETS F.kfeStatus_UP k _ rfl (by decide) (by decide)).trans hup').trans hup
  · exact (v.rd_wr_fld F.kfeStatus_RESETS F.kfeStatus_TABLE_VALID k _ rfl (by decide) (by decide)).trans hv
  · rw [v.rd_count_same F.kfeStatus_RESETS k 1 (by decide), hresets', hresets]

theorem State.keepsRegs_statusDown (hk : k < 4) : keepsRegs s (s.statusDown k) [Reg.kfeStatus] :=
  have hwr : ∀ (u : State) (f : Fld) (v : Nat), f.reg = Reg.kfeStatus → keepsRegs u (u.wr f k v) [Reg.kfeStatus] :=
    fun _ _ _ hf => hf ▸ keepsRegs_of_setReg (by omega) rfl
  ((hwr s F.kfeStatus_UP 0 rfl).andThen (hwr _ F.kfeStatus_TABLE_VALID 0 rfl)).andThen (hwr _ F.kfeStatus_RESETS _ rfl)

theorem State.reg_statusDown_other {j : Nat} (hk : k < 4) (hj : j < 4) (hne : j ≠ k) :
    (s.statusDown k).reg Reg.kfeStatus j = s.reg Reg.kfeStatus j := by
  have hkey : regKey Reg.kfeStatus j ≠ regKey Reg.kfeStatus k := fun he => hne ((regKey_inj (by omega) (by omega)).mp he).2
  exact ((State.reg_wr_other _ F.kfeStatus_RESETS k _ hkey).trans (State.reg_wr_other _ F.kfeStatus_TABLE_VALID k 0 hkey)).trans
    (State.reg_wr_other _ F.kfeStatus_UP k 0 hkey)

end

/-- A front end without samples is reset: nothing runs again. -/
theorem exec_kfeWatchdog_of_no_samples {k : Fin 4} {s : State} (hk : s.kfeFitted k.val = true)
    (hup : s.flag F.kfeStatus_UP k.val = true) (hidle : s.samplesOn k.val = []) :
    ∃ n : Ntc, n.ctx = none ∧ exec (.kfeWatchdog k) s = .next (({ s with nfree := s.nfree + 1 }.kfeDown k.val).raise n) := by
  refine ⟨kfeNtc 0x0B05 Sev.warn k.val none k.val 0 (s.fresh.1.toNat % 2), rfl, ?_⟩
  show execKfeWatchdog k s = _
  rw [execKfeWatchdog, if_pos ⟨hk, hup⟩]
  show Host.Outcome.next (State.resetKfe { s with nfree := s.nfree + 1 } k.val (s.fresh.1.toNat % 2)) = _
  unfold State.resetKfe
  rw [show State.samplesOn { s with nfree := s.nfree + 1 } k.val = [] from hidle]
  rfl

theorem exec_kfeResetDone_of_resetting {k : Fin 4} {s : State} (h : k.val ∈ s.kfe.resetting) :
    exec (.kfeResetDone k) s = .next
      ({ s with kfe := { s.kfe with resetting := s.kfe.resetting.filter (· != k.val) } }.wr F.kfeStatus_UP k.val 1) := by
  show execKfeResetDone k s = _
  rw [execKfeResetDone, if_pos (List.contains_iff_mem.mpr h)]

/-! ### A slot of a live batch that waits (R441) -/

/-- The command once a slot has what it is assigned, at interval count `now`. -/
def Cmd.assigned (x : Cmd) (now slot : Nat) (p : List Nat) : Cmd :=
  { x with parts := put x.parts (Key.live + slot) p,
           aux := [slot + 1, now, x.aux.getD 2 0, x.aux.getD 3 0, x.aux.getD 4 0] }

section
variable {s : State} {k n : Nat} {x : Cmd} (hx : s.cmdAt k n = some x) (hslot : x.aux.getD 0 0 < x.media.slots)
  (hempty : (s.que x.media.queue).head = none)
include hx hslot hempty

/-- With its queue empty a slot whose wait is over goes without a frame. -/
theorem State.liveGo_of_expired (hw : x.media.liveWait * 1000 ≤ s.ivl - x.aux.getD 1 0) (f : Nat) :
    State.liveGo k n (f + 1) s = State.liveGo k n f (s.updCmd k n fun y => y.assigned s.ivl (x.aux.getD 0 0) [0]) := by
  rw [State.liveGo, hx]
  dsimp only
  rw [if_neg (Nat.not_le.mpr hslot), hempty]
  exact if_pos hw

/-- With its queue empty a slot whose wait runs lets the command wait. -/
theorem State.liveGo_of_waiting (hw : s.ivl - x.aux.getD 1 0 < x.media.liveWait * 1000) (f : Nat) :
    State.liveGo k n (f + 1) s = s.updCmd k n fun y => { y with phase := .waiting } := by
  rw [State.liveGo, hx]
  dsimp only
  rw [if_neg (Nat.not_le.mpr hslot), hempty]
  exact if_neg (Nat.not_le.mpr hw)

/-- A slot whose wait is over is left without a frame, and the wait for the slot after it begins. -/
theorem State.liveGo_of_one_expired (hw : x.media.liveWait * 1000 ≤ s.ivl - x.aux.getD 1 0)
    (hmore : x.aux.getD 0 0 + 1 < x.media.slots) (hwait : 0 < x.media.liveWait) :
    State.liveGo k n (s.liveFuel x) s =
      (s.updCmd k n fun y => y.assigned s.ivl (x.aux.getD 0 0) [0]).updCmd k n fun y => { y with phase := .waiting } := by
  have hnext := State.unitCmd_updCmd (f := fun y => y.assigned s.ivl (x.aux.getD 0 0) [0]) hx fun _ h => h
  rw [State.liveFuel, State.liveGo_of_expired hx hslot hempty hw,
    State.liveGo_of_waiting hnext hmore hempty (show s.ivl - s.ivl < x.media.liveWait * 1000 by omega)]

end

section
variable {id : CmdId} {s : State} {x : Cmd} (hx : s.cmd id = some x)
include hx

theorem exec_liveWaitExpiry_of_in_time (ht : s.ivl - x.aux.getD 1 0 < x.media.liveWait * 1000) :
    exec (.liveWaitExpiry id) s = .next s := by
  show execLiveWaitExpiry id s = _
  unfold execLiveWaitExpiry
  rw [hx]
  dsimp only
  rw [if_neg (by omega)]

theorem exec_liveWaitExpiry_of_late (hop : x.opcode = 0x0080) (hphase : x.phase = .waiting) (hlive : x.media.live = true)
    (hheld : s.ctxHeld id.ctx.val = false) (ht : x.media.liveWait * 1000 ≤ s.ivl - x.aux.getD 1 0) :
    exec (.liveWaitExpiry id) s = .next (State.liveGo (CmdKey id) id.count.toNat (s.liveFuel x) s) := by
  have hcount : x.count = id.count.toNat := State.count_of_unitCmd hx
  show execLiveWaitExpiry id s = _
  unfold execLiveWaitExpiry
  rw [hx]
  dsimp only
  rw [if_pos ⟨hop, hphase, hlive, by rw [CmdKey_div, hheld]; rfl, ht⟩, hcount]

end

/-! ### A sample that takes too long (R432) -/

section
variable {id : CmdId} {s : State} {x : Cmd} (hx : s.cmd id = some x) {slot : BitVec 16}
include hx

theorem exec_sampleTimeout_of_in_time (ht : s.ivl - x.issuedAt < s.limits.ns) : exec (.sampleTimeout id slot) s = .next s := by
  show execSampleTimeout id slot s = _
  unfold execSampleTimeout
  rw [hx]
  dsimp only
  rw [if_neg (by omega)]

theorem exec_sampleTimeout_of_late (hop : x.opcode = 0x0080) (hphase : x.phase = .stalled) (hslot : slot.toNat < x.media.slots)
    (hheld : s.ctxHeld id.ctx.val = false) {st : Stall} (hst : st ∈ x.stalls) (hunit : st.unit = slot.toNat)
    (hnot : st.dispatch = false) (ht : x.issuedAt + s.limits.ns ≤ s.ivl) :
    exec (.sampleTimeout id slot) s = .next (s.forceTimeout (CmdKey id) x.count slot.toNat) := by
  have hin : x.stalls.any (fun st => st.unit == slot.toNat && !st.dispatch) = true :=
    List.any_eq_true.mpr ⟨st, hst, by simp [hunit, hnot]⟩
  show execSampleTimeout id slot s = _
  unfold execSampleTimeout
  rw [hx]
  dsimp only
  rw [if_pos ⟨hop, hphase, hslot, by rw [CmdKey_div, hheld]; rfl, hin, by omega⟩]

end

/-! ### The obligation -/

/-- Settles O51: a datagram by its stream, a front end by its status, a slot and a sample by their time. -/
theorem liveAndFrontEnds : Obligations.LiveAndFrontEnds := by
  unfold Obligations.LiveAndFrontEnds
  refine ⟨⟨?ignored, ?datagram, ?incomplete⟩, ?watchdog, ?resetDone,
    fun id s x hx => ⟨?inTime, ?expired, fun slot => ⟨?young, ?old⟩⟩⟩
  case ignored =>
    intro lp b s h
    cases hserves : s.netServes with
    | false => exact exec_liveDatagram_of_not_served (.inl hserves) b
    | true =>
      cases hup : s.lpUp lp.val with
      | false => exact exec_liveDatagram_of_not_served (.inr hup) b
      | true =>
        rw [exec_liveDatagram_of_served hserves hup, State.liveDatagram_of_no_message]
        rintro ⟨hlen, hmagic, hzero, hzeros⟩
        have hshort : b.length < 32 := by simpa [hserves, hup, hmagic, hzero, hzeros] using h
        omega
  case datagram =>
    intro lp b s n hserves hup hlen hmagic hzero hzeros hkfe hn
    have hb : isLiveMessage b := ⟨hlen, hmagic, hzero, hzeros⟩
    have hlt := State.liveStream_lt hn
    refine ⟨fun hoff => ?_, fun hon hmax hslots hnew hpin h0 hin hpart => ?_⟩
    · obtain ⟨r, htold⟩ := s.liveUnknown_told n (fieldAt b 4 0 16) (fieldAt b 24 0 32) 1
      exact ⟨_, (exec_liveDatagram_of_served hserves hup b).trans
          (congrArg _ (State.liveDatagram_of_disabled hb hkfe hn hoff)),
        (htold.rd F.kfeLiveCount_OVERRUN n (by omega) (by decide)).trans (s.overrun_count n),
        htold.same State.kfe fun _ => rfl, htold.same State.rings fun _ => rfl,
        (State.keepsRegs_overrun s (by omega)).trans htold.regs⟩
    · have hdrop : (b.drop 32).length = b.length - 32 := List.length_drop
      rw [← hdrop] at h0 hin hpart ⊢
      exact ⟨_, (exec_liveDatagram_of_served hserves hup b).trans
          (congrArg _ (State.liveDatagram_of_enabled hb hkfe hn hon hmax hslots)),
        have hbegins := State.liveBytes_begins hnew hpin h0 hin hpart _ _
        ⟨⟨_, hbegins.1, rfl, rfl, rfl, rfl, rfl, rfl, rfl⟩, hbegins.2⟩⟩
  case incomplete =>
    intro stream frame s f hf
    refine ⟨exec_liveFrameTimeout_of_in_time hf, fun ht => ⟨_, exec_liveFrameTimeout_of_late hf ht, ?_⟩⟩
    cases hdead : f.dead with
    | true => exact ⟨rfl, rfl, rfl, rfl, fun _ _ _ _ => rfl⟩
    | false => exact ⟨rfl, State.overrun_count _ _, rfl, rfl, State.keepsRegs_overrun _ stream.isLt⟩
  case watchdog =>
    intro k s hk hup hidle
    obtain ⟨n, hctx, hexec⟩ := exec_kfeWatchdog_of_no_samples hk hup hidle
    have htold := State.raise_told ({ s with nfree := s.nfree + 1 }.kfeDown k.val) n (named_of_no_ctx hctx)
    have hkfe := htold.same State.kfe fun _ => rfl
    have hrd (f : Fld) (hf : f.reg = Reg.kfeStatus) := htold.rd f k.val (by omega) (by rw [hf]; decide)
    obtain ⟨hup', htable, hresets⟩ := State.status_statusDown { s with nfree := s.nfree + 1 } (k := k.val)
    refine ⟨_, hexec, (hrd _ rfl).trans hup', (hrd _ rfl).trans htable, (hrd _ rfl).trans hresets,
      ?_, ?_, fun j hj hne => ?_, htold.same State.rings fun _ => rfl, ?_⟩
    · rw [hkfe]; exact look_del_same _ _
    · rw [hkfe]; exact List.mem_append_right _ (List.mem_singleton.mpr rfl)
    · exact (htold.regs Reg.kfeStatus j (by omega) (by decide)).trans (State.reg_statusDown_other _ k.isLt hj hne)
    · exact keepsRegs.trans (State.keepsRegs_statusDown _ k.isLt) htold.regs
  case resetDone =>
    intro k s hk
    refine ⟨_, exec_kfeResetDone_of_resetting hk, State.rd_wr_same _ F.kfeStatus_UP k.val 1 (by decide), ?_, rfl, rfl, rfl,
      keepsRegs_of_setReg (r := Reg.kfeStatus) (i := k.val) (by omega) rfl⟩
    simp
  case inTime => exact exec_liveWaitExpiry_of_in_time hx
  case expired =>
    intro hop hphase hlive hheld ht hmore hwait hempty
    have hassigned := State.unitCmd_updCmd (f := fun y => y.assigned s.ivl (x.aux.getD 0 0) [0]) hx fun _ h => h
    exact ⟨_, (exec_liveWaitExpiry_of_late hx hop hphase hlive hheld (by omega)).trans
        (congrArg _ (State.liveGo_of_one_expired hx (by omega) hempty (by omega) hmore hwait)),
      ⟨_, State.unitCmd_updCmd (f := fun y => { y with phase := .waiting }) hassigned fun _ h => h,
        rfl, look_put_same _ _ _, rfl, rfl, rfl⟩, rfl, rfl⟩
  case young => exact exec_sampleTimeout_of_in_time hx
  case old =>
    rintro hop hphase hslot hheld ⟨st, hst, hunit, hnot⟩ ht
    exact exec_sampleTimeout_of_late hx hop hphase hslot hheld hst hunit hnot ht

end Sys2Proof.Machine
end
